-- ==== Sys2Proof/Word.lean ====
section
/-! DEFINITION. The word types of the Vafrel 208 model and the fixed-size tables the part holds. -/
namespace Sys2Proof

/-- One byte of a frame, a console character or a byte of memory. -/
abbrev Byte := BitVec 8

/-- A 48-bit Ethernet address (R1). -/
abbrev MacAddr := BitVec 48

/-- A console offset: a 32-bit count that wraps (R47). -/
abbrev Offset := BitVec 32

/-- One of the eight nodes. -/
abbrev NodeId := Fin 8

/-- The index of a station table entry, the station's identity inside the part (R1). -/
abbrev StationIx := Fin 32

/-- The index of a pattern table entry (R71). -/
abbrev PatternIx := Fin 32

/-- The index of an image table record (R143). -/
abbrev ImageIx := Fin 8

/-- The index of a fetch table entry (R147). -/
abbrev FetchIx := Fin 32

/-- A place of the extent table (R167). -/
abbrev ExtentIx := Fin 128

/-- One of the nine pending sets: a node's, or (`none`) the part's (R188). -/
abbrev SetId := Option NodeId

/-- A table of exactly `n` rows. -/
abbrev Tab (α : Type) (n : Nat) := Vector α n

/-- Row `i` of a table. -/
def Tab.get {α : Type} {n : Nat} (t : Tab α n) (i : Fin n) : α := t[i.val]

/-- The table with row `i` replaced. -/
def Tab.put {α : Type} {n : Nat} (t : Tab α n) (i : Fin n) (x : α) : Tab α n := t.set i.val x

/-- The table with every row changed by `f`. -/
def Tab.map {α β : Type} {n : Nat} (f : α → β) (t : Tab α n) : Tab β n :=
  ⟨(t.toArray.toList.map f).toArray, by simp⟩

/-- A table of `n` equal rows. -/
def Tab.fill {α : Type} (n : Nat) (x : α) : Tab α n := ⟨(List.replicate n x).toArray, by simp⟩

/-- The eight nodes in ascending order. -/
def allNodes : List NodeId := [0, 1, 2, 3, 4, 5, 6, 7]

/-- The indices `0` to `n - 1` in ascending order. -/
def indices (n : Nat) : List (Fin n) := List.finRange n

end Sys2Proof
end

