-- ==== Sys2Proof/Syntax.lean ====
section
/-! DEFINITION. The commands of the part, one constructor per row of spec/opcode_table.json, and the frames that carry the
requests. -/
namespace Sys2Proof

/-- The fields of a received service frame other than its kind byte and the bytes after the header (R178, R179). `dst`,
`src`, `vlan` (the VLAN identifier of an 802.1Q tag, if the frame carries one) and `ethertype` stand before the service
header; `version`, `node`, `result`, `tag` and `len` (the body length) are header fields. -/
structure Head where
  dst : MacAddr
  src : MacAddr
  vlan : Option (BitVec 12)
  ethertype : BitVec 16
  version : Byte
  node : Byte
  result : Byte
  tag : BitVec 16
  len : BitVec 16
  deriving DecidableEq, Repr

/-- A received frame as the MAC delivers it, with every byte after the ethertype (R178). -/
structure RawFrame where
  dst : MacAddr
  src : MacAddr
  vlan : Option (BitVec 12)
  ethertype : BitVec 16
  payload : List Byte
  deriving DecidableEq, Repr

/-- The commands. A request carries its frame: the head, and `bytes`, the bytes that follow what the row itself fixes. The
row fixes the kind byte; a TABLE_WRITE or TABLE_READ row also fixes the section code that begins the body, and a power action
row the action code that begins it (log entry 2). Bytes after the body length of the head are padding (R178). -/
inductive Instr where
  /-- POWER_ON_RESET (R193): PORn is held low. -/
  | powerOnReset
  /-- PORN_RISE (R193). -/
  | pornRise
  /-- RECORD_READ (R192): the loader takes the next record of the configuration memory. -/
  | recordRead
  /-- FRAME_DROPPED (R178): a frame arrives at the Uplink Port and meets its checks. -/
  | frameDropped (f : RawFrame)
  /-- UNDEFINED_KIND (R7): a frame of any kind byte; in a well-formed command one that no other row fixes. -/
  | undefinedKind (h : Head) (kind : Byte) (bytes : List Byte)
  /-- STATUS_READ (R185). -/
  | statusRead (h : Head) (bytes : List Byte)
  /-- TABLE_WRITE of a section (R11); `bytes` follow the section code. -/
  | tableWriteStation (h : Head) (bytes : List Byte)
  /-- TABLE_WRITE of a section (R16); `bytes` follow the section code. -/
  | tableWriteNodeTenant (h : Head) (bytes : List Byte)
  /-- TABLE_WRITE of a section (R22); `bytes` follow the section code. -/
  | tableWriteNodeLine (h : Head) (bytes : List Byte)
  /-- TABLE_WRITE of a section (R100); `bytes` follow the section code. -/
  | tableWriteNodePower (h : Head) (bytes : List Byte)
  /-- TABLE_WRITE of a section (R107); `bytes` follow the section code. -/
  | tableWriteNodeWatch (h : Head) (bytes : List Byte)
  /-- TABLE_WRITE of a section (R66); `bytes` follow the section code. -/
  | tableWriteNodeStream (h : Head) (bytes : List Byte)
  /-- TABLE_WRITE of a section (R141); `bytes` follow the section code. -/
  | tableWriteNodeMedia (h : Head) (bytes : List Byte)
  /-- TABLE_WRITE of a section (R81); `bytes` follow the section code. -/
  | tableWritePattern (h : Head) (bytes : List Byte)
  /-- TABLE_WRITE of a section (R183); `bytes` follow the section code. -/
  | tableWritePart (h : Head) (bytes : List Byte)
  /-- TABLE_READ of a section (R15); `bytes` follow the section code. -/
  | tableReadStation (h : Head) (bytes : List Byte)
  /-- TABLE_READ of a section (R15); `bytes` follow the section code. -/
  | tableReadNodeTenant (h : Head) (bytes : List Byte)
  /-- TABLE_READ of a section (R24); `bytes` follow the section code. -/
  | tableReadNodeLine (h : Head) (bytes : List Byte)
  /-- TABLE_READ of a section (R101); `bytes` follow the section code. -/
  | tableReadNodePower (h : Head) (bytes : List Byte)
  /-- TABLE_READ of a section (R107); `bytes` follow the section code. -/
  | tableReadNodeWatch (h : Head) (bytes : List Byte)
  /-- TABLE_READ of a section (R66); `bytes` follow the section code. -/
  | tableReadNodeStream (h : Head) (bytes : List Byte)
  /-- TABLE_READ of a section (R141); `bytes` follow the section code. -/
  | tableReadNodeMedia (h : Head) (bytes : List Byte)
  /-- TABLE_READ of a section (R82); `bytes` follow the section code. -/
  | tableReadPattern (h : Head) (bytes : List Byte)
  /-- TABLE_READ of a section (R183); `bytes` follow the section code. -/
  | tableReadPart (h : Head) (bytes : List Byte)
  /-- ATTACH (R55). -/
  | attach (h : Head) (bytes : List Byte)
  /-- DETACH (R56). -/
  | detach (h : Head) (bytes : List Byte)
  /-- RENEW (R57). -/
  | renew (h : Head) (bytes : List Byte)
  /-- CONSOLE_INPUT (R62). -/
  | consoleInput (h : Head) (bytes : List Byte)
  /-- REPLAY (R58). -/
  | replay (h : Head) (bytes : List Byte)
  /-- POWER_ACTION of action POWER_ON (R90); `bytes` follow the action code. -/
  | powerOn (h : Head) (bytes : List Byte)
  /-- POWER_ACTION of action SOFT_OFF (R91); `bytes` follow the action code. -/
  | softOff (h : Head) (bytes : List Byte)
  /-- POWER_ACTION of action HARD_OFF (R92); `bytes` follow the action code. -/
  | hardOff (h : Head) (bytes : List Byte)
  /-- POWER_ACTION of action RESET (R93); `bytes` follow the action code. -/
  | reset (h : Head) (bytes : List Byte)
  /-- POWER_ACTION of action CYCLE (R93); `bytes` follow the action code. -/
  | cycle (h : Head) (bytes : List Byte)
  /-- CLEAR_HOLD (R116). -/
  | clearHold (h : Head) (bytes : List Byte)
  /-- BOOT_OK (R112). -/
  | bootOk (h : Head) (bytes : List Byte)
  /-- MEDIA_INSERT (R134). -/
  | mediaInsert (h : Head) (bytes : List Byte)
  /-- MEDIA_EJECT (R136). -/
  | mediaEject (h : Head) (bytes : List Byte)
  /-- SAVE (R195). -/
  | save (h : Head) (bytes : List Byte)
  /-- RELOAD (R196). -/
  | reload (h : Head) (bytes : List Byte)
  /-- RESTART (R197). -/
  | restart (h : Head) (bytes : List Byte)
  /-- OPEN_REPLY (R144). -/
  | openReply (h : Head) (bytes : List Byte)
  /-- EXTENT_DATA (R151). -/
  | extentData (h : Head) (bytes : List Byte)
  /-- WRITE_REPLY (R156). -/
  | writeReply (h : Head) (bytes : List Byte)
  /-- FRAME_TRANSMITTED (R187). -/
  | frameTransmitted
  /-- LINK_DISCARD (R187). -/
  | linkDiscard
  /-- LINK_STATE_CHANGE (R187): the PHY reports UP (`true`) or DOWN. -/
  | linkStateChange (up : Bool)
  /-- CHARACTER_FRAMED (R29): the sampled data bits, parity bit and stop bit (`true` is high). -/
  | characterFramed (n : NodeId) (data : Byte) (parityBit stopBit : Bool)
  /-- LOW_HOLD_RISE (R30). -/
  | lowHoldRise (n : NodeId)
  /-- BREAK_DETECTED (R30). -/
  | breakDetected (n : NodeId)
  /-- BREAK_END (R31). -/
  | breakEnd (n : NodeId)
  /-- QUIET_ELAPSED (R31). -/
  | quietElapsed (n : NodeId)
  /-- CHARACTER_SENT (R40). -/
  | characterSent (n : NodeId)
  /-- BREAK_LOW_END (R41). -/
  | breakLowEnd (n : NodeId)
  /-- BREAK_HIGH_END (R41). -/
  | breakHighEnd (n : NodeId)
  /-- FLUSH_TIMER_EXPIRY (R50). -/
  | flushTimerExpiry (n : NodeId)
  /-- LEASE_EXPIRY (R57) of the named station's attachment. -/
  | leaseExpiry (n : NodeId) (i : StationIx)
  /-- ESCAPE_WINDOW_EXPIRY (R63) of the named station's attachment. -/
  | escapeWindowExpiry (n : NodeId) (i : StationIx)
  /-- PGOOD_LEVEL_CHANGE (R85): the raw level of the input is now high (`true`) or low. -/
  | pgoodLevelChange (n : NodeId) (high : Bool)
  /-- PGOOD_FILTER_EXPIRY (R85). -/
  | pgoodFilterExpiry (n : NodeId)
  /-- PRESS_WIDTH_EXPIRY (R90, R91). -/
  | pressWidthExpiry (n : NodeId)
  /-- ON_TIMEOUT_EXPIRY (R90). -/
  | onTimeoutExpiry (n : NodeId)
  /-- SOFT_OFF_TIMEOUT_EXPIRY (R91). -/
  | softOffTimeoutExpiry (n : NodeId)
  /-- HOLD_WIDTH_EXPIRY (R92). -/
  | holdWidthExpiry (n : NodeId)
  /-- RESET_WIDTH_EXPIRY (R93). -/
  | resetWidthExpiry (n : NodeId)
  /-- DWELL_EXPIRY (R93). -/
  | dwellExpiry (n : NodeId)
  /-- RELEASED_TICK_END (R89). -/
  | releasedTickEnd (n : NodeId)
  /-- REATTACH_TIMER_EXPIRY (R96). -/
  | reattachTimerExpiry (n : NodeId)
  /-- WATCH_TIMER_EXPIRY (R113). -/
  | watchTimerExpiry (n : NodeId)
  /-- BUS_POWER_CHANGE (R120): the node's USB host supplies bus power, or no longer does. -/
  | busPowerChange (n : NodeId) (on : Bool)
  /-- NODE_ABORT (R121). -/
  | nodeAbort (n : NodeId)
  /-- UNDEFINED_BLOCK_REQUEST (R121). -/
  | undefinedBlockRequest (n : NodeId)
  /-- IDENTIFY (R125). -/
  | identify (n : NodeId)
  /-- READY (R125). -/
  | ready (n : NodeId)
  /-- CAPACITY (R125). -/
  | capacity (n : NodeId)
  /-- SENSE (R126). -/
  | sense (n : NodeId)
  /-- PREVENT (R126). -/
  | prevent (n : NodeId)
  /-- ALLOW (R126). -/
  | allow (n : NodeId)
  /-- READ (R128). -/
  | read (n : NodeId) (lba : BitVec 32) (count : BitVec 16)
  /-- WRITE (R131). -/
  | write (n : NodeId) (lba : BitVec 32) (count : BitVec 16)
  /-- EJECT_BY_NODE (R137). -/
  | ejectByNode (n : NodeId)
  /-- DATA_POLL (R122): the node polls and can take up to `room` bytes. -/
  | dataPoll (n : NodeId) (room : Nat)
  /-- WRITE_DATA_RECEIVED (R131): the node offers write data. -/
  | writeDataReceived (n : NodeId) (data : List Byte)
  /-- OPEN_TIMER_EXPIRY (R144). -/
  | openTimerExpiry (r : ImageIx)
  /-- FETCH_TIMER_EXPIRY (R153). -/
  | fetchTimerExpiry (f : FetchIx)
  /-- WRITE_TIMER_EXPIRY (R155). -/
  | writeTimerExpiry (n : NodeId)
  /-- GAP_TIMER_EXPIRY (R189). -/
  | gapTimerExpiry (set : SetId)
  /-- PAGE_WRITE_FINISHED (R195). -/
  | pageWriteFinished
  /-- PAGE_WRITE_TIMEOUT (R195). -/
  | pageWriteTimeout
  /-- START_BIT (R28). -/
  | startBit (n : NodeId)
  /-- FALSE_START (R28). -/
  | falseStart (n : NodeId)
  /-- QUIET_WAIT_RESTART (R31): RXD falls (`false`) or rises while the receiver is QUIET. -/
  | quietWaitRestart (n : NodeId) (high : Bool)
  deriving DecidableEq, Repr

end Sys2Proof
end

