-- ==== Sys2Proof/Decode.lean ====
section
/-! DEFINITION. The command a word spells by the bits of the opcode table. -/
namespace Sys2Proof

/-- The rows of the opcode table that give bits. There is none: the part takes commands as frames, pin events and timer
expiries, and the table gives no row an encoding. -/
def encodedRows : List (Nat × Nat × Instr) := []

/-- The command that `w`, of `nbits` bits, spells by the table's bits. -/
def decodeTableWord (nbits w : Nat) : Option Instr :=
  (encodedRows.find? (fun r => r.1 = nbits ∧ r.2.1 = w)).map (fun r => r.2.2)

end Sys2Proof
end

