-- ==== Sys2Proof/Config.lean ====
section
/-! DEFINITION. What the manual leaves open: the free values of the model. Each is an opaque constant without a body, so no
proof can use its value. -/
namespace Sys2Proof.Config

/-- Which of several waiting producers tests next when descriptors are free. R186 says the producers test in no fixed order;
the argument is the state's count of such choices. DESIGN CHOICE, log entry 5. -/
opaque pick : Nat → Nat

/-- A byte of the configuration memory that the manual does not state: the bytes of a page that lie beyond the end of the
list a SAVE writes, and every byte of a page write that did not finish (R195). The arguments are the state's count of such
writes and the byte's address. DESIGN CHOICE, log entry 6. -/
opaque pageByte : Nat → Nat → BitVec 8

/-- The destination address of a server message queued for a record whose station table entry is EMPTY when the message is
queued (R143 names the address the table holds, and an EMPTY entry holds none). DESIGN CHOICE, log entry 7. -/
opaque absentAddress : Nat → BitVec 48

end Sys2Proof.Config
end

