-- ==== Sys2Proof/Machine/State.lean ====
section
/-! DEFINITION. The state of the Vafrel 208 as plain data, block by block, the reasons a step can stop, and the state right
after power-on reset. -/
namespace Sys2Proof.Machine

/-! ## Steering Unit (SU) -/

/-- The rights of R2 other than ADMIN, which only a class gives. -/
inductive Right where
  | watch | typing | power | media | serve | notify
  deriving DecidableEq, Repr

/-- A station table entry (R1). `rights` holds the bits of R183: bit 0 WATCH to bit 5 NOTIFY. -/
inductive Station where
  | empty
  | operator (addr : MacAddr)
  | tenant (addr : MacAddr) (tenant : BitVec 4) (mask : BitVec 8) (rights : BitVec 6)
  deriving DecidableEq, Repr

/-- The commissioning state of R10, and the time before R193 decides it. -/
inductive Commissioning where
  | undecided | commissioning | commissioned
  deriving DecidableEq, Repr

/-- The Steering Unit: station table, node ownership records, commissioning state, unknown-source count (R1, R5, R6, R10). -/
structure Steering where
  stations : Tab Station 32
  tenants : Tab (BitVec 4) 8
  handovers : Tab (BitVec 16) 8
  commissioning : Commissioning
  unknownSource : Nat
  deriving DecidableEq, Repr

/-! ## Uplink Port (UP) -/

/-- The classes of the transmit queue (R186). -/
inductive FrameClass where
  | answer | media | console | notice
  deriving DecidableEq, Repr

/-- The rotation pointer of R187. -/
inductive Rotation where
  | media | console | notice
  deriving DecidableEq, Repr

/-- The result codes of R181. -/
inductive Result where
  | ok | adjusted | noEffect | partialTaken | busy | full | wrongState | notPermitted | badRequest
  | noMedium | locked | inUse | tooLarge
  deriving DecidableEq, Repr

/-- A frame of the transmit queue (R186), with the header fields of R179 that its producer decides. -/
structure TxFrame where
  cls : FrameClass
  dst : MacAddr
  kind : Byte
  node : Byte
  result : Byte
  tag : BitVec 16
  body : List Byte
  deriving DecidableEq, Repr

/-- The 802.1Q tag of a frame that leaves: its priority and VLAN identifier (R179). -/
structure VlanTag where
  priority : BitVec 3
  id : BitVec 12
  deriving DecidableEq, Repr

/-- A frame as it leaves the port (R179): `payload` is the service header and the body. -/
structure WireFrame where
  dst : MacAddr
  src : MacAddr
  vlan : Option VlanTag
  ethertype : BitVec 16
  payload : List Byte
  deriving DecidableEq, Repr

/-- The six drop counts of R178. -/
structure Drops where
  address : Nat
  vlan : Nat
  ethertype : Nat
  version : Nat
  length : Nat
  room : Nat
  deriving DecidableEq, Repr

/-- The causes of a receive drop (R178). -/
inductive DropCause where
  | address | vlan | ethertype | version | length | room
  deriving DecidableEq, Repr

/-- The Uplink Port (R178, R183, R186, R187). `queue` holds the waiting frames in the order they were queued and `port` the
frame the transmit port has taken; both hold descriptors. `linkUp` is the PHY's report. `lastSent` is the model's own: the
frame that left the port last. -/
structure Uplink where
  addr : MacAddr
  vlan : BitVec 12
  macEnabled : Bool
  drops : Drops
  queue : List TxFrame
  port : Option TxFrame
  rotation : Rotation
  promised : Nat
  linkUp : Bool
  linkDiscards : Nat
  lastSent : Option WireFrame
  deriving DecidableEq, Repr

/-! ## Console Line Units (CL0 to CL7) -/

/-- Parity of the framing (R21). -/
inductive Parity where
  | none | even | odd
  deriving DecidableEq, Repr

/-- Data bits, parity and stop bits (R21). -/
structure Framing where
  dataBits : Nat
  parity : Parity
  stopBits : Nat
  deriving DecidableEq, Repr

/-- The line settings record (R21). `threshold` is T; `breakMs` the break length. -/
structure LineSettings where
  primary : Nat
  further : List Nat
  framing : Framing
  autobaud : Bool
  threshold : Nat
  breakMs : Nat
  deriving DecidableEq, Repr

/-- The receiver states of R28. In `quiet`, the wait is running with its deadline in µs, or stopped while RXD is low. In
`character` and `lowHold`, the moment (µs) at which RXD has been low for 2c since the start edge (R30). -/
inductive Receiver where
  | quiet (wait : Option Nat)
  | ready
  | character (breakAt : Nat)
  | lowHold (breakAt : Nat)
  | brk
  deriving DecidableEq, Repr

/-- An item of a line's transmit queue (R39). -/
inductive TxItem where
  | byte (b : Byte)
  | brk
  deriving DecidableEq, Repr

/-- The transmitter states of R40 and R41. A character keeps the framing and divisor in force when it began; deadlines are
in µs. -/
inductive Transmitter where
  | idle
  | sending (b : Byte) (framing : Framing) (divisor : Nat)
  | breakLow (deadline : Nat)
  | breakHigh (deadline : Nat)
  deriving DecidableEq, Repr

/-- One Console Line Unit (chapter 2). `rxd` is the level of the RXD pin (`true` is high) as the line's commands report it (log
entry 33). The divisor, achieved rate, deviation, character time and RATE_INEXACT flag are
computed from the settings and the current candidate (R25 to R27). -/
structure Line where
  settings : LineSettings
  candidate : Nat
  hunting : Bool
  errors : Nat
  goodRun : Nat
  laps : Nat
  discard : Nat
  noisy : Bool
  suspended : Bool
  rxd : Bool
  receiver : Receiver
  txQueue : List TxItem
  transmitter : Transmitter
  deriving DecidableEq, Repr

/-! ## Console Stream Unit (CS) -/

/-- The mark codes of R46; a RATE mark carries the index of the new candidate. -/
inductive Mark where
  | reboot
  | rate (candidate : Nat)
  | settings
  | attachGap
  deriving DecidableEq, Repr

/-- The kinds of console entry (R46). -/
inductive EntryKind where
  | char (value : Byte) (parity framing unsettled : Bool)
  | brk
  | mark (m : Mark)
  deriving DecidableEq, Repr

/-- A console entry (R46). -/
structure Entry where
  kind : EntryKind
  overrun : Bool
  deriving DecidableEq, Repr

/-- A history cell of a node's chain (R52): the Buffer Pool cell it is, and the entries it holds. -/
structure HistCell where
  cell : Nat
  entries : List Entry
  deriving DecidableEq, Repr

/-- The attachment modes (R54). -/
inductive Mode where
  | watch | typing
  deriving DecidableEq, Repr

/-- An attachment (R54). `lease` is its deadline in ms ticks; `escape` is the escape timer's deadline while ESCAPE_SEEN. -/
structure Attachment where
  station : StationIx
  mode : Mode
  lease : Nat
  escape : Option Nat
  deriving DecidableEq, Repr

/-- A running replay (R58). `ending` is set while the closing gap frame of R60 waits for a descriptor. -/
structure Replay where
  requester : StationIx
  cursor : Offset
  last : Offset
  gap : Bool
  ending : Bool
  deriving DecidableEq, Repr

/-- The NODE_STREAM settings (R66). -/
structure StreamSettings where
  trigger : Nat
  flushCount : Nat
  escapeByte : Byte
  windowMs : Nat
  histMin : Nat
  histMax : Nat
  deriving DecidableEq, Repr

/-- A node's console stream (chapter 3). `flush` is the flush timer's deadline in µs. -/
structure Stream where
  ring : List Entry
  offset : Offset
  overrun : Bool
  lost : Nat
  flush : Option Nat
  batchDue : Bool
  chain : List HistCell
  oldest : Offset
  atts : List Attachment
  replay : Option Replay
  settings : StreamSettings
  deriving DecidableEq, Repr

/-! ## Pattern Matcher (PM) -/

/-- An element of a pattern (R72). -/
structure Element where
  anyOf : Bool
  value : Byte
  mask : Byte
  deriving DecidableEq, Repr

/-- The pattern actions (R71). -/
inductive PatternAction where
  | notify | bootSeen | faultSeen | ejectMedia
  deriving DecidableEq, Repr

/-- An IN_USE pattern entry (R71). -/
structure Pattern where
  mask : BitVec 8
  anchored : Bool
  action : PatternAction
  elements : List Element
  deriving DecidableEq, Repr

/-- The Pattern Matcher (R71, R73): table (`none` is EMPTY), progress per node and pattern, line-start flags. -/
structure Matcher where
  table : Tab (Option Pattern) 32
  progress : Tab (Tab Nat 32) 8
  lineStart : Tab Bool 8
  deriving DecidableEq, Repr

/-! ## Power Sequencer (PS) -/

/-- The power states (R86). -/
inductive PowerState where
  | unknown | off | on | starting | softStopping | hardStopping | resetting | dwelling
  deriving DecidableEq, Repr

/-- The five actions (R88). -/
inductive ActionKind where
  | powerOn | softOff | hardOff | reset | cycle
  deriving DecidableEq, Repr

/-- Where an action came from; STATION and ESCAPE name the station (R86). -/
inductive Origin where
  | station (i : StationIx)
  | escape (i : StationIx)
  | watch
  deriving DecidableEq, Repr

/-- An action in flight (R86). -/
structure Action where
  kind : ActionKind
  origin : Origin
  toMedia : Bool
  preempted : Option ActionKind
  deriving DecidableEq, Repr

/-- The NODE_POWER settings (R84, R100). A polarity is `true` for ACTIVE_HIGH. -/
structure PowerSettings where
  btnHigh : Bool
  rstHigh : Bool
  pgoodHigh : Bool
  pressMs : Nat
  holdS : Nat
  resetMs : Nat
  dwellS : Nat
  onTimeoutS : Nat
  softTimeoutS : Nat
  filterMs : Nat
  deriving DecidableEq, Repr

/-- The filtered PGOOD level (R85). -/
inductive Filtered where
  | inactive | active | unacquired
  deriving DecidableEq, Repr

/-- A node's power record (R85, R86, R96). `phase`, `reattach`, `wait` are timer deadlines in ms ticks; `tick` is the end of
the released tick of R89. `button` and `reset` tell whether PWRBTN and RST are asserted. `armed` tells that the running
reattach timer will grant with a boot-first indication (R97). `raw` is the level of the PGOOD pin (`true` is high). -/
structure Power where
  state : PowerState
  action : Option Action
  phase : Option Nat
  tick : Option Nat
  button : Bool
  reset : Bool
  granted : Bool
  reattach : Option Nat
  armed : Bool
  raw : Bool
  filtered : Filtered
  wait : Option Nat
  settings : PowerSettings
  deriving DecidableEq, Repr

/-- The watch states (R106). -/
inductive WatchState where
  | idle | watching | held
  deriving DecidableEq, Repr

/-- The boot-watch record with the NODE_WATCH settings (R106). `timer` is a deadline in ms ticks. -/
structure Watch where
  state : WatchState
  timer : Option Nat
  count : Nat
  faultHeld : Bool
  timeS : Nat
  limit : Nat
  localStart : Bool
  faultReboot : Bool
  deriving DecidableEq, Repr

/-! ## Media Ports (MP0 to MP7) -/

/-- The block sizes of a medium (R123). -/
inductive BlockSize where
  | b512 | b2048
  deriving DecidableEq, Repr

/-- Why an eject under R136 was made. -/
inductive EjectCause where
  | station (i : StationIx) (force : Bool)
  | pattern (p : PatternIx)
  | node
  deriving DecidableEq, Repr

/-- The part of a medium record that is present in LOADING, PRESENT and EJECTING (R123). -/
structure MediumRef where
  image : ImageIx
  size : BlockSize
  writable : Bool
  deriving DecidableEq, Repr

/-- A medium record's state with the fields present in it (R123). An EJECTING medium keeps the cause its MEDIUM_EJECTED will
carry (R136). -/
inductive Medium where
  | empty
  | loading (m : MediumRef)
  | present (m : MediumRef) (blocks : Nat)
  | ejecting (m : MediumRef) (blocks : Nat) (cause : EjectCause)
  deriving DecidableEq, Repr

/-- The sense keys (R121). -/
inductive SenseKey where
  | none | notReady | mediumChanged | mediumError | outOfRange | writeProtected | aborted | badRequest
  deriving DecidableEq, Repr

/-- The sense record (R121). -/
structure Sense where
  key : SenseKey
  info : Option (BitVec 32)
  deriving DecidableEq, Repr

/-- Where a READ stands (R129): waiting for its current extent, or delivering from a pinned place of the extent table. -/
inductive ReadPhase where
  | waiting
  | delivering (place : ExtentIx)
  deriving DecidableEq, Repr

/-- An active block request with a data phase. `delivered` counts bytes the node has taken; `handed` counts blocks handed
over, and `mine` tells that the node's outstanding BLOCK_WRITE belongs to this WRITE (R131). -/
inductive Request where
  | read (lba count delivered : Nat) (phase : ReadPhase)
  | write (lba count handed : Nat) (mine : Bool)
  deriving DecidableEq, Repr

/-- What the port last gave its node. The model's own field, the USB side of R121, R122, R125 and R126. -/
inductive UsbReply where
  | nothing
  | notYet
  | accept
  | data (bytes : List Byte) (done : Bool)
  | status (key : SenseKey)
  | identify (vendor product : String) (removable bootFirst : Bool)
  | capacity (blocks : Nat) (size : BlockSize)
  | senseData (s : Sense)
  deriving DecidableEq, Repr

/-- One Media Port (chapter 7). `busPower` is the level its node supplies. `grantBoot` tells that the standing grant found a
PRESENT medium for its boot-first indication, and that no attachment has used it yet (R139, log entry 24). -/
structure MediaPort where
  busPower : Bool
  attached : Bool
  grantBoot : Bool
  bootFirst : Bool
  medium : Medium
  lock : Bool
  changed : Bool
  active : Option Request
  sense : Sense
  staging : List Byte
  readAhead : Bool
  usb : UsbReply
  deriving DecidableEq, Repr

/-! ## Image Fetch Unit (IF) -/

/-- OPENING with its open timer deadline (ms) and open-sent flag, or OPEN with handle and length (R143). -/
inductive ImagePhase where
  | opening (deadline : Nat) (sent : Bool)
  | opened (handle : BitVec 32) (length : Nat)
  deriving DecidableEq, Repr

/-- An image record in OPENING or OPEN (R143). -/
structure ImageRec where
  server : StationIx
  image : BitVec 32
  writable : Bool
  users : BitVec 8
  failures : Nat
  phase : ImagePhase
  deriving DecidableEq, Repr

/-- A live fetch (R147): WAITING with its timer's deadline (ms), or RETRY_WAITING when `timer` is `none`. `received` holds bit
i for fragment i; `second` tells attempt 2. -/
structure Fetch where
  image : ImageIx
  extent : BitVec 32
  needed : Nat
  received : BitVec 4
  target : ExtentIx
  second : Bool
  timer : Option Nat
  deriving DecidableEq, Repr

/-- A fetch table entry (R147); `live` is `none` in FREE. -/
structure FetchEntry where
  generation : BitVec 4
  live : Option Fetch
  deriving DecidableEq, Repr

/-- The kinds of need (R148). -/
inductive NeedKind where
  | node | readAhead
  deriving DecidableEq, Repr

/-- An item of the need list (R148). -/
structure Need where
  image : ImageIx
  extent : BitVec 32
  kind : NeedKind
  waiting : BitVec 8
  raiser : NodeId
  deriving DecidableEq, Repr

/-- The states of an outstanding write other than NONE (R155); WAITING carries the timer's deadline (ms). -/
inductive WritePhase where
  | sending
  | waiting (deadline : Nat)
  | retryWaiting
  deriving DecidableEq, Repr

/-- An outstanding write (R155). `offset` and `count` are in bytes. -/
structure WriteOp where
  image : ImageIx
  offset : Nat
  count : Nat
  second : Bool
  phase : WritePhase
  deriving DecidableEq, Repr

/-- A node's outstanding-write record (R155); `live` is `none` in NONE. -/
structure WriteEntry where
  generation : BitVec 4
  live : Option WriteOp
  deriving DecidableEq, Repr

/-- The Image Fetch Unit (chapter 8). `timeout` is the fetch timeout in ms (R160). -/
structure ImageUnit where
  images : Tab (Option ImageRec) 8
  fetches : Tab FetchEntry 32
  needs : List Need
  writes : Tab WriteEntry 8
  late : Nat
  foreign : Nat
  malformed : Nat
  unsentClose : Nat
  timeout : Nat
  deriving DecidableEq, Repr

/-! ## Buffer Pool (BP) -/

/-- The key of an extent (R167). -/
structure ExtentKey where
  server : StationIx
  image : BitVec 32
  extent : BitVec 32
  deriving DecidableEq, Repr

/-- An extent-table entry (R167). `valid` tells VALID from FILLING; `cells` are its pool cells in position order; `frags`
holds the bytes written so far, one list for each 1,024-byte fragment. -/
structure Extent where
  key : ExtentKey
  valid : Bool
  stale : Bool
  owned : Bool
  pins : Nat
  cells : List Nat
  frags : List (List Byte)
  deriving DecidableEq, Repr

/-- The Buffer Pool (chapter 9). Cell owners, held counts and the reservation are computed from the history chains and the
extent table; the history limits stand in the stream settings. -/
structure Pool where
  extents : Tab (Option Extent) 128
  recency : List ExtentIx
  waiting : Bool
  evictions : Nat
  reclaims : Nat
  deriving DecidableEq, Repr

/-! ## Notice Unit (NU) -/

/-- The kinds of the POWER class (R98). -/
inductive PowerEvent where
  | acquired | onDone | onFailed | softOffDone | softOffFailed | hardOffDone | hardOffFailed | resetDone | cycleInterrupted
  | lost | startedLocally
  deriving DecidableEq, Repr

/-- The cause of a boot failure (R113). -/
inductive FailCause where
  | expiry
  | fault (p : PatternIx) (off : Offset)
  deriving DecidableEq, Repr

/-- The source that satisfied a watch (R111, R112). -/
inductive BootSource where
  | pattern (p : PatternIx) (off : Offset)
  | request (i : StationIx)
  deriving DecidableEq, Repr

/-- The events blocks raise, with their details (R188). -/
inductive Event where
  | held (count : Nat) (cause : FailCause)
  | bootFailed (count : Nat) (cause : FailCause) (offered : Option ActionKind)
  | power (kind : PowerEvent) (state : PowerState) (action : Option Action)
  | mediumInserted
  | mediumEjected (cause : EjectCause)
  | insertFailed (tooLarge : Bool)
  | serverLost (server : StationIx) (image : BitVec 32)
  | ejectRefused (p : PatternIx)
  | lineHunting (rate : Nat)
  | lineLocked (rate : Nat)
  | lineNoisy (rate : Nat)
  | attachExpired (i : StationIx)
  | bootConfirmed (count : Nat) (source : BootSource)
  | pattern (p : PatternIx) (off : Offset)
  | tenantChanged
  | commissioned
  | saveDone
  | saveFailed (address : Nat)
  | reloadDone (loaded clamped skipped : Nat)
  deriving DecidableEq, Repr

/-- A member of a pending set (R188). -/
structure Member where
  event : Event
  count : Nat
  deriving DecidableEq, Repr

/-- A pending set, members in the order their kinds joined, and its gap timer's deadline in ms ticks (R188, R189). -/
structure PendingSet where
  members : List Member
  gap : Option Nat
  deriving DecidableEq, Repr

/-- The Notice Unit (R188, R189). `gapMs` is the notice gap. -/
structure Notices where
  sets : Tab PendingSet 8
  part : PendingSet
  gapMs : Nat
  deriving DecidableEq, Repr

/-! ## Settings Loader (SL) -/

/-- The write of a running SAVE that the memory has not yet reported finished (R195): the single byte at address 0, page k,
or at the end the page holding address 0. -/
inductive SaveStep where
  | blank
  | page (k : Nat)
  | final
  deriving DecidableEq, Repr

/-- The loader's activity (R191, R195), with the address of the next record while reading and, while saving, the list formed
when the SAVE was taken, the write in progress and its 50 ms deadline. -/
inductive Activity where
  | idle
  | loading (next : Nat)
  | reloading (next : Nat)
  | saving (list : List Byte) (step : SaveStep) (deadline : Nat)
  deriving DecidableEq, Repr

/-- The Settings Loader (chapter 11). -/
structure Loader where
  activity : Activity
  loaded : Nat
  clamped : Nat
  skipped : Nat
  deriving DecidableEq, Repr

/-! ## The part -/

/-- The state of the part. Model's own fields: `now` (the clock in µs on which the timers' deadlines stand, log entry 3),
`picks` and `blanks` (how many free choices and free page writes have been used, log entries 5 and 6), `pending` (the queue of
commands). `porn` is the PORn pin (`true` is high), `straps` the ADDR pins, `config` the external configuration memory. -/
structure State where
  now : Nat
  porn : Bool
  straps : BitVec 4
  su : Steering
  up : Uplink
  lines : Tab Line 8
  streams : Tab Stream 8
  lease : Nat
  matcher : Matcher
  power : Tab Power 8
  watches : Tab Watch 8
  ports : Tab MediaPort 8
  images : ImageUnit
  pool : Pool
  notices : Notices
  loader : Loader
  config : List Host.Cell
  picks : Nat
  blanks : Nat
  pending : List Instr
  deriving DecidableEq, Repr

/-- The reasons a step can stop with a fault. There is none: the spec gives every command an effect. -/
inductive Fault where
  deriving DecidableEq, Repr

/-- The reasons a command is refused. -/
inductive Refusal where
  /-- Raised by `exec` for a row that has no meaning yet; no row is in that case. Safe. -/
  | notModelled (mnemonic : String)
  deriving DecidableEq, Repr

/-! ## Values after power-on reset -/

/-- The default framing, 8 data bits, no parity, 1 stop bit (R21). -/
def defaultFraming : Framing := ⟨8, .none, 1⟩

/-- The default line settings (R21). -/
def defaultLineSettings : LineSettings := ⟨115200, [], defaultFraming, false, 15, 250⟩

/-- A line after power-on reset at `now` (R31, R44): QUIET, its wait of one character time at 115,200 8N1 running where RXD is
high. -/
def resetLine (rxd : Bool) (now : Nat) : Line :=
  ⟨defaultLineSettings, 0, false, 0, 0, 0, 0, false, false, rxd, .quiet (if rxd then some (now + 87) else none), [], .idle⟩

/-- The default stream settings (R66). -/
def defaultStreamSettings : StreamSettings := ⟨64, 4, 0x1C, 2000, 4, 32⟩

/-- A stream after power-on reset (R69). -/
def resetStream : Stream := ⟨[], 0, false, 0, none, false, [], 0, [], none, defaultStreamSettings⟩

/-- The Pattern Matcher after power-on reset (R83). -/
def resetMatcher : Matcher := ⟨Tab.fill 32 none, Tab.fill 8 (Tab.fill 32 0), Tab.fill 8 true⟩

/-- The default power settings (R84, R100). -/
def defaultPowerSettings : PowerSettings := ⟨false, false, true, 200, 6, 100, 5, 5, 120, 20⟩

/-- A power record while PORn is low (R103); the PGOOD pin keeps its level. -/
def resetPower (raw : Bool) : Power :=
  ⟨.unknown, none, none, none, false, false, false, none, false, raw, .unacquired, none, defaultPowerSettings⟩

/-- A boot-watch record after power-on reset (R106, R119). -/
def resetWatch : Watch := ⟨.idle, none, 0, false, 300, 3, true, false⟩

/-- A Media Port after power-on reset (R140); the bus power its node supplies is kept. -/
def resetPort (busPower : Bool) : MediaPort :=
  ⟨busPower, false, false, false, .empty, false, false, none, ⟨.none, none⟩, [], true, .nothing⟩

/-- The Image Fetch Unit after power-on reset (R161). -/
def resetImages : ImageUnit :=
  ⟨Tab.fill 8 none, Tab.fill 32 ⟨0, none⟩, [], Tab.fill 8 ⟨0, none⟩, 0, 0, 0, 0, 400⟩

/-- The Buffer Pool after power-on reset (R176). -/
def resetPool : Pool := ⟨Tab.fill 128 none, [], false, 0, 0⟩

/-- The Notice Unit after power-on reset (R183, R188, R189). -/
def resetNotices : Notices := ⟨Tab.fill 8 ⟨[], none⟩, ⟨[], none⟩, 100⟩

/-- The Steering Unit after power-on reset (R20). -/
def resetSteering : Steering := ⟨Tab.fill 32 .empty, Tab.fill 8 0, Tab.fill 8 0, .undecided, 0⟩

/-- The part's station address after power-on reset, 02-A0-00-00-00-nn (R183). -/
def defaultAddress (straps : BitVec 4) : MacAddr := 0x02A000000000#48 ||| straps.setWidth 48

/-- The Uplink Port after power-on reset (R178, R183, R186, R187); the link keeps the PHY's report. -/
def resetUplink (straps : BitVec 4) (linkUp : Bool) : Uplink :=
  ⟨defaultAddress straps, 0, false, ⟨0, 0, 0, 0, 0, 0⟩, [], none, .media, 0, linkUp, 0, none⟩

/-- The machine right after power-on reset, PORn still low (R193): the clock at 0, straps and input pins low, RXD high, the
link DOWN, the configuration memory erased (log entry 9). -/
def State.reset : State where
  now := 0
  porn := false
  straps := 0
  su := resetSteering
  up := resetUplink 0 false
  lines := Tab.fill 8 (resetLine true 0)
  streams := Tab.fill 8 resetStream
  lease := 120
  matcher := resetMatcher
  power := Tab.fill 8 (resetPower false)
  watches := Tab.fill 8 resetWatch
  ports := Tab.fill 8 (resetPort false)
  images := resetImages
  pool := resetPool
  notices := resetNotices
  loader := ⟨.loading 0, 0, 0, 0⟩
  config := []
  picks := 0
  blanks := 0
  pending := []

end Sys2Proof.Machine
end

