-- ==== Sys2Proof/Machine/Flags.lean ====
section
/-! DEFINITION. Quantities and flags the manual computes from the state: saturating counts and clamps, the rate arithmetic of
a console line, rights, the ranks and codes of the tables. -/
namespace Sys2Proof.Machine

/-! ## Counts and clamps -/

/-- A 16-bit count that saturates at 65,535. -/
def satInc (n : Nat) : Nat := min (n + 1) 65535

/-- The nearer limit of `lo` to `hi`. -/
def clamp (lo hi x : Nat) : Nat := if x < lo then lo else if hi < x then hi else x

/-- `a / b` rounded up. -/
def ceilDiv (a b : Nat) : Nat := (a + b - 1) / b

/-! ## Rate arithmetic (R25 to R27) -/

/-- The reference clock in Hz (R25). -/
def referenceHz : Nat := 29491200

/-- The divisor D of rate `r` (R25). -/
def divisor (r : Nat) : Nat := (referenceHz + 8 * r) / (16 * r)

/-- The achieved rate A of rate `r` (R25). -/
def achieved (r : Nat) : Nat := referenceHz / (16 * divisor r)

/-- The deviation of rate `r` in parts per thousand (R26). -/
def deviation (r : Nat) : Nat :=
  let d := if achieved r < r then r - achieved r else achieved r - r
  (2000 * d + r) / (2 * r)

/-- A rate is inexact when its deviation is above 30 (R26). -/
def inexact (r : Nat) : Bool := 30 < deviation r

/-- The bits per character b (R27). -/
def Framing.bits (f : Framing) : Nat :=
  1 + f.dataBits + (if f.parity = .none then 0 else 1) + f.stopBits

/-- The character time c in µs of rate `r` under framing `f` (R27). -/
def charTime (f : Framing) (r : Nat) : Nat := ceilDiv (f.bits * 1000000) (achieved r)

/-- The candidate list: the primary rate, then the further candidates (R21). -/
def LineSettings.rates (l : LineSettings) : List Nat := l.primary :: l.further

/-- The rate, as stored, of the current candidate. -/
def Line.rate (l : Line) : Nat := l.settings.rates.getD l.candidate l.settings.primary

/-- The character time the line holds (R27). -/
def Line.charTime (l : Line) : Nat := Machine.charTime l.settings.framing l.rate

/-- The RATE_INEXACT flag (R26). -/
def Line.inexact (l : Line) : Bool := Machine.inexact l.rate

/-- A line cannot hunt (R34). -/
def Line.cannotHunt (l : Line) : Bool := !l.settings.autobaud || l.settings.rates.length ≤ 1 || l.suspended

/-- The low-order `k` bits of a byte. -/
def lowBits (k : Nat) (b : Byte) : Byte := BitVec.ofNat 8 (b.toNat % 2 ^ k)

/-- The number of 1 bits of a byte. -/
def ones (b : Byte) : Nat := ((List.range 8).filter b.getLsbD).length

/-- The parity bit a character of `data` carries (R21, R40); `none` without parity. -/
def parityBit (p : Parity) (data : Byte) : Option Bool :=
  match p with
  | .none => none
  | .even => some (ones data % 2 = 1)
  | .odd => some (ones data % 2 = 0)

/-- The levels of a character on TXD, start bit first (R40): `true` is high. -/
def charLevels (f : Framing) (b : Byte) : List Bool :=
  let data := lowBits f.dataBits b
  [false] ++ (List.range f.dataBits).map data.getLsbD ++ (parityBit f.parity data).toList ++ List.replicate f.stopBits true

/-- The levels TXD takes, in order, while the transmitter stands in a state (R40, R41): `true` is high. -/
def Transmitter.txd : Transmitter → List Bool
  | .idle => [true]
  | .sending b f _ => charLevels f b
  | .breakLow _ => [false]
  | .breakHigh _ => [true]

/-- The level of the COMMISSION output (R194): `true` is high. -/
def Commissioning.pin : Commissioning → Bool
  | .commissioning => true
  | .undecided => false
  | .commissioned => false

/-! ## Rights (R2, R3) -/

/-- The bit of a right in the rights byte (R183). -/
def Right.bit : Right → Nat
  | .watch => 0
  | .typing => 1
  | .power => 2
  | .media => 3
  | .serve => 4
  | .notify => 5

/-- The station address of an IN_USE entry. -/
def Station.addr? : Station → Option MacAddr
  | .empty => none
  | .operator a => some a
  | .tenant a _ _ _ => some a

/-- The entry is of class OPERATOR. -/
def Station.isOperator : Station → Bool
  | .operator _ => true
  | .empty => false
  | .tenant _ _ _ _ => false

/-- The station holds `x` on node `n`, whose tenant is `owner` (R2). -/
def Station.holds (st : Station) (owner : BitVec 4) (n : NodeId) (x : Right) : Bool :=
  match st with
  | .empty => false
  | .operator _ => true
  | .tenant _ t mask rights => mask.getLsbD n.val && owner == t && t != 0 && rights.getLsbD x.bit

/-- The station holds at least one right on node `n` (R8). -/
def Station.holdsAny (st : Station) (owner : BitVec 4) (n : NodeId) : Bool :=
  [Right.watch, .typing, .power, .media, .serve, .notify].any (st.holds owner n)

/-- The station may serve the medium of a node whose tenant is `owner` (R3). -/
def Station.mayServe (st : Station) (owner : BitVec 4) : Bool :=
  match st with
  | .empty => false
  | .operator _ => true
  | .tenant _ t _ rights => rights.getLsbD Right.serve.bit && owner == t

/-! ## Media quantities (R127) -/

/-- A block size in bytes. -/
def BlockSize.bytes : BlockSize → Nat
  | .b512 => 512
  | .b2048 => 2048

/-- The block count of an image of `length` bytes (R127). -/
def blockCount (length : Nat) (size : BlockSize) : Nat := ceilDiv length size.bytes

/-- The largest block count of a medium (R123). -/
def maxBlocks : Nat := 4294967295

/-- The number of extents of an image of `length` bytes (R127). -/
def imageExtents (length : Nat) : Nat := ceilDiv length 4096

/-- The fragments needed for extent `e` of an image of `length` bytes (R127). -/
def fragmentsNeeded (length e : Nat) : Nat := ceilDiv (min 4096 (length - 4096 * e)) 1024

/-- The image record a medium refers to, with its block size and writable flag (R123). -/
def Medium.ref? : Medium → Option MediumRef
  | .empty => none
  | .loading m => some m
  | .present m _ => some m
  | .ejecting m _ _ => some m

/-- The medium is PRESENT. -/
def Medium.isPresent : Medium → Bool
  | .present _ _ => true
  | .empty => false
  | .loading _ => false
  | .ejecting _ _ _ => false

/-! ## Codes (R179, R181, R185, R188) -/

/-- The result codes of R181. -/
def Result.code : Result → Byte
  | .ok => 0x00
  | .adjusted => 0x01
  | .noEffect => 0x02
  | .partialTaken => 0x03
  | .busy => 0x04
  | .full => 0x05
  | .wrongState => 0x06
  | .notPermitted => 0x07
  | .badRequest => 0x08
  | .noMedium => 0x09
  | .locked => 0x0A
  | .inUse => 0x0B
  | .tooLarge => 0x0C

/-- The power state codes of R185. -/
def PowerState.code : PowerState → Nat
  | .unknown => 0
  | .off => 1
  | .on => 2
  | .starting => 3
  | .softStopping => 4
  | .hardStopping => 5
  | .resetting => 6
  | .dwelling => 7

/-- The action codes of R180 and R185. -/
def ActionKind.code : ActionKind → Nat
  | .powerOn => 0
  | .softOff => 1
  | .hardOff => 2
  | .reset => 3
  | .cycle => 4

/-- The origin codes of R185. -/
def Origin.code : Origin → Nat
  | .station _ => 0
  | .escape _ => 1
  | .watch => 2

/-- The station an origin names (R86). -/
def Origin.station? : Origin → Option StationIx
  | .station i => some i
  | .escape i => some i
  | .watch => none

/-- The filtered level codes of R185. -/
def Filtered.code : Filtered → Nat
  | .inactive => 0
  | .active => 1
  | .unacquired => 2

/-- The watch state codes of R185. -/
def WatchState.code : WatchState → Nat
  | .idle => 0
  | .watching => 1
  | .held => 2

/-- The medium state codes of R185. -/
def Medium.code : Medium → Nat
  | .empty => 0
  | .loading _ => 1
  | .present _ _ => 2
  | .ejecting _ _ _ => 3

/-- The sense key codes of R185. -/
def SenseKey.code : SenseKey → Nat
  | .none => 0
  | .notReady => 1
  | .mediumChanged => 2
  | .mediumError => 3
  | .outOfRange => 4
  | .writeProtected => 5
  | .aborted => 6
  | .badRequest => 7

/-- The active block request codes of R185. Only requests with a data phase stay active between two steps. -/
def Request.code : Request → Nat
  | .read _ _ _ _ => 6
  | .write _ _ _ _ => 7

/-- The event codes of R188. -/
def PowerEvent.code : PowerEvent → Nat
  | .acquired => 0x10
  | .onDone => 0x11
  | .onFailed => 0x12
  | .softOffDone => 0x13
  | .softOffFailed => 0x14
  | .hardOffDone => 0x15
  | .hardOffFailed => 0x16
  | .resetDone => 0x17
  | .cycleInterrupted => 0x18
  | .lost => 0x19
  | .startedLocally => 0x1A

/-- The event codes of R188. -/
def Event.code : Event → Nat
  | .held _ _ => 0x01
  | .bootFailed _ _ _ => 0x02
  | .power k _ _ => k.code
  | .mediumInserted => 0x20
  | .mediumEjected _ => 0x21
  | .insertFailed _ => 0x22
  | .serverLost _ _ => 0x23
  | .ejectRefused _ => 0x24
  | .lineHunting _ => 0x30
  | .lineLocked _ => 0x31
  | .lineNoisy _ => 0x32
  | .attachExpired _ => 0x40
  | .bootConfirmed _ _ => 0x50
  | .pattern _ _ => 0x60
  | .tenantChanged => 0x70
  | .commissioned => 0x80
  | .saveDone => 0x81
  | .saveFailed _ => 0x82
  | .reloadDone _ _ _ => 0x83

/-- The rank of an event's class (R188); 1 is the highest. -/
def Event.rank : Event → Nat
  | .held _ _ => 1
  | .bootFailed _ _ _ => 2
  | .power _ _ _ => 3
  | .mediumInserted => 4
  | .mediumEjected _ => 4
  | .insertFailed _ => 4
  | .serverLost _ _ => 4
  | .ejectRefused _ => 4
  | .lineHunting _ => 5
  | .lineLocked _ => 5
  | .lineNoisy _ => 5
  | .attachExpired _ => 6
  | .bootConfirmed _ _ => 7
  | .pattern _ _ => 8
  | .tenantChanged => 9
  | .commissioned => 10
  | .saveDone => 10
  | .saveFailed _ => 10
  | .reloadDone _ _ _ => 10

/-- The classes pending in a set as the 2-byte mask of R185. -/
def PendingSet.classMask (p : PendingSet) : Nat :=
  (List.range 10).foldl (fun a k => if p.members.any (fun m => m.event.rank = k + 1) then a + 2 ^ k else a) 0

end Sys2Proof.Machine
end

