-- ==== Sys2Proof/Machine/Operands.lean ====
section
/-! DEFINITION. The byte layouts of the manual: big-endian fields, section bodies, console entries, notice details, and the
operands the request bodies carry (R179 to R185, R190). -/
namespace Sys2Proof.Machine

/-! ## Fields (R179) -/

/-- `n` in `w` bytes, most significant byte first. -/
def be : Nat → Nat → List Byte
  | 0, _ => []
  | w + 1, n => BitVec.ofNat 8 (n / 256 ^ w) :: be w n

/-- The number a list of bytes stands for, most significant byte first. -/
def ofBe (bs : List Byte) : Nat := bs.foldl (fun a b => a * 256 + b.toNat) 0

/-- Byte `i` of a body. -/
def byteAt (b : List Byte) (i : Nat) : Nat := (b.getD i 0).toNat

/-- The field of `w` bytes at `i`. -/
def field (b : List Byte) (i w : Nat) : Nat := ofBe ((b.drop i).take w)

/-- A field of `w` bytes, every byte FFh when it is absent (R185). -/
def orAbsent (w : Nat) : Option Nat → List Byte
  | some n => be w n
  | none => List.replicate w 0xFF

/-- A flag byte (R185). -/
def flagByte (b : Bool) : List Byte := [if b then 1 else 0]

/-- A byte that names a node 0 to 7. -/
def nodeOfByte (b : Byte) : Option NodeId := if h : b.toNat < 8 then some ⟨b.toNat, h⟩ else none

/-- A byte that names an index 0 to 31. -/
def indexOfByte (b : Byte) : Option (Fin 32) := if h : b.toNat < 32 then some ⟨b.toNat, h⟩ else none

/-- A node as a header byte. -/
def nodeByte (n : NodeId) : Byte := BitVec.ofNat 8 n.val

/-- A code of 0 or 1. -/
def bitCode (b : Nat) : Option Bool := if b = 0 then some false else if b = 1 then some true else none

/-! ## Kinds and sections (R179, R182) -/

/-- The sixteen request kinds (R179). -/
inductive RequestKind where
  | statusRead | tableWrite | tableRead | attach | detach | renew | consoleInput | replay | powerAction | clearHold | bootOk
  | mediaInsert | mediaEject | save | reload | restart
  deriving DecidableEq, Repr

/-- The three image-server reply kinds (R179). -/
inductive ReplyKind where
  | openReply | extentData | writeReply
  deriving DecidableEq, Repr

/-- What a kind byte stands for (R7). -/
inductive KindClass where
  | request (k : RequestKind)
  | reply (k : ReplyKind)
  | outbound
  | undefined
  deriving DecidableEq, Repr

/-- The kind codes of R179. -/
def RequestKind.code : RequestKind → Byte
  | .statusRead => 0x01
  | .tableWrite => 0x02
  | .tableRead => 0x03
  | .attach => 0x04
  | .detach => 0x05
  | .renew => 0x06
  | .consoleInput => 0x07
  | .replay => 0x08
  | .powerAction => 0x09
  | .clearHold => 0x0A
  | .bootOk => 0x0B
  | .mediaInsert => 0x0C
  | .mediaEject => 0x0D
  | .save => 0x0E
  | .reload => 0x0F
  | .restart => 0x10

/-- The kind codes of R179. -/
def ReplyKind.code : ReplyKind → Byte
  | .openReply => 0x20
  | .extentData => 0x21
  | .writeReply => 0x22

/-- Every request kind. -/
def requestKinds : List RequestKind :=
  [.statusRead, .tableWrite, .tableRead, .attach, .detach, .renew, .consoleInput, .replay, .powerAction, .clearHold, .bootOk,
    .mediaInsert, .mediaEject, .save, .reload, .restart]

/-- Every reply kind. -/
def replyKinds : List ReplyKind := [.openReply, .extentData, .writeReply]

/-- What a kind byte stands for (R7, R179). -/
def kindClass (b : Byte) : KindClass :=
  if 0x80 ≤ b.toNat then .outbound
  else
    match requestKinds.find? (fun k => k.code == b) with
    | some k => .request k
    | none =>
      match replyKinds.find? (fun k => k.code == b) with
      | some k => .reply k
      | none => .undefined

/-- The kind byte of a STATUS_READ. -/
def statusReadCode : Byte := 0x01

/-- The sections of R182. -/
inductive Sec where
  | station | nodeTenant | nodeLine | nodePower | nodeWatch | nodeStream | nodeMedia | pattern | part
  deriving DecidableEq, Repr

/-- The section codes of R182. -/
def Sec.code : Sec → Byte
  | .station => 0x01
  | .nodeTenant => 0x02
  | .nodeLine => 0x03
  | .nodePower => 0x04
  | .nodeWatch => 0x05
  | .nodeStream => 0x06
  | .nodeMedia => 0x07
  | .pattern => 0x08
  | .part => 0x09

/-- Every section. -/
def sections : List Sec :=
  [.station, .nodeTenant, .nodeLine, .nodePower, .nodeWatch, .nodeStream, .nodeMedia, .pattern, .part]

/-- The section a code byte names (R182). -/
def secOf (b : Byte) : Option Sec := sections.find? (fun c => c.code == b)

/-- The section concerns the part rather than one node (R7). -/
def Sec.ofPart : Sec → Bool
  | .station => true
  | .pattern => true
  | .part => true
  | .nodeTenant => false
  | .nodeLine => false
  | .nodePower => false
  | .nodeWatch => false
  | .nodeStream => false
  | .nodeMedia => false

/-- The action an action code names (R180). -/
def actionOf (b : Byte) : Option ActionKind :=
  [ActionKind.powerOn, .softOff, .hardOff, .reset, .cycle].find? (fun a => a.code = b.toNat)

/-- The node named by a body's first byte, if it is also the header's node (R182). -/
def bodyNode (node : Byte) (b : List Byte) : Option NodeId :=
  match b with
  | [] => none
  | x :: _ => if x = node then nodeOfByte x else none

/-! ## Section bodies (R183) -/

/-- A STATION body as stored (R15, R183). -/
def encodeStation (i : StationIx) : Station → List Byte
  | .empty => be 1 i.val ++ [0]
  | .operator a => be 1 i.val ++ [1, 1, 0, 0, 0] ++ be 6 a.toNat
  | .tenant a t m r => be 1 i.val ++ [1, 0] ++ be 1 t.toNat ++ be 1 m.toNat ++ be 1 r.toNat ++ be 6 a.toNat

/-- The group bit of an Ethernet address (R1). -/
def groupBit (a : MacAddr) : Bool := a.getLsbD 40

/-- The entry a STATION body gives, if it passes the second check of R11. `own` is the part's station address. -/
def decodeStation (own : MacAddr) (b : List Byte) : Option (StationIx × Station) :=
  match b with
  | ix :: st :: rest =>
    match indexOfByte ix with
    | none => none
    | some i =>
      if st = 0 then some (i, .empty)
      else if st = 1 ∧ rest.length = 10 then
        let addr := BitVec.ofNat 48 (field rest 4 6)
        if groupBit addr || addr == own then none
        else if byteAt rest 0 = 1 then some (i, .operator addr)
        else if byteAt rest 0 = 0 ∧ 1 ≤ byteAt rest 1 ∧ byteAt rest 1 ≤ 15 ∧ byteAt rest 3 < 64 then
          some (i, .tenant addr (BitVec.ofNat 4 (byteAt rest 1)) (BitVec.ofNat 8 (byteAt rest 2)) (BitVec.ofNat 6 (byteAt rest 3)))
        else none
      else none
  | _ => none

/-- A NODE_TENANT body (R183). -/
def encodeNodeTenant (n : NodeId) (t : BitVec 4) (count : BitVec 16) : List Byte :=
  be 1 n.val ++ be 1 t.toNat ++ be 2 count.toNat

/-- The parity codes of R183. -/
def Parity.code : Parity → Nat
  | .none => 0
  | .even => 1
  | .odd => 2

/-- The parity a code names (R183). -/
def parityOf (c : Nat) : Option Parity :=
  if c = 0 then some .none else if c = 1 then some .even else if c = 2 then some .odd else none

/-- A NODE_LINE body (R24, R183). -/
def encodeLine (n : NodeId) (l : LineSettings) : List Byte :=
  be 1 n.val ++ be 4 l.primary ++ be 1 l.further.length ++ be 1 l.framing.dataBits ++ be 1 l.framing.parity.code
    ++ be 1 l.framing.stopBits ++ flagByte l.autobaud ++ be 1 l.threshold ++ be 2 l.breakMs ++ l.further.flatMap (be 4)

/-- The line settings a NODE_LINE body carries, before clamping (R22, R183). -/
def decodeLine (b : List Byte) : Option LineSettings :=
  let count := byteAt b 5
  if count ≤ 5 ∧ b.length = 13 + 4 * count then
    match parityOf (byteAt b 7), bitCode (byteAt b 9) with
    | some p, some auto =>
      some ⟨field b 1 4, (List.range count).map (fun k => field b (13 + 4 * k) 4), ⟨byteAt b 6, p, byteAt b 8⟩, auto,
        byteAt b 10, field b 11 2⟩
    | _, _ => none
  else none

/-- A rate clamped to 50 to 1,843,200 (R21). -/
def clampRate (r : Nat) : Nat := clamp 50 1843200 r

/-- Line settings with every quantity clamped (R21). -/
def clampLine (l : LineSettings) : LineSettings :=
  ⟨clampRate l.primary, l.further.map clampRate, ⟨clamp 5 8 l.framing.dataBits, l.framing.parity, clamp 1 2 l.framing.stopBits⟩,
    l.autobaud, clamp 1 63 l.threshold, clamp 10 2550 l.breakMs⟩

/-- A NODE_POWER body (R101, R183). -/
def encodePower (n : NodeId) (p : PowerSettings) : List Byte :=
  be 1 n.val ++ flagByte p.btnHigh ++ flagByte p.rstHigh ++ flagByte p.pgoodHigh ++ be 2 p.pressMs ++ be 1 p.holdS
    ++ be 2 p.resetMs ++ be 1 p.dwellS ++ be 1 p.onTimeoutS ++ be 2 p.softTimeoutS ++ be 1 p.filterMs

/-- The power settings a NODE_POWER body carries, before clamping (R100, R183). -/
def decodePower (b : List Byte) : Option PowerSettings :=
  if b.length = 14 then
    match bitCode (byteAt b 1), bitCode (byteAt b 2), bitCode (byteAt b 3) with
    | some x, some y, some z =>
      some ⟨x, y, z, field b 4 2, byteAt b 6, field b 7 2, byteAt b 9, byteAt b 10, field b 11 2, byteAt b 13⟩
    | _, _, _ => none
  else none

/-- Power settings with every time clamped (R100). -/
def clampPower (p : PowerSettings) : PowerSettings :=
  ⟨p.btnHigh, p.rstHigh, p.pgoodHigh, clamp 50 2550 p.pressMs, clamp 1 15 p.holdS, clamp 10 2550 p.resetMs, clamp 1 60 p.dwellS,
    clamp 1 30 p.onTimeoutS, clamp 10 600 p.softTimeoutS, clamp 1 255 p.filterMs⟩

/-- A NODE_WATCH body (R107, R183). -/
def encodeWatch (n : NodeId) (w : Watch) : List Byte :=
  be 1 n.val ++ be 2 w.timeS ++ be 1 w.limit ++ flagByte w.localStart ++ flagByte w.faultReboot

/-- The four settings of a NODE_WATCH body: watch time, failure limit, local start, fault reboot. -/
structure WatchSettings where
  timeS : Nat
  limit : Nat
  localStart : Bool
  faultReboot : Bool
  deriving DecidableEq, Repr

/-- The settings a NODE_WATCH body carries, before clamping (R107, R183). -/
def decodeWatch (b : List Byte) : Option WatchSettings :=
  if b.length = 6 then
    match bitCode (byteAt b 4), bitCode (byteAt b 5) with
    | some x, some y => some ⟨field b 1 2, byteAt b 3, x, y⟩
    | _, _ => none
  else none

/-- Watch settings with the numbers clamped; a watch time of 0 stays 0 (R107). -/
def clampWatch (w : WatchSettings) : WatchSettings :=
  ⟨if w.timeS = 0 then 0 else clamp 10 3600 w.timeS, min w.limit 7, w.localStart, w.faultReboot⟩

/-- A NODE_STREAM body (R66, R183). -/
def encodeStream (n : NodeId) (t : StreamSettings) : List Byte :=
  be 1 n.val ++ be 2 t.trigger ++ be 1 t.flushCount ++ [t.escapeByte] ++ be 2 t.windowMs ++ be 1 t.histMin ++ be 1 t.histMax

/-- The settings a NODE_STREAM body carries, before clamping (R66, R183). -/
def decodeStream (b : List Byte) : Option StreamSettings :=
  if b.length = 9 then
    some ⟨field b 1 2, byteAt b 3, b.getD 4 0, field b 5 2, byteAt b 7, byteAt b 8⟩
  else none

/-- A trigger level that is not 1, 16, 64 or 256 becomes the largest of those not above it, and 0 becomes 1 (R66). -/
def clampTrigger (t : Nat) : Nat := if t < 16 then 1 else if t < 64 then 16 else if t < 256 then 64 else 256

/-- Stream settings with every quantity clamped (R66). -/
def clampStream (t : StreamSettings) : StreamSettings :=
  ⟨clampTrigger t.trigger, max 1 t.flushCount, t.escapeByte, clamp 100 10000 t.windowMs, clamp 1 16 t.histMin,
    clamp (clamp 1 16 t.histMin) 128 t.histMax⟩

/-- A NODE_MEDIA body (R141, R183). -/
def encodeMedia (n : NodeId) (readAhead : Bool) : List Byte := be 1 n.val ++ flagByte readAhead

/-- The pattern action codes of R183. -/
def PatternAction.code : PatternAction → Nat
  | .notify => 0
  | .bootSeen => 1
  | .faultSeen => 2
  | .ejectMedia => 3

/-- The pattern action a code names (R183). -/
def patternActionOf (c : Nat) : Option PatternAction :=
  [PatternAction.notify, .bootSeen, .faultSeen, .ejectMedia].find? (fun a => a.code = c)

/-- A PATTERN body as stored (R82, R183). -/
def encodePattern (i : PatternIx) : Option Pattern → List Byte
  | none => be 1 i.val ++ [0]
  | some p =>
    be 1 i.val ++ [1] ++ be 1 p.mask.toNat ++ flagByte p.anchored ++ be 1 p.action.code ++ be 1 p.elements.length
      ++ p.elements.flatMap (fun e => flagByte e.anyOf ++ [e.value, if e.anyOf then 0 else e.mask])

/-- The elements of a PATTERN body, three bytes each (R183). -/
def decodeElements : List Byte → Option (List Element)
  | [] => some []
  | k :: v :: m :: rest =>
    match bitCode k.toNat, decodeElements rest with
    | some anyOf, some es => some (⟨anyOf, v, if anyOf then 0 else m⟩ :: es)
    | _, _ => none
  | [_] => none
  | [_, _] => none

/-- The entry a PATTERN body gives, if it passes the second check of R81. -/
def decodePattern (b : List Byte) : Option (PatternIx × Option Pattern) :=
  match b with
  | ix :: st :: rest =>
    match indexOfByte ix with
    | none => none
    | some i =>
      if st = 0 then some (i, none)
      else if st = 1 then
        match rest with
        | mask :: anch :: act :: count :: elems =>
          if 1 ≤ count.toNat ∧ count.toNat ≤ 16 ∧ elems.length = 3 * count.toNat then
            match bitCode anch.toNat, patternActionOf act.toNat, decodeElements elems with
            | some a, some k, some es => some (i, some ⟨mask, a, k, es⟩)
            | _, _, _ => none
          else none
        | _ => none
      else none
  | _ => none

/-- The settings of a PART body (R183). -/
structure PartSettings where
  addr : MacAddr
  vlan : Nat
  lease : Nat
  gapMs : Nat
  timeout : Nat
  deriving DecidableEq, Repr

/-- A PART body (R183). -/
def encodePart (p : PartSettings) : List Byte :=
  be 6 p.addr.toNat ++ be 2 p.vlan ++ be 2 p.lease ++ be 2 p.gapMs ++ be 2 p.timeout

/-- The settings a PART body carries, if they pass the BAD_REQUEST check of R183; not yet clamped. -/
def decodePart (b : List Byte) : Option PartSettings :=
  let addr := BitVec.ofNat 48 (field b 0 6)
  if b.length = 14 ∧ field b 6 2 ≤ 4094 ∧ groupBit addr = false then
    some ⟨addr, field b 6 2, field b 8 2, field b 10 2, field b 12 2⟩
  else none

/-- PART settings with the three quantities clamped (R183). -/
def clampPart (p : PartSettings) : PartSettings :=
  ⟨p.addr, p.vlan, clamp 30 600 p.lease, clamp 10 1000 p.gapMs, clamp 50 5000 p.timeout⟩

/-! ## Console entries (R184) -/

/-- Byte 0 of a mark. -/
def Mark.code : Mark → Nat
  | .reboot => 1
  | .rate c => 2 + 16 * c
  | .settings => 3
  | .attachGap => 4

/-- The 2-byte layout of a console entry (R184). -/
def encodeEntry (e : Entry) : List Byte :=
  let o := if e.overrun then 32 else 0
  match e.kind with
  | .char v p f u => [v, BitVec.ofNat 8 ((if p then 4 else 0) + (if f then 8 else 0) + (if u then 16 else 0) + o)]
  | .brk => [0, BitVec.ofNat 8 (1 + o)]
  | .mark m => [BitVec.ofNat 8 m.code, BitVec.ofNat 8 (2 + o)]

/-- A CONSOLE_OUTPUT body (R184). -/
def encodeOutput (first : Offset) (entries : List Entry) (replay gap last : Bool) : List Byte :=
  be 4 first.toNat ++ be 2 entries.length
    ++ [BitVec.ofNat 8 ((if replay then 1 else 0) + (if gap then 2 else 0) + (if last then 4 else 0)), 0]
    ++ entries.flatMap encodeEntry

/-! ## Notice details (R185, R190), log entry 12 -/

/-- The action-in-flight record of a power event or status: action, origin, station, TO_MEDIA, preempted action (R98, R102). -/
def encodeAction : Option Action → List Byte
  | none => orAbsent 5 none
  | some a =>
    be 1 a.kind.code ++ be 1 a.origin.code ++ orAbsent 1 (a.origin.station?.map Fin.val) ++ flagByte a.toMedia
      ++ orAbsent 1 (a.preempted.map ActionKind.code)

/-- The cause of a boot failure: its code, pattern index and console offset. -/
def encodeFailCause : FailCause → List Byte
  | .expiry => be 1 4 ++ orAbsent 1 none ++ orAbsent 4 none
  | .fault p off => be 1 5 ++ be 1 p.val ++ be 4 off.toNat

/-- The details of an event raised into set `id`, the node first. HELD's cause carries pattern index and console offset as
BOOT_FAILED's does, which R117 leaves open (DEDUCED, log entry 12). -/
def encodeDetails (id : SetId) (e : Event) : List Byte :=
  let node := orAbsent 1 (id.map Fin.val)
  match e with
  | .held c cause => node ++ be 1 c ++ encodeFailCause cause
  | .bootFailed c cause offered => node ++ be 1 c ++ encodeFailCause cause ++ be 1 ((offered.map ActionKind.code).getD 5)
  | .power _ st a => node ++ be 1 st.code ++ encodeAction a
  | .mediumInserted => node ++ be 1 2 ++ orAbsent 1 none
  | .mediumEjected (.station i force) => node ++ be 1 0 ++ be 1 0 ++ be 1 i.val ++ flagByte force ++ orAbsent 1 none
  | .mediumEjected (.pattern p) => node ++ be 1 0 ++ be 1 1 ++ orAbsent 1 none ++ orAbsent 1 none ++ be 1 p.val
  | .mediumEjected .node => node ++ be 1 0 ++ be 1 2 ++ orAbsent 1 none ++ orAbsent 1 none ++ orAbsent 1 none
  | .insertFailed big => node ++ be 1 0 ++ be 1 (if big then 6 else 7)
  | .serverLost srv img => node ++ be 1 0 ++ be 1 8 ++ be 1 srv.val ++ be 4 img.toNat
  | .ejectRefused p => node ++ orAbsent 1 none ++ be 1 1 ++ be 1 p.val
  | .lineHunting r => node ++ be 3 r
  | .lineLocked r => node ++ be 3 r
  | .lineNoisy r => node ++ be 3 r
  | .attachExpired i => node ++ be 1 i.val
  | .bootConfirmed c (.pattern p off) => node ++ be 1 c ++ be 1 1 ++ be 1 p.val ++ be 4 off.toNat ++ orAbsent 1 none
  | .bootConfirmed c (.request i) => node ++ be 1 c ++ be 1 3 ++ orAbsent 1 none ++ orAbsent 4 none ++ be 1 i.val
  | .pattern p off => node ++ be 1 p.val ++ be 4 off.toNat
  | .tenantChanged => []
  | .commissioned => []
  | .saveDone => []
  | .saveFailed a => be 2 a
  | .reloadDone l c k => be 2 l ++ be 2 c ++ be 2 k

/-- A member of a NOTICE body (R190). -/
def encodeMember (id : SetId) (m : Member) : List Byte :=
  be 1 m.event.code ++ be 1 m.count ++ be 1 (encodeDetails id m.event).length ++ encodeDetails id m.event

/-- Members in rank order, and within a class in the order each kind joined the set (R190). -/
def rankOrder (ms : List Member) : List Member :=
  (List.range 10).flatMap (fun k => ms.filter (fun m => m.event.rank = k + 1))

/-- A NOTICE body (R190). -/
def encodeNotice (id : SetId) (ms : List Member) : List Byte :=
  be 1 ms.length ++ (rankOrder ms).flatMap (encodeMember id)

end Sys2Proof.Machine
end

