-- ==== Sys2Proof/Machine/Ops.lean ====
section
/-! DEFINITION. The named operations the blocks share: the clock, the per-node records, raising an event, the transmit queue
and its reserve, answers, and the configuration memory. -/
namespace Sys2Proof.Machine

/-! ## Clock (log entry 3) -/

/-- The present time in 1 ms ticks. -/
def State.ms (s : State) : Nat := s.now / 1000

/-- The clock moved to `us` µs, if that lies ahead. -/
def State.reachUs (s : State) (us : Nat) : State := { s with now := max s.now us }

/-- The clock moved to the tick `ms`, if that lies ahead. -/
def State.reachMs (s : State) (ms : Nat) : State := { s with now := max s.now (ms * 1000) }

/-! ## Records of a node -/

/-- Replace the line of node `n`. -/
def State.putLine (s : State) (n : NodeId) (l : Line) : State := { s with lines := s.lines.put n l }

/-- Replace the stream of node `n`. -/
def State.putStream (s : State) (n : NodeId) (t : Stream) : State := { s with streams := s.streams.put n t }

/-- Replace the power record of node `n`. -/
def State.putPower (s : State) (n : NodeId) (p : Power) : State := { s with power := s.power.put n p }

/-- Replace the boot-watch record of node `n`. -/
def State.putWatch (s : State) (n : NodeId) (w : Watch) : State := { s with watches := s.watches.put n w }

/-- Replace the Media Port of node `n`. -/
def State.putPort (s : State) (n : NodeId) (p : MediaPort) : State := { s with ports := s.ports.put n p }

/-- Replace the Pattern Matcher. -/
def State.putMatcher (s : State) (m : Matcher) : State := { s with matcher := m }

/-- Replace the Image Fetch Unit. -/
def State.putImages (s : State) (u : ImageUnit) : State := { s with images := u }

/-- Replace the Buffer Pool. -/
def State.putPool (s : State) (p : Pool) : State := { s with pool := p }

/-- Replace the Uplink Port. -/
def State.putUp (s : State) (u : Uplink) : State := { s with up := u }

/-- Replace the Steering Unit. -/
def State.putSu (s : State) (u : Steering) : State := { s with su := u }

/-- Replace the Notice Unit. -/
def State.putNotices (s : State) (u : Notices) : State := { s with notices := u }

/-- Replace the Settings Loader. -/
def State.putLoader (s : State) (l : Loader) : State := { s with loader := l }

/-- Replace the lease. -/
def State.putLease (s : State) (k : Nat) : State := { s with lease := k }

/-- Replace the configuration memory. -/
def State.putConfig (s : State) (m : List Host.Cell) : State := { s with config := m }

/-- Replace the queue of commands. -/
def State.putPending (s : State) (q : List Instr) : State := { s with pending := q }

/-! ## Stations -/

/-- The station table entry at an index. -/
def State.station (s : State) (i : StationIx) : Station := s.su.stations.get i

/-- Station `i` holds right `x` on node `n` as the records now stand (R2). -/
def State.holds (s : State) (i : StationIx) (n : NodeId) (x : Right) : Bool :=
  (s.station i).holds (s.su.tenants.get n) n x

/-- Station `i` may serve the medium of node `n` (R3). -/
def State.mayServe (s : State) (i : StationIx) (n : NodeId) : Bool := (s.station i).mayServe (s.su.tenants.get n)

/-- The address of the station at an index; of an EMPTY entry, a free value (log entry 7). -/
def State.addressOf (s : State) (i : StationIx) : MacAddr := ((s.station i).addr?).getD (Config.absentAddress i.val)

/-- The index of the IN_USE entry with an address (R6). -/
def State.findStation (s : State) (a : MacAddr) : Option StationIx :=
  (indices 32).find? (fun i => (s.station i).addr? == some a)

/-! ## Events (R188) -/

/-- A set with an event raised into it (R188). -/
def PendingSet.raise (p : PendingSet) (e : Event) : PendingSet :=
  if p.members.any (fun m => m.event.code = e.code) then
    { p with members := p.members.map (fun m => if m.event.code = e.code then ⟨e, min (m.count + 1) 255⟩ else m) }
  else { p with members := p.members ++ [⟨e, 1⟩] }

/-- The pending set of a node or of the part. -/
def State.pendingSet (s : State) : SetId → PendingSet
  | some n => s.notices.sets.get n
  | none => s.notices.part

/-- Replace a pending set. -/
def State.putSet (s : State) (id : SetId) (p : PendingSet) : State :=
  match id with
  | some n => { s with notices := { s.notices with sets := s.notices.sets.put n p } }
  | none => { s with notices := { s.notices with part := p } }

/-- Raise an event (R188). Whether a NOTICE is sent is decided when the step ends (log entry 4). -/
def State.raise (s : State) (id : SetId) (e : Event) : State := s.putSet id ((s.pendingSet id).raise e)

/-! ## Transmit queue (R186) -/

/-- The frames that hold descriptors: those waiting and the one the port has taken. -/
def Uplink.frames (u : Uplink) : List TxFrame := u.port.toList ++ u.queue

/-- The free descriptors (R186). -/
def Uplink.free (u : Uplink) : Nat := 64 - u.frames.length

/-- The frames of the classes other than ANSWER (R186). -/
def Uplink.others (u : Uplink) : Nat := (u.frames.filter (fun f => f.cls ≠ .answer)).length

/-- The descriptors free outside the reserve (R186). -/
def Uplink.outside (u : Uplink) : Nat := min (56 - u.others) (u.free - u.promised)

/-- Queue a frame at the tail. -/
def State.enqueue (s : State) (f : TxFrame) : State := { s with up := { s.up with queue := s.up.queue ++ [f] } }

/-- Queue frames in order. -/
def State.enqueueAll (s : State) (fs : List TxFrame) : State := { s with up := { s.up with queue := s.up.queue ++ fs } }

/-- Promise an answer (R186). -/
def State.promise (s : State) : State := { s with up := { s.up with promised := s.up.promised + 1 } }

/-- Release a promise (R186). -/
def State.release (s : State) : State := { s with up := { s.up with promised := s.up.promised - 1 } }

/-- A server message in the MEDIA class (chapter 8); the header names node 15 (R179). -/
def serverFrame (dst : MacAddr) (kind : Byte) (body : List Byte) : TxFrame := ⟨.media, dst, kind, 15, 0, 0, body⟩

/-- A CONSOLE_OUTPUT frame (R51, R59). -/
def consoleFrame (dst : MacAddr) (n : NodeId) (body : List Byte) : TxFrame := ⟨.console, dst, 0xA0, nodeByte n, 0, 0, body⟩

/-- The ANSWER to a request (R179, R181): its kind is the request's plus 80h. R179 lists no ANSWER kind for an undefined kind, whose
BAD_REQUEST (R7) is sent in the same way (DEDUCED, log entry 26). -/
def answerFrame (h : Head) (kind : Byte) (r : Result) (body : List Byte) : TxFrame :=
  ⟨.answer, h.src, kind + 0x80, h.node, r.code, h.tag, body⟩

/-- Queue the ANSWER to a request, which uses its promised descriptor (R186). -/
def State.answer (s : State) (h : Head) (kind : Byte) (r : Result) (body : List Byte) : State :=
  (s.release).enqueue (answerFrame h kind r body)

/-! ## Configuration memory (R191) -/

/-- What an unlisted address reads as: an erased memory reads every byte as FFh (R191). -/
def erased : Byte := 0xFF

/-- Read a byte of the configuration memory. -/
def memRead (m : List Host.Cell) (a : Nat) : Byte :=
  match m with
  | [] => erased
  | (k, b) :: rest => if k = a then b else memRead rest a

/-- A cell put in front of cells at higher addresses, left out where it holds what an unlisted address reads as. -/
def memCons (a : Nat) (b : Byte) (m : List Host.Cell) : List Host.Cell := if b = erased then m else (a, b) :: m

/-- Write a byte of the configuration memory, keeping its canonical form. -/
def memWrite (m : List Host.Cell) (a : Nat) (b : Byte) : List Host.Cell :=
  match m with
  | [] => memCons a b []
  | (k, c) :: rest =>
    if k < a then (k, c) :: memWrite rest a b
    else if k = a then memCons a b rest
    else memCons a b ((k, c) :: rest)

/-- Write bytes at rising addresses from `a`; the memory ends at address 65,535 (R191). -/
def memWriteAll (m : List Host.Cell) (a : Nat) : List Byte → List Host.Cell
  | [] => m
  | b :: bs => memWriteAll (if a < 65536 then memWrite m a b else m) (a + 1) bs

/-- The bytes at `a` to `a + k - 1`. -/
def memReadAll (m : List Host.Cell) (a k : Nat) : List Byte := (List.range k).map (fun j => memRead m (a + j))

/-- The canonical form of the configuration memory: addresses strictly rising and below 65,536, no cell holding what an
unlisted address reads as (R191). -/
def memWf : List Host.Cell → Bool
  | [] => true
  | [(a, b)] => decide (a < 65536) && decide (b ≠ erased)
  | (a, b) :: (c, d) :: rest => decide (a < c) && decide (b ≠ erased) && memWf ((c, d) :: rest)

/-! ## The loader's activity -/

/-- A SAVE is running (R195). -/
def State.saving (s : State) : Bool :=
  match s.loader.activity with
  | .saving _ _ _ => true
  | .idle => false
  | .loading _ => false
  | .reloading _ => false

/-- The load that follows power-on reset is running (R193). -/
def State.loading (s : State) : Bool :=
  match s.loader.activity with
  | .loading _ => true
  | .idle => false
  | .reloading _ => false
  | .saving _ _ _ => false

end Sys2Proof.Machine
end

