-- ==== Sys2Proof/Machine/Pool.lean ====
section
/-! DEFINITION. The Buffer Pool (chapter 9) with the history chains it serves: cells and the reservation, grants and drops,
the extent table, allocation with eviction and reclaim. -/
namespace Sys2Proof.Machine

/-! ## Counts (R163, R164) -/

/-- The history cells node `n` holds (R163). -/
def State.heldCells (s : State) (n : NodeId) : Nat := (s.streams.get n).chain.length

/-- The history minimum of node `n` (R175). -/
def State.histMin (s : State) (n : NodeId) : Nat := (s.streams.get n).settings.histMin

/-- The history maximum of node `n` (R175). -/
def State.histMax (s : State) (n : NodeId) : Nat := (s.streams.get n).settings.histMax

/-- The history cells held by all nodes. -/
def State.historyCells (s : State) : Nat := (allNodes.map s.heldCells).sum

/-- The places of the extent table in use, with their entries. -/
def Pool.used (p : Pool) : List (ExtentIx × Extent) :=
  (indices 128).filterMap (fun i => (p.extents.get i).map (fun e => (i, e)))

/-- The free cells (R163). -/
def State.freeCells (s : State) : Nat := 1024 - s.historyCells - 8 * s.pool.used.length

/-- The reservation R (R164). -/
def State.reservation (s : State) : Nat := (allNodes.map (fun n => s.histMin n - s.heldCells n)).sum

/-- The free count less R. -/
def State.slack (s : State) : Nat := s.freeCells - s.reservation

/-- Every cell that has an owner: those of the history chains, then those of the extent table. -/
def State.ownedCells (s : State) : List Nat :=
  allNodes.flatMap (fun n => (s.streams.get n).chain.map HistCell.cell) ++ s.pool.used.flatMap (fun x => x.2.cells)

/-- The owners of R163. -/
inductive CellOwner where
  | free
  | history (n : NodeId)
  | extent (i : ExtentIx)
  deriving DecidableEq, Repr

/-- The cell owner map (R163). -/
def State.cellOwner (s : State) (c : Nat) : CellOwner :=
  match allNodes.find? (fun n => (s.streams.get n).chain.any (fun h => h.cell = c)) with
  | some n => .history n
  | none =>
    match s.pool.used.find? (fun x => x.2.cells.contains c) with
    | some x => .extent x.1
    | none => .free

/-- The `k` lowest cells without an owner, looking from `c` at `fuel` cells. Which cells are chosen plays no part in behaviour
(R163). -/
def freshCells (owned : List Nat) : Nat → Nat → Nat → List Nat
  | 0, _, _ => []
  | fuel + 1, c, k =>
    if k = 0 then []
    else if owned.contains c then freshCells owned fuel (c + 1) k
    else c :: freshCells owned fuel (c + 1) (k - 1)

/-! ## History chains (R52, R53, R60) -/

/-- The entries history holds, oldest first. -/
def Stream.history (t : Stream) : List Entry := t.chain.flatMap HistCell.entries

/-- The history end (R52). -/
def Stream.historyEnd (t : Stream) : Offset := t.oldest + BitVec.ofNat 32 t.history.length

/-- An offset lies within history (R58). -/
def Stream.inHistory (t : Stream) (o : Offset) : Bool := (o - t.oldest).toNat < t.history.length

/-- A running replay adjusted after the oldest offset moved (R60). -/
def Stream.adjustReplay (t : Stream) : Stream :=
  match t.replay with
  | none => t
  | some r =>
    if t.inHistory r.cursor && !r.ending then t
    else if t.inHistory r.last && !r.ending then { t with replay := some { r with cursor := t.oldest, gap := true } }
    else { t with replay := some { r with cursor := t.oldest, gap := true, ending := true } }

/-- The oldest cell dropped (R53). -/
def Stream.dropOldest (t : Stream) : Stream :=
  ({ t with chain := t.chain.drop 1, oldest := t.oldest + 256 } : Stream).adjustReplay

/-- The oldest cell moved to the newest end and emptied (R52). -/
def Stream.recycle (t : Stream) : Stream :=
  match t.chain with
  | [] => t
  | c :: rest => ({ t with chain := rest ++ [{ c with entries := [] }], oldest := t.oldest + 256 } : Stream).adjustReplay

/-- The newest cell has room for an entry (R52). -/
def Stream.newestHasRoom (t : Stream) : Bool :=
  match t.chain.getLast? with
  | none => false
  | some c => c.entries.length < 256

/-- An entry appended to the newest cell. -/
def Stream.append (t : Stream) (e : Entry) : Stream :=
  match t.chain.getLast? with
  | none => t
  | some c => { t with chain := t.chain.dropLast ++ [{ c with entries := c.entries ++ [e] }] }

/-- The pool's answer to a request for a history cell (R165): the cell granted, or none. -/
def State.grant (s : State) (n : NodeId) : Option Nat :=
  if s.heldCells n < s.histMin n ∨ (s.heldCells n < s.histMax n ∧ 1 ≤ s.slack) then
    (freshCells s.ownedCells 1024 0 1).head?
  else none

/-- The chain made ready for one more entry (R52): it has room, or a granted cell joins it, or its oldest cell is recycled. -/
def State.makeRoom (s : State) (n : NodeId) : Stream :=
  let t := s.streams.get n
  if t.newestHasRoom then t
  else
    match s.grant n with
    | some c => { t with chain := t.chain ++ [⟨c, []⟩] }
    | none => t.recycle

/-- The entry `e`, whose console offset is `o`, passes to history (R52). -/
def State.pass (s : State) (n : NodeId) (o : Offset) (e : Entry) : State :=
  let first := if (s.streams.get n).chain = [] then o else (s.makeRoom n).oldest
  s.putStream n (({ s.makeRoom n with oldest := first } : Stream).append e)

/-- Entries with consecutive offsets from `o` pass to history in order. -/
def State.passAll (s : State) (n : NodeId) (o : Offset) : List Entry → State
  | [] => s
  | e :: es => (s.pass n o e).passAll n (o + 1) es

/-! ## The extent table (R167 to R171) -/

/-- The entry with a key. -/
def Pool.lookup (p : Pool) (k : ExtentKey) : Option (ExtentIx × Extent) := p.used.find? (fun x => x.2.key = k)

/-- The pool with the entry at a place replaced. -/
def Pool.putExtent (p : Pool) (i : ExtentIx) (e : Extent) : Pool := { p with extents := p.extents.put i (some e) }

/-- The pool with a place freed: its cells are FREE, the place unused, the entry out of the recency order (R171). -/
def Pool.free (p : Pool) (i : ExtentIx) : Pool :=
  { p with extents := p.extents.put i none, recency := p.recency.filter (· ≠ i) }

/-- The pool with a place moved to the most recently used end (R167). -/
def Pool.touch (p : Pool) (i : ExtentIx) : Pool := { p with recency := p.recency.filter (· ≠ i) ++ [i] }

/-- The ownership of every entry of an image changed (R169). -/
def Pool.setOwned (p : Pool) (srv : StationIx) (img : BitVec 32) (owned : Bool) : Pool :=
  { p with extents := p.extents.map (Option.map (fun e =>
      if e.key.server = srv ∧ e.key.image = img then { e with owned := owned } else e)) }

/-- A VALID entry without a pin. -/
def Extent.evictable (e : Extent) : Bool := e.valid && e.pins == 0

/-- The number of VALID entries without a pin. -/
def Pool.evictableCount (p : Pool) : Nat := (p.used.filter (fun x => x.2.evictable)).length

/-- The next entry to evict (R173): the unowned, then the owned, VALID entry without a pin nearest the head of the order. -/
def Pool.victim (p : Pool) : Option ExtentIx :=
  let pickBy (owned : Bool) := p.recency.find? (fun i =>
    match p.extents.get i with
    | some e => e.evictable && e.owned == owned
    | none => false)
  (pickBy false).orElse (fun _ => pickBy true)

/-- An entry evicted (R173). -/
def Pool.evict (p : Pool) (i : ExtentIx) : Pool := { p.free i with evictions := satInc p.evictions }

/-- The cells node `n` holds above its minimum. -/
def State.aboveMin (s : State) (n : NodeId) : Nat := s.heldCells n - s.histMin n

/-- The node whose held count exceeds its minimum by the most, the lowest number among equals (R173). -/
def State.richest (s : State) : Option NodeId :=
  allNodes.foldl (fun best n =>
    if s.aboveMin n = 0 then best
    else
      match best with
      | none => some n
      | some b => if s.aboveMin b < s.aboveMin n then some n else best) none

/-- Node `n`'s oldest cell dropped for an allocation, counted as a reclaim (R173). -/
def State.reclaim (s : State) (n : NodeId) : State :=
  (s.putStream n (s.streams.get n).dropOldest).putPool { s.pool with reclaims := satInc s.pool.reclaims }

/-- Cells obtained in the order of R173 until the free count less R is at least 8. -/
def State.obtain : Nat → State → State
  | 0, s => s
  | fuel + 1, s =>
    if 8 ≤ s.slack then s
    else
      match s.pool.victim with
      | some i => State.obtain fuel (s.putPool (s.pool.evict i))
      | none =>
        match s.richest with
        | some n => State.obtain fuel (s.reclaim n)
        | none => s

/-- What the pool could obtain without touching any node's minimum (R172). -/
def State.obtainable (s : State) : Nat :=
  s.slack + 8 * s.pool.evictableCount + (allNodes.map s.aboveMin).sum

/-- The lowest unused place of the extent table. -/
def Pool.unusedPlace (p : Pool) : Option ExtentIx := (indices 128).find? (fun i => (p.extents.get i).isNone)

/-- A new FILLING entry in a place, its cells taken from the free ones, with its fill pin (R149, R168, R172). -/
def State.placeExtent (s : State) (k : ExtentKey) (i : ExtentIx) : State :=
  s.putPool { s.pool with
    extents := s.pool.extents.put i (some ⟨k, false, false, true, 1, freshCells s.ownedCells 1024 0 8, [[], [], [], []]⟩)
    recency := s.pool.recency ++ [i] }

/-- An allocation (R172): the place taken, or a refusal that sets the waiting flag. -/
def State.allocate (s : State) (k : ExtentKey) : State × Option ExtentIx :=
  if s.obtainable < 8 then (s.putPool { s.pool with waiting := true }, none)
  else
    match (State.obtain 1200 s).pool.unusedPlace with
    | some i => ((State.obtain 1200 s).placeExtent k i, some i)
    | none => (s.putPool { s.pool with waiting := true }, none)

/-! ## History limits (R175) -/

/-- The write of limits `lo` and `hi` for node `n` is covered (R175). -/
def State.limitsCovered (s : State) (n : NodeId) (lo hi : Nat) : Bool :=
  let held := min (s.heldCells n) hi
  let free := s.freeCells + (s.heldCells n - held)
  let res := (allNodes.map (fun k => if k = n then lo - held else s.histMin k - s.heldCells k)).sum
  res ≤ free + 8 * s.pool.evictableCount

/-- Oldest cells dropped until node `n` holds at most `hi` (R175). -/
def State.dropTo (n : NodeId) (hi : Nat) : Nat → State → State
  | 0, s => s
  | fuel + 1, s =>
    if s.heldCells n ≤ hi then s else State.dropTo n hi fuel (s.putStream n (s.streams.get n).dropOldest)

/-- Entries evicted while the free count is below R (R175). -/
def State.evictToReserve : Nat → State → State
  | 0, s => s
  | fuel + 1, s =>
    if s.reservation ≤ s.freeCells then s
    else
      match s.pool.victim with
      | some i => State.evictToReserve fuel (s.putPool (s.pool.evict i))
      | none => s

/-- New history limits stored and applied, without the report of R174 (R175). -/
def State.applyLimits (s : State) (n : NodeId) (t : StreamSettings) : State :=
  State.evictToReserve 128
    (State.dropTo n t.histMax 1024 (s.putStream n { s.streams.get n with settings := t }))

end Sys2Proof.Machine
end

