-- ==== Sys2Proof/Machine/Streams.lean ====
section
/-! DEFINITION. The Console Stream Unit (chapter 3): the ring, batches, attachments, replay, and what reboot, restart and
handover leave of a stream. -/
namespace Sys2Proof.Machine

/-! ## Batches (R49 to R51) -/

/-- The offset of the oldest entry waiting in the ring. -/
def Stream.ringStart (t : Stream) : Offset := t.offset - BitVec.ofNat 32 t.ring.length

/-- A batch can be formed on node `n` (R50). -/
def State.batchReady (s : State) (n : NodeId) : Bool :=
  let t := s.streams.get n
  !t.atts.isEmpty && !t.ring.isEmpty && (t.settings.trigger ≤ t.ring.length || t.batchDue)
    && decide (t.atts.length ≤ s.up.outside)

/-- One batch formed on node `n`: a frame for each attachment, then the entries pass to history (R51). The frames of one batch join
the queue in the order in which the stations attached (DESIGN CHOICE, log entry 18). -/
def State.formBatch (s : State) (n : NodeId) : State :=
  let t := s.streams.get n
  let batch := t.ring.take 512
  let rest := t.ring.drop 512
  let frames := t.atts.map (fun a =>
    consoleFrame (s.addressOf a.station) n (encodeOutput t.ringStart batch false false false))
  ((s.enqueueAll frames).putStream n { t with ring := rest, batchDue := t.batchDue && !rest.isEmpty }).passAll n t.ringStart batch

/-- Batches formed while the conditions hold (R50). -/
def State.formBatches (n : NodeId) : Nat → State → State
  | 0, s => s
  | fuel + 1, s => if s.batchReady n then State.formBatches n fuel (s.formBatch n) else s

/-- The batch conditions tested on node `n` (R50). A ring holds at most 1,024 entries and a batch takes at least one. -/
def State.testBatch (s : State) (n : NodeId) : State := State.formBatches n 1024 s

/-- The ring of a node without attachments passes to history; the flush timer stops (R49). -/
def State.drainRing (s : State) (n : NodeId) : State :=
  let t := s.streams.get n
  (s.putStream n { t with ring := [], flush := none, batchDue := false }).passAll n t.ringStart t.ring

/-! ## The ring (R47, R49) -/

/-- The capacity of a ring (R47). -/
def ringSize : Nat := 1024

/-- The entry as it joins the ring, with OVERRUN_BEFORE where entries were lost before it (R47). -/
def Stream.accepted (t : Stream) (k : EntryKind) : Entry := ⟨k, t.overrun⟩

/-- The stream with an accepted entry at the tail of its ring (R47, R50): `flush` is the new deadline of the flush timer, if
it is reloaded. -/
def Stream.join (t : Stream) (k : EntryKind) (flush : Option Nat) : Stream :=
  { t with ring := t.ring ++ [t.accepted k], offset := t.offset + 1, overrun := false, flush := flush }

/-- The stream after a dropped entry (R47). -/
def Stream.lose (t : Stream) : Stream := { t with lost := satInc t.lost, overrun := true }

/-- The stream once a mark is accepted or dropped (R47, R48), before any batch. -/
def Stream.marked (t : Stream) (m : Mark) : Stream := if t.ring.length < ringSize then t.join (.mark m) t.flush else t.lose

/-- The flush timer's deadline if it is reloaded now: flush count times the line's character time (R50). -/
def State.flushDeadline (s : State) (n : NodeId) : Nat :=
  s.now + (s.streams.get n).settings.flushCount * (s.lines.get n).charTime

/-- An entry offered to node `n`'s ring (R47): accepted, then batched or passed to history (R49, R50), or dropped. -/
def State.offer (s : State) (n : NodeId) (k : EntryKind) : State :=
  let t := s.streams.get n
  if t.ring.length < ringSize then
    if t.atts.isEmpty then (s.putStream n (t.join k t.flush)).drainRing n
    else (s.putStream n (t.join k (some (s.flushDeadline n)))).testBatch n
  else s.putStream n t.lose

/-! ## Attachments (R54 to R57) -/

/-- The attachment of station `i`. -/
def Stream.att (t : Stream) (i : StationIx) : Option Attachment := t.atts.find? (fun a => a.station = i)

/-- The stream with station `i`'s attachment replaced. -/
def Stream.putAtt (t : Stream) (a : Attachment) : Stream :=
  { t with atts := t.atts.map (fun b => if b.station = a.station then a else b) }

/-- The stream without station `i`'s attachment, its replay cancelled (R56, R61). -/
def Stream.dropAtt (t : Stream) (i : StationIx) : Stream :=
  { t with
    atts := t.atts.filter (fun a => a.station ≠ i)
    replay := t.replay.filter (fun r => r.requester ≠ i) }

/-- Station `i`'s attachment on node `n` removed (R56): the ring drains when the list empties (R49), and the batch
conditions are tested when others remain (R50). -/
def State.detach (s : State) (n : NodeId) (i : StationIx) : State :=
  let t := (s.streams.get n).dropAtt i
  if ((s.streams.get n).att i).isNone then s
  else if t.atts.isEmpty then (s.putStream n t).drainRing n
  else (s.putStream n t).testBatch n

/-- The lease deadline set now (R57). -/
def State.leaseDeadline (s : State) : Nat := s.ms + s.lease * 1000

/-- Station `i`'s attachment on node `n` renewed, if it has one (R57). -/
def State.renewLease (s : State) (n : NodeId) (i : StationIx) : State :=
  match (s.streams.get n).att i with
  | none => s
  | some a => s.putStream n ((s.streams.get n).putAtt { a with lease := s.leaseDeadline })

/-! ## Replay (R58 to R61) -/

/-- The entries a replay frame carries: from the cursor, up to 512 and not past the last offset (R59). -/
def Stream.replayEntries (t : Stream) (r : Replay) : List Entry :=
  (t.history.drop (r.cursor - t.oldest).toNat).take (min 512 ((r.last - r.cursor).toNat + 1))

/-- One replay frame queued (R59), or the closing gap frame of R60, which carries the oldest offset of this moment, also where it
has waited for a descriptor (DESIGN CHOICE, log entry 52). -/
def State.replayFrame (s : State) (n : NodeId) : State :=
  let t := s.streams.get n
  match t.replay with
  | none => s
  | some r =>
    if r.ending then
      (s.enqueue (consoleFrame (s.addressOf r.requester) n (encodeOutput t.oldest [] true true true))).putStream n
        { t with replay := none }
    else
      let es := t.replayEntries r
      let done := decide ((r.last - r.cursor).toNat < es.length)
      (s.enqueue (consoleFrame (s.addressOf r.requester) n (encodeOutput r.cursor es true r.gap done))).putStream n
        { t with replay := if done then none else some { r with cursor := r.cursor + BitVec.ofNat 32 es.length, gap := false } }

/-- A replay runs on node `n` and a descriptor is free for it (R59). -/
def State.replayReady (s : State) (n : NodeId) : Bool := (s.streams.get n).replay.isSome && decide (1 ≤ s.up.outside)

/-! ## The line's transmit queue (R39, R40) -/

/-- The transmitter takes an item (R40, R41): a character under the framing and divisor now in force, or a break whose low
time ends at the deadline. -/
def Line.begin (l : Line) (now : Nat) : TxItem → Transmitter
  | .byte b => .sending b l.settings.framing (divisor l.rate)
  | .brk => .breakLow (now + l.settings.breakMs * 1000)

/-- An IDLE transmitter takes the item at the head (R40). -/
def Line.wake (l : Line) (now : Nat) : Line :=
  match l.transmitter, l.txQueue with
  | .idle, x :: rest => { l with txQueue := rest, transmitter := l.begin now x }
  | _, _ => l

/-- The transmitter, having ended an item, takes the next or becomes IDLE (R40, R41). -/
def Line.next (l : Line) (now : Nat) : Line := ({ l with transmitter := .idle } : Line).wake now

/-- The capacity of a transmit queue (R39). -/
def txSize : Nat := 256

/-- Items offered to the transmit queue of node `n`, which has room for them (R39). -/
def State.sendItems (s : State) (n : NodeId) : List TxItem → State
  | [] => s
  | x :: xs =>
    let l := s.lines.get n
    (s.putLine n (({ l with txQueue := l.txQueue ++ [x] } : Line).wake s.now)).sendItems n xs

/-- The transmit queue of node `n` can take `k` more items (R39). -/
def State.txRoom (s : State) (n : NodeId) (k : Nat) : Bool := (s.lines.get n).txQueue.length + k ≤ txSize

/-- A held escape byte offered as a window expiry offers it, and dropped if the queue is full (R63). -/
def State.releaseByte (s : State) (n : NodeId) (b : Byte) : State :=
  if s.txRoom n 1 then s.sendItems n [.byte b] else s

/-! ## Restart and handover (R67, R68) -/

/-- A stream's share of a restart (R67). -/
def State.restartStream (s : State) (n : NodeId) : State :=
  let d := s.drainRing n
  d.putStream n { d.streams.get n with atts := [], replay := none, flush := none, batchDue := false, overrun := false }

/-- A stream's share of a handover (R68); `operator` tells which stations are operators. -/
def Stream.handover (t : Stream) (operator : StationIx → Bool) : Stream :=
  let atts := t.atts.filter (fun a => operator a.station)
  { t with
    ring := [], offset := 0, overrun := false, lost := 0, chain := [], oldest := 0, atts := atts, replay := none,
    flush := if atts.isEmpty then none else t.flush, batchDue := false }

end Sys2Proof.Machine
end

