-- ==== Sys2Proof/Machine/Patterns.lean ====
section
/-! DEFINITION. The Pattern Matcher (chapter 4): what each entry accepted into a ring does to the progress counters and the
line-start flag, and which patterns it completes. -/
namespace Sys2Proof.Machine

/-- An element matches a character (R72). -/
def Element.accepts (e : Element) (c : Byte) : Bool :=
  if e.anyOf then c &&& e.value ≠ 0 else (c ^^^ e.value) &&& ~~~e.mask = 0

/-- A pattern applies to node `n` (R71). -/
def Pattern.applies (p : Pattern) (n : NodeId) : Bool := p.mask.getLsbD n.val

/-- Element `k` of a pattern accepts a character. -/
def Pattern.acceptsAt (p : Pattern) (k : Nat) (c : Byte) : Bool :=
  match p.elements[k]? with
  | some e => e.accepts c
  | none => false

/-- The number of elements matched in a row after a clean character, starting from progress `k` (R76). -/
def Pattern.advance (p : Pattern) (k : Nat) (lineStart : Bool) (c : Byte) : Nat :=
  if 0 < k ∧ p.acceptsAt k c then k + 1
  else if p.anchored && !lineStart then 0
  else if p.acceptsAt 0 c then 1
  else 0

/-- The progress of pattern `i` on node `n`. -/
def Matcher.progressOf (m : Matcher) (n : NodeId) (i : PatternIx) : Nat := (m.progress.get n).get i

/-- The matched elements of pattern `i` after character `c`, before a completion returns them to 0 (R76). -/
def Matcher.tested (m : Matcher) (n : NodeId) (c : Byte) (i : PatternIx) : Nat :=
  match m.table.get i with
  | some p => if p.applies n then p.advance (m.progressOf n i) (m.lineStart.get n) c else m.progressOf n i
  | none => m.progressOf n i

/-- Pattern `i` completes on character `c` (R76). -/
def Matcher.completes (m : Matcher) (n : NodeId) (c : Byte) (i : PatternIx) : Bool :=
  match m.table.get i with
  | some p => p.applies n && m.tested n c i == p.elements.length
  | none => false

/-- The patterns that complete on character `c`, in ascending order (R77). -/
def Matcher.completions (m : Matcher) (n : NodeId) (c : Byte) : List PatternIx := (indices 32).filter (m.completes n c)

/-- The progress of every pattern of node `n` after character `c` (R76, R77). -/
def Matcher.progressAfter (m : Matcher) (n : NodeId) (c : Byte) : Tab Nat 32 :=
  ⟨((indices 32).map (fun i => if m.completes n c i then 0 else m.tested n c i)).toArray, by simp [indices]⟩

/-- The matcher after a clean character (R76). -/
def Matcher.char (m : Matcher) (n : NodeId) (c : Byte) : Matcher :=
  { m with progress := m.progress.put n (m.progressAfter n c), lineStart := m.lineStart.put n (c == 0x0D || c == 0x0A) }

/-- Every progress counter of node `n` at 0 and its line-start flag as given. -/
def Matcher.clear (m : Matcher) (n : NodeId) (lineStart : Bool) : Matcher :=
  { m with progress := m.progress.put n (Tab.fill 32 0), lineStart := m.lineStart.put n lineStart }

/-- What an OVERRUN_BEFORE flag does before the entry's own effect (R75). -/
def Matcher.overrun (m : Matcher) (n : NodeId) (e : Entry) : Matcher := if e.overrun then m.clear n false else m

/-- The entry's own effect on the matcher (R75, R76). -/
def Matcher.own (m : Matcher) (n : NodeId) (k : EntryKind) : Matcher :=
  match k with
  | .char v p f u => if p || f || u then m.clear n false else m.char n v
  | .brk => m.clear n (m.lineStart.get n)
  | .mark .reboot => m.clear n true
  | .mark (.rate _) => m.clear n (m.lineStart.get n)
  | .mark .settings => m.clear n (m.lineStart.get n)
  | .mark .attachGap => m.clear n (m.lineStart.get n)

/-- The matcher after an accepted entry (R74 to R76). -/
def Matcher.take (m : Matcher) (n : NodeId) (e : Entry) : Matcher := (m.overrun n e).own n e.kind

/-- The patterns an accepted entry completes (R75 to R77). -/
def Matcher.completed (m : Matcher) (n : NodeId) (e : Entry) : List PatternIx :=
  match e.kind with
  | .char v p f u => if p || f || u then [] else (m.overrun n e).completions n v
  | .brk => []
  | .mark _ => []

/-- The reboot order of the Power Sequencer (R75). -/
def Matcher.rebootOrder (m : Matcher) (n : NodeId) : Matcher := m.clear n true

/-- The progress of one index at 0 on all nodes (R81). -/
def Matcher.forget (m : Matcher) (i : PatternIx) : Matcher := { m with progress := m.progress.map (fun t => t.put i 0) }

/-- Every progress counter at 0 (R83, restart). -/
def Matcher.restart (m : Matcher) : Matcher := { m with progress := Tab.fill 8 (Tab.fill 32 0) }

/-- An entry offered to node `n`'s ring and, if the ring accepts it, to the Pattern Matcher (R47, R74). -/
def State.offerMatched (s : State) (n : NodeId) (k : EntryKind) : State :=
  let t := s.streams.get n
  let s' := s.offer n k
  if t.ring.length < ringSize then s'.putMatcher (s.matcher.take n (t.accepted k)) else s'

/-- A mark offered to node `n`'s ring (R48). No mark completes a pattern. -/
def State.offerMark (s : State) (n : NodeId) (m : Mark) : State := s.offerMatched n (.mark m)

/-- The patterns that an entry offered now would complete (R74, R77). -/
def State.completionsOf (s : State) (n : NodeId) (k : EntryKind) : List PatternIx :=
  let t := s.streams.get n
  if t.ring.length < ringSize then s.matcher.completed n (t.accepted k) else []

end Sys2Proof.Machine
end

