-- ==== Sys2Proof/Machine/Images.lean ====
section
/-! DEFINITION. The Image Fetch Unit (chapter 8) up to what it reports to the Media Ports: its messages, the need list and its
arbitration, the pool's reports, image records and their removal. -/
namespace Sys2Proof.Machine

/-! ## Records and keys -/

/-- The image record at an index. -/
def State.image (s : State) (r : ImageIx) : Option ImageRec := s.images.images.get r

/-- Replace an image record. -/
def State.putImage (s : State) (r : ImageIx) (x : Option ImageRec) : State :=
  s.putImages { s.images with images := s.images.images.put r x }

/-- Replace a fetch table entry. -/
def State.putFetch (s : State) (f : FetchIx) (x : FetchEntry) : State :=
  s.putImages { s.images with fetches := s.images.fetches.put f x }

/-- Replace the need list. -/
def State.putNeeds (s : State) (ns : List Need) : State := s.putImages { s.images with needs := ns }

/-- Replace the outstanding-write record of node `n`. -/
def State.putWrite (s : State) (n : NodeId) (x : WriteEntry) : State :=
  s.putImages { s.images with writes := s.images.writes.put n x }

/-- The handle of an OPEN record. -/
def ImageRec.handle (r : ImageRec) : BitVec 32 :=
  match r.phase with
  | .opened h _ => h
  | .opening _ _ => 0

/-- The length of an OPEN record. -/
def ImageRec.length (r : ImageRec) : Nat :=
  match r.phase with
  | .opened _ l => l
  | .opening _ _ => 0

/-- The record is OPENING. -/
def ImageRec.isOpening (r : ImageRec) : Bool :=
  match r.phase with
  | .opening _ _ => true
  | .opened _ _ => false

/-- The key of extent `e` of an image record (R129). -/
def ImageRec.key (r : ImageRec) (e : BitVec 32) : ExtentKey := ⟨r.server, r.image, e⟩

/-- The index of the record of a server and image id (R134). -/
def State.findImage (s : State) (srv : StationIx) (img : BitVec 32) : Option ImageIx :=
  allNodes.find? (fun r =>
    match s.image r with
    | some x => x.server == srv && x.image == img
    | none => false)

/-- The lowest FREE record (R143). -/
def State.freeImage (s : State) : Option ImageIx := allNodes.find? (fun r => (s.image r).isNone)

/-- The FREE fetch entries, lowest first (R149). -/
def State.freeFetches (s : State) : List FetchIx := (indices 32).filter (fun f => (s.images.fetches.get f).live.isNone)

/-- The deadline of a timer started now with the fetch timeout (R160). -/
def State.fetchDeadline (s : State) : Nat := s.ms + s.images.timeout

/-! ## Messages (R184) -/

/-- IMAGE_OPEN. -/
def State.openFrame (s : State) (r : ImageRec) : TxFrame :=
  serverFrame (s.addressOf r.server) 0xA2 (be 4 r.image.toNat ++ flagByte r.writable)

/-- IMAGE_CLOSE. -/
def State.closeFrame (s : State) (r : ImageRec) : TxFrame :=
  serverFrame (s.addressOf r.server) 0xA5 (be 4 r.handle.toNat ++ be 4 r.image.toNat)

/-- EXTENT_READ with fetch tag (`f`, `gen`). -/
def State.readFrame (s : State) (r : ImageRec) (e : BitVec 32) (needed : Nat) (f : FetchIx) (gen : BitVec 4) : TxFrame :=
  serverFrame (s.addressOf r.server) 0xA3
    (be 4 r.handle.toNat ++ be 4 r.image.toNat ++ be 4 e.toNat ++ be 1 needed ++ be 1 f.val ++ be 1 gen.toNat)

/-- BLOCK_WRITE with write tag (`n`, `gen`). -/
def State.writeFrame (s : State) (r : ImageRec) (w : WriteOp) (n : NodeId) (gen : BitVec 4) (bytes : List Byte) : TxFrame :=
  serverFrame (s.addressOf r.server) 0xA4
    (be 4 r.handle.toNat ++ be 4 r.image.toNat ++ be 6 w.offset ++ be 2 w.count ++ be 1 n.val ++ be 1 gen.toNat ++ bytes)

/-! ## Opening (R144) -/

/-- An IMAGE_OPEN waits to be queued and a descriptor is free for it (R144). -/
def State.openReady (s : State) (r : ImageIx) : Bool :=
  match s.image r with
  | some x => (match x.phase with
    | .opening _ sent => !sent
    | .opened _ _ => false) && decide (1 ≤ s.up.outside)
  | none => false

/-- IMAGE_OPEN queued and the open-sent flag set (R144). -/
def State.sendOpen (s : State) (r : ImageIx) : State :=
  match s.image r with
  | some x =>
    match x.phase with
    | .opening d _ => (s.enqueue (s.openFrame x)).putImage r (some { x with phase := .opening d true })
    | .opened _ _ => s
  | none => s

/-! ## The need list (R148 to R150) -/

/-- The item tried first (R150): the oldest NODE item, or the oldest READ_AHEAD item when there is none. -/
def nextNeed (ns : List Need) : Option Need :=
  (ns.find? (fun x => x.kind = .node)).orElse (fun _ => ns.head?)

/-- Conditions 1 and 2 of R149 hold for an item. -/
def State.mayIssue (s : State) (x : Need) : Bool :=
  decide ((if x.kind = .node then 1 else 8) ≤ s.freeFetches.length) && decide (1 ≤ s.up.outside)

/-- An item issued on fetch entry `f` into extent entry `i` (R149). -/
def State.issue (s : State) (x : Need) (r : ImageRec) (f : FetchIx) (i : ExtentIx) : State :=
  let gen := (s.images.fetches.get f).generation + 1
  let needed := fragmentsNeeded r.length x.extent.toNat
  let live : Fetch := ⟨x.image, x.extent, needed, 0, i, false, some s.fetchDeadline⟩
  ((s.enqueue (s.readFrame r x.extent needed f gen)).putFetch f ⟨gen, some live⟩).putNeeds
    (s.images.needs.filter (fun y => ¬(y.image = x.image ∧ y.extent = x.extent)))

/-- One item tried (R149): the state after, and whether the item was issued. -/
def State.tryOne (s : State) : State × Bool :=
  match nextNeed s.images.needs with
  | none => (s, false)
  | some x =>
    match s.image x.image, s.freeFetches.head? with
    | some r, some f =>
      if s.mayIssue x then
        match s.allocate (r.key x.extent) with
        | (s', some i) => (s'.issue x r f i, true)
        | (s', none) => (s', false)
      else (s, false)
    | _, _ => (s, false)

/-- The need list tried until it is empty or an item cannot be issued (R150). -/
def State.tryLoop : Nat → State → State
  | 0, s => s
  | fuel + 1, s => if s.tryOne.2 then State.tryLoop fuel s.tryOne.1 else s.tryOne.1

/-- The need list tried (R150). It holds at most 16 items. -/
def State.tryNeeds (s : State) : State := State.tryLoop 64 s

/-- The pool's report that an allocation may now be met, if one waits (R174). -/
def State.report (s : State) : State := if s.pool.waiting then (s.putPool { s.pool with waiting := false }).tryNeeds else s

/-- Two items or a need and an item share a key. -/
def Need.sameKey (x : Need) (r : ImageIx) (e : BitVec 32) : Bool := x.image == r && x.extent == e

/-- A node added to a set of nodes. -/
def withNode (m : BitVec 8) (n : NodeId) : BitVec 8 := m ||| (1#8 <<< n.val)

/-- A node taken out of a set of nodes. -/
def withoutNode (m : BitVec 8) (n : NodeId) : BitVec 8 := m &&& ~~~(1#8 <<< n.val)

/-- The nodes of a set, in ascending order. -/
def nodesOf (m : BitVec 8) : List NodeId := allNodes.filter (fun n => m.getLsbD n.val)

/-- The need list after node `n` handed over a need (R148). -/
def needFromNode (ns : List Need) (n : NodeId) (r : ImageIx) (e : BitVec 32) : List Need :=
  match ns.find? (·.sameKey r e) with
  | none => ns ++ [⟨r, e, .node, withNode 0 n, n⟩]
  | some x =>
    match x.kind with
    | .node => ns.map (fun y => if y.sameKey r e then { y with waiting := withNode y.waiting n } else y)
    | .readAhead => ns.filter (fun y => !y.sameKey r e) ++ [{ x with kind := .node, waiting := withNode x.waiting n }]

/-- The need list after a READ_AHEAD item was raised by node `n` (R148). -/
def needReadAhead (ns : List Need) (n : NodeId) (r : ImageIx) (e : BitVec 32) : List Need :=
  ns.filter (fun y => !(y.kind == .readAhead && y.raiser == n)) ++ [⟨r, e, .readAhead, 0, n⟩]

/-- The need list after node `n` left the waiting sets (R148): an item whose set becomes empty becomes a READ_AHEAD item of
the node that raised it, at the end, and any other READ_AHEAD item of that node is removed. -/
def needsWithout (ns : List Need) (n : NodeId) : List Need :=
  match ns.find? (fun y => y.waiting.getLsbD n.val) with
  | none => ns
  | some x =>
    if withoutNode x.waiting n = 0 then
      (ns.filter (fun y => !y.sameKey x.image x.extent && !(y.kind == .readAhead && y.raiser == x.raiser)))
        ++ [{ x with kind := .readAhead, waiting := 0 }]
    else ns.map (fun y => if y.sameKey x.image x.extent then { y with waiting := withoutNode y.waiting n } else y)

/-- Node `n` no longer waits for an extent (R148). -/
def State.leaveNeeds (s : State) (n : NodeId) : State := s.putNeeds (needsWithout s.images.needs n)

/-! ## Freeing and unpinning extents (R168, R171) -/

/-- An entry freed other than by eviction, with the pool's report (R171, R174). -/
def State.freeExtent (s : State) (i : ExtentIx) : State := (s.putPool (s.pool.free i)).report

/-- The pins of an entry lowered by one. -/
def Pool.unpin (p : Pool) (i : ExtentIx) : Pool :=
  match p.extents.get i with
  | some e => p.putExtent i { e with pins := e.pins - 1 }
  | none => p

/-- An unpin (R168): when it brings a VALID entry's pins to 0, the pool reports (R174). -/
def State.unpin (s : State) (i : ExtentIx) : State :=
  match s.pool.extents.get i with
  | some e => if e.valid && e.pins ≤ 1 then (s.putPool (s.pool.unpin i)).report else s.putPool (s.pool.unpin i)
  | none => s

/-- One place marked stale (R170): a VALID entry is freed, a FILLING one flagged. -/
def State.markStale (s : State) (i : ExtentIx) : State :=
  match s.pool.extents.get i with
  | some e => if e.valid then s.freeExtent i else s.putPool (s.pool.putExtent i { e with stale := true })
  | none => s

/-- One place marked stale if its key satisfies `p`: a report after an earlier entry was freed may have filled the place anew. -/
def State.markStaleIf (p : ExtentKey → Bool) (s : State) (i : ExtentIx) : State :=
  match s.pool.extents.get i with
  | some e => if p e.key then s.markStale i else s
  | none => s

/-- Every entry whose key satisfies `p` marked stale (R170), in ascending order of their places (log entry 50). -/
def State.staleWhere (s : State) (p : ExtentKey → Bool) : State :=
  ((s.pool.used.filter (fun x => p x.2.key)).map Prod.fst).foldl (State.markStaleIf p) s

/-! ## Removal of a record (R145) -/

/-- The IMAGE_CLOSE of a removed record (R145): queued if the record is OPEN and a descriptor is free, counted unsent
otherwise. -/
def State.closeRecord (s : State) (x : ImageRec) : State :=
  if x.isOpening then s
  else if 1 ≤ s.up.outside then s.enqueue (s.closeFrame x)
  else s.putImages { s.images with unsentClose := satInc s.images.unsentClose }

/-- The fetch entries of a record (R145). -/
def State.fetchesOf (s : State) (r : ImageIx) : List FetchIx :=
  (indices 32).filter (fun f =>
    match (s.images.fetches.get f).live with
    | some l => l.image == r
    | none => false)

/-- A live fetch ended without a report: its entry is FREE with its generation kept, its target freed (R145, R153). -/
def State.dropFetch (s : State) (f : FetchIx) : State :=
  match (s.images.fetches.get f).live with
  | some l =>
    (s.putFetch f { s.images.fetches.get f with live := none }).putPool (s.pool.free l.target)
  | none => s

/-- A record removed (R145). The need list is tried when the removal is whole, if it freed a fetch entry (log entry 16). -/
def State.removeRecord (s : State) (r : ImageIx) : State :=
  match s.image r with
  | none => s
  | some x =>
    let fs := s.fetchesOf r
    let a := fs.foldl State.dropFetch (s.closeRecord x)
    let b := a.putNeeds (a.images.needs.filter (fun y => y.image ≠ r))
    let c := (b.putPool (b.pool.setOwned x.server x.image false)).putImage r none
    if fs.isEmpty then c else (c.putPool { c.pool with waiting := false }).tryNeeds

/-- Node `n` leaves a record's user mask; a record whose mask becomes empty is removed (R123, R145). -/
def State.leaveRecord (s : State) (n : NodeId) (r : ImageIx) : State :=
  match s.image r with
  | none => s
  | some x =>
    let a := s.putImage r (some { x with users := withoutNode x.users n })
    if withoutNode x.users n = 0 then a.removeRecord r else a

/-! ## Re-sends (R153, R155) -/

/-- A fetch in RETRY_WAITING and a descriptor free for its re-send (R153). -/
def State.refetchReady (s : State) (f : FetchIx) : Bool :=
  match (s.images.fetches.get f).live with
  | some l => l.timer.isNone && decide (1 ≤ s.up.outside)
  | none => false

/-- The EXTENT_READ of a live fetch queued and its timer started (R153). -/
def State.refetch (s : State) (f : FetchIx) : State :=
  match (s.images.fetches.get f).live with
  | some l =>
    match s.image l.image with
    | some r =>
      (s.enqueue (s.readFrame r l.extent l.needed f (s.images.fetches.get f).generation)).putFetch f
        { s.images.fetches.get f with live := some { l with timer := some s.fetchDeadline } }
    | none => s
  | none => s

/-- A write in SENDING or RETRY_WAITING and a descriptor free for it (R155). -/
def State.rewriteReady (s : State) (n : NodeId) : Bool :=
  match (s.images.writes.get n).live with
  | some w => (match w.phase with
    | .waiting _ => false
    | .sending => true
    | .retryWaiting => true) && decide (1 ≤ s.up.outside)
  | none => false

/-- The BLOCK_WRITE of node `n` queued and its timer started (R155). Its bytes are those of the staging buffer. -/
def State.sendWrite (s : State) (n : NodeId) : State :=
  match (s.images.writes.get n).live with
  | some w =>
    match s.image w.image with
    | some r =>
      (s.enqueue (s.writeFrame r w n (s.images.writes.get n).generation (s.ports.get n).staging)).putWrite n
        { s.images.writes.get n with live := some { w with phase := .waiting s.fetchDeadline } }
    | none => s
  | none => s

end Sys2Proof.Machine
end

