-- ==== Sys2Proof/Machine/Media.lean ====
section
/-! DEFINITION. The Media Ports (chapter 7) and what the Image Fetch Unit reports to them: block requests, delivery of extents,
writes, inserting and ejecting, failures and server loss. -/
namespace Sys2Proof.Machine

/-! ## Ending a request (R121) -/

/-- The port of node `n`. -/
def State.port (s : State) (n : NodeId) : MediaPort := s.ports.get n

/-- A BLOCK_WRITE of node `n` is outstanding (R155). -/
def State.outstanding (s : State) (n : NodeId) : Bool := (s.images.writes.get n).live.isSome

/-- The port without its active request. The bytes of an outstanding BLOCK_WRITE stay staged; others are discarded (R120,
R133). -/
def State.clearActive (s : State) (n : NodeId) : State :=
  s.putPort n { s.port n with active := none, staging := if s.outstanding n then (s.port n).staging else [] }

/-- The active request of node `n`, if any, ended: a pin is dropped, a waiting need left (R121, R148). -/
def State.dropActive (s : State) (n : NodeId) : State :=
  match (s.port n).active with
  | none => s
  | some (.read _ _ _ (.delivering i)) => (s.clearActive n).unpin i
  | some (.read _ _ _ .waiting) => (s.clearActive n).leaveNeeds n
  | some (.write _ _ _ _) => s.clearActive n

/-- The sense record of node `n` written (R121). -/
def State.putSense (s : State) (n : NodeId) (key : SenseKey) (info : Option (BitVec 32)) : State :=
  s.putPort n { s.port n with sense := ⟨key, info⟩ }

/-- What the port of node `n` gives its node. -/
def State.give (s : State) (n : NodeId) (r : UsbReply) : State := s.putPort n { s.port n with usb := r }

/-- A status given to the node and its outcome written to the sense record (R121). Key NONE is success. -/
def State.status (s : State) (n : NodeId) (key : SenseKey) (info : Option (BitVec 32)) : State :=
  (s.putSense n key info).give n (.status key)

/-- The active request of node `n` ends with a status (R121). -/
def State.endRequest (s : State) (n : NodeId) (key : SenseKey) (info : Option (BitVec 32)) : State :=
  (s.dropActive n).status n key info

/-- The active request, if any, ends NOT_READY because the medium is ejected (R121, R136). -/
def State.endNotReady (s : State) (n : NodeId) : State :=
  if (s.port n).active.isSome then s.endRequest n .notReady none else s

/-- The port of node `n` takes a new block request now (R121). -/
def State.takesRequest (s : State) (n : NodeId) : Bool := (s.port n).attached && (s.port n).active.isNone

/-! ## Attachment of the port (R120, R139) -/

/-- The port of node `n` changes to DETACHED (R120). -/
def State.portDetach (s : State) (n : NodeId) : State :=
  let a := s.dropActive n
  a.putPort n { a.port n with
    attached := false, lock := false, sense := ⟨.none, none⟩, bootFirst := false, usb := .nothing,
    staging := if a.outstanding n then (a.port n).staging else [] }

/-- The port of node `n` changes to ATTACHED (R120). The boot-first indication that its grant left is set and used up (R139). -/
def State.portAttach (s : State) (n : NodeId) : State :=
  s.putPort n { s.port n with
    attached := true, lock := false, sense := ⟨.none, none⟩, active := none, usb := .nothing,
    bootFirst := (s.port n).grantBoot, grantBoot := false }

/-- The port state brought in line with permission and bus power (R120). -/
def State.portUpdate (s : State) (n : NodeId) : State :=
  let want := (s.power.get n).granted && (s.port n).busPower
  if want && !(s.port n).attached then s.portAttach n
  else if !want && (s.port n).attached then s.portDetach n
  else s

/-! ## Ejecting (R136 to R138) -/

/-- The medium of node `n` entered EMPTY, the node out of its image record's mask (R123). -/
def State.emptyMedium (s : State) (n : NodeId) (lock changed : Bool) : State :=
  let a := s.putPort n { s.port n with medium := .empty, lock := lock, changed := changed, bootFirst := false, grantBoot := false }
  match (s.port n).medium.ref? with
  | some m => a.leaveRecord n m.image
  | none => a

/-- An ejected medium enters EMPTY under R136. -/
def State.finishEject (s : State) (n : NodeId) (cause : EjectCause) : State :=
  (s.emptyMedium n false true).raise (some n) (.mediumEjected cause)

/-- A taken unforced eject, or the node's own (R136). The active request ends first: the unpin of a READ that delivers, with the
pool's report and its try of the need list (R168, R174), comes before the node leaves the mask and the record is removed (R145). No
rule orders the two: a DESIGN CHOICE (log entry 61). -/
def State.eject (s : State) (n : NodeId) (cause : EjectCause) : State :=
  let a := s.endNotReady n
  match (a.port n).medium with
  | .present m b =>
    if a.outstanding n then a.putPort n { a.port n with medium := .ejecting m b cause, bootFirst := false, grantBoot := false }
    else a.finishEject n cause
  | .loading _ => a.finishEject n cause
  | .empty => a
  | .ejecting _ _ _ => a

/-- An outstanding write abandoned: its record is NONE with the generation kept, its staged bytes freed (R133, R157). -/
def State.abandonWrite (s : State) (n : NodeId) : State :=
  if s.outstanding n then
    (s.putWrite n { s.images.writes.get n with live := none }).putPort n { s.port n with staging := [] }
  else s

/-- A forced eject by the part for a lost server (R138). The active request ends before the node leaves the mask, as in
`State.eject`: a DESIGN CHOICE (log entry 61). -/
def State.forceEjectLost (s : State) (n : NodeId) : State :=
  match (s.port n).medium.ref? with
  | none => s
  | some m =>
    let e : Event := match s.image m.image with
      | some r => .serverLost r.server r.image
      | none => .serverLost 0 0
    ((((s.endNotReady n).abandonWrite n).emptyMedium n false true)).raise (some n) e

/-- A Media Port's share of a handover (R138, R140). The active request ends before the node leaves the mask, as in `State.eject`: a
DESIGN CHOICE (log entry 61). -/
def State.handoverPort (s : State) (n : NodeId) : State :=
  match (s.port n).medium.ref? with
  | none =>
    let a := (s.endNotReady n).abandonWrite n
    a.putPort n { a.port n with changed := false, lock := false }
  | some _ => ((s.endNotReady n).abandonWrite n).emptyMedium n false false

/-! ## Reading (R128 to R130) -/

/-- The byte position of a READ in its image (R127). -/
def readPos (size : BlockSize) (lba delivered : Nat) : Nat := lba * size.bytes + delivered

/-- The extent a READ works on now (R127, R129). -/
def readExtent (size : BlockSize) (lba delivered : Nat) : Nat := readPos size lba delivered / 4096

/-- The key a READ of a medium asks for (R129). -/
def State.readKey (s : State) (m : MediumRef) (lba delivered : Nat) : Option ExtentKey :=
  (s.image m.image).map (fun r => r.key (BitVec.ofNat 32 (readExtent m.size lba delivered)))

/-- The extent a waiting READ of node `n` waits for (R130). -/
def State.waitsFor (s : State) (n : NodeId) : Option ExtentKey :=
  match (s.port n).active, (s.port n).medium.ref? with
  | some (.read lba _ delivered .waiting), some m => s.readKey m lba delivered
  | _, _ => none

/-- The nodes whose active READ waits for a key (R130). -/
def State.waiters (s : State) (k : ExtentKey) : List NodeId := allNodes.filter (fun n => s.waitsFor n == some k)

/-- The active READ of node `n` put in a phase. -/
def State.putRead (s : State) (n : NodeId) (lba count delivered : Nat) (ph : ReadPhase) : State :=
  s.putPort n { s.port n with active := some (.read lba count delivered ph) }

/-- A pin for delivery (R168): the pin count rises and the entry moves to the most recently used end. -/
def State.pin (s : State) (i : ExtentIx) : State :=
  match s.pool.extents.get i with
  | some e => s.putPool ((s.pool.putExtent i { e with pins := e.pins + 1 }).touch i)
  | none => s

/-- A need of node `n` handed over (R129, R148). The list is tried where an item is added or becomes NODE, and not where the node
joins a NODE item (R150). -/
def State.handNeed (s : State) (n : NodeId) (r : ImageIx) (e : BitVec 32) : State :=
  let a := s.putNeeds (needFromNode s.images.needs n r e)
  if s.images.needs.any (fun y => y.sameKey r e && y.kind == .node) then a else a.tryNeeds

/-- The READ of node `n` turns to its next extent (R129), or ends when it has delivered all its bytes (R128). -/
def State.advanceRead (s : State) (n : NodeId) : State :=
  match (s.port n).active, (s.port n).medium.ref? with
  | some (.read lba count delivered _), some m =>
    if count * m.size.bytes ≤ delivered then
      ((s.putPort n { s.port n with active := none }).putSense n .none none)
    else
      match s.readKey m lba delivered with
      | none => s
      | some k =>
        match s.pool.lookup k with
        | some (i, e) =>
          if e.valid then (s.putRead n lba count delivered (.delivering i)).pin i
          else s.putRead n lba count delivered .waiting
        | none => (s.putRead n lba count delivered .waiting).handNeed n m.image k.extent
  | _, _ => s

/-- Byte `j` of an extent; the bytes a fill has not written read as zero (R127, R152). -/
def Extent.byteOf (e : Extent) (j : Nat) : Byte := (e.frags.getD (j / 1024) []).getD (j % 1024) 0

/-- `k` bytes of an extent from position `j`. -/
def Extent.bytes (e : Extent) (j k : Nat) : List Byte := (List.range k).map (fun x => e.byteOf (j + x))

/-- Read-ahead decided at a report that extent `e` was delivered to node `n` (R154). -/
def State.readAhead (s : State) (n : NodeId) (r : ImageIx) (e : Nat) : State :=
  match s.image r with
  | none => s
  | some x =>
    let next := BitVec.ofNat 32 (e + 1)
    let live := (indices 32).any (fun f =>
      match (s.images.fetches.get f).live with
      | some l => l.image == r && l.extent == next
      | none => false)
    if (s.port n).readAhead && decide (e + 1 < imageExtents x.length) && (s.pool.lookup (x.key next)).isNone && !live
        && !s.images.needs.any (·.sameKey r next) && decide (8 ≤ s.freeFetches.length) then
      (s.putNeeds (needReadAhead s.images.needs n r next)).tryNeeds
    else s

/-- The bytes a poll with room for `room` takes from the pinned extent (R127, R129): how many, for a READ that has delivered
`delivered` bytes. -/
def pollSize (size : BlockSize) (lba count delivered room : Nat) : Nat :=
  min room (min (count * size.bytes - delivered) (4096 - readPos size lba delivered % 4096))

/-- A poll of the data phase of a READ that is delivering from place `i` (R129): bytes are taken; when the last byte the
request uses from the extent is taken, the entry is unpinned, a whole extent reported (R154), and the next extent turned
to. -/
def State.pollRead (s : State) (n : NodeId) (m : MediumRef) (lba count delivered room : Nat) (i : ExtentIx) (e : Extent) : State :=
  let k := pollSize m.size lba count delivered room
  let pos := readPos m.size lba delivered
  let done := decide (count * m.size.bytes ≤ delivered + k)
  let a := (s.putRead n lba count (delivered + k) (.delivering i)).give n (.data (e.bytes (pos % 4096) k) done)
  if (pos + k) % 4096 = 0 ∧ 0 < k then ((a.unpin i).readAhead n m.image (pos / 4096)).advanceRead n
  else if done then (a.unpin i).advanceRead n
  else a

/-- A poll of the data phase (R122, R129). -/
def State.poll (s : State) (n : NodeId) (room : Nat) : State :=
  match (s.port n).active, (s.port n).medium.ref? with
  | some (.read _ _ _ .waiting), some _ => s.give n .notYet
  | some (.read lba count delivered (.delivering i)), some m =>
    match s.pool.extents.get i with
    | some e => s.pollRead n m lba count delivered room i e
    | none => s
  | some (.write _ _ _ _), some _ => s.give n (if s.outstanding n then .notYet else .accept)
  | _, _ => s

/-- A READ decided (R128). -/
def State.decideRead (s : State) (n : NodeId) (lba count : Nat) : State :=
  match (s.port n).medium with
  | .present m blocks =>
    if count = 0 then s.status n .none none
    else if blocks < lba + count then s.status n .outOfRange (some (BitVec.ofNat 32 lba))
    else
      let a := (s.putRead n lba count 0 .waiting).give n .notYet
      match (a.readKey m lba 0).bind a.pool.lookup with
      | some (_, e) => if e.valid then (a.give n .accept).advanceRead n else a.advanceRead n
      | none => a.advanceRead n
  | .empty => s.status n .notReady none
  | .loading _ => s.status n .notReady none
  | .ejecting _ _ _ => s.status n .notReady none

/-! ## Writing (R131 to R133) -/

/-- The extents that `bytes` bytes at `offset` overlap (R132). -/
def overlaps (offset bytes : Nat) (e : BitVec 32) : Bool :=
  decide (offset / 4096 ≤ e.toNat) && decide (e.toNat ≤ (offset + bytes - 1) / 4096)

/-- The staged bytes of node `n` handed over as one BLOCK_WRITE (R131, R132, R155). -/
def State.handWrite (s : State) (n : NodeId) (m : MediumRef) (lba count handed : Nat) : State :=
  let bytes := (s.port n).staging.length
  let offset := (lba + handed) * 512
  let a := match s.image m.image with
    | some r => s.staleWhere (fun k => k.server == r.server && k.image == r.image && overlaps offset bytes k.extent)
    | none => s
  let gen := (a.images.writes.get n).generation + 1
  let b := (a.putWrite n ⟨gen, some ⟨m.image, offset, bytes, false, .sending⟩⟩).putPort n
    { a.port n with active := some (.write lba count (handed + bytes / 512) true) }
  if b.rewriteReady n then b.sendWrite n else b

/-- The bytes the port stages before it hands over: two blocks, or the last block of an odd request alone (R131). -/
def stageTarget (count handed : Nat) : Nat := min 1024 ((count - handed) * 512)

/-- Write data offered by the node (R131): taken into the staging buffer up to what the next BLOCK_WRITE needs, answered
not-yet while one is outstanding. -/
def State.writeData (s : State) (n : NodeId) (data : List Byte) : State :=
  match (s.port n).active, (s.port n).medium.ref? with
  | some (.write lba count handed _), some m =>
    if s.outstanding n then s.give n .notYet
    else
      let target := stageTarget count handed
      let staged := ((s.port n).staging ++ data).take target
      let a := (s.putPort n { s.port n with staging := staged }).give n .accept
      if staged.length = target then a.handWrite n m lba count handed else a
  | _, _ => s

/-- A WRITE decided (R131). -/
def State.decideWrite (s : State) (n : NodeId) (lba count : Nat) : State :=
  match (s.port n).medium with
  | .present m blocks =>
    if !m.writable then s.status n .writeProtected (some (BitVec.ofNat 32 lba))
    else if count = 0 then s.status n .none none
    else if blocks < lba + count then s.status n .outOfRange (some (BitVec.ofNat 32 lba))
    else (s.putPort n { s.port n with active := some (.write lba count 0 false) }).give n
      (if s.outstanding n then .notYet else .accept)
  | .empty => s.status n .notReady none
  | .loading _ => s.status n .notReady none
  | .ejecting _ _ _ => s.status n .notReady none

/-- The outcome of node `n`'s BLOCK_WRITE at its port (R132, R133, R136). The write record is already NONE. -/
def State.writeEnded (s : State) (n : NodeId) (w : WriteOp) (ok : Bool) : State :=
  let a := s.putPort n { s.port n with staging := [] }
  match (a.port n).medium with
  | .ejecting _ _ cause => a.finishEject n cause
  | .empty => a
  | .loading _ => a
  | .present _ _ =>
    match (a.port n).active with
    | some (.write lba count handed true) =>
      if ok then
        if count ≤ handed then a.endRequest n .none none
        else (a.putPort n { a.port n with active := some (.write lba count handed false) }).give n .accept
      else a.endRequest n .mediumError (some (BitVec.ofNat 32 (w.offset / 512)))
    | _ => a

/-! ## Failures and server loss (R158) -/

/-- A failure counted on a record that still exists (R158); the third in a row loses the server. -/
def State.countFailure (s : State) (r : ImageIx) : State :=
  match s.image r with
  | none => s
  | some x =>
    let a := s.putImage r (some { x with failures := x.failures + 1 })
    if 3 ≤ x.failures + 1 then (nodesOf x.users).foldl State.forceEjectLost a else a

/-- The failure count of a record made 0 (R152, R156). -/
def State.clearFailures (s : State) (r : ImageIx) : State :=
  match s.image r with
  | none => s
  | some x => s.putImage r (some { x with failures := 0 })

/-- Node `n`'s outstanding write ends with an outcome (R156). -/
def State.endWrite (s : State) (n : NodeId) (w : WriteOp) (ok : Bool) : State :=
  let a := (s.putWrite n { s.images.writes.get n with live := none }).writeEnded n w ok
  if ok then a.clearFailures w.image else a.countFailure w.image

/-! ## Fills (R151 to R153) -/

/-- Fragment `i` written into an extent, the rest of the fragment zero (R151). -/
def Extent.writeFrag (e : Extent) (i : Nat) (data : List Byte) : Extent :=
  { e with frags := e.frags.set i (data ++ List.replicate (1024 - data.length) 0) }

/-- Every byte of extent `k` at or beyond image length `l` zero (R152). -/
def Extent.zeroTail (e : Extent) (k l : Nat) : Extent :=
  let keep := l - 4096 * k
  { e with frags := (List.range 4).map (fun i =>
      let f := (e.frags.getD i []).take (keep - 1024 * i)
      f ++ List.replicate (1024 - f.length) 0) }

/-- The pool told that a fill completed on an entry that is not stale: it is VALID and most recently used (R152, R168). -/
def Pool.complete (p : Pool) (i : ExtentIx) (e : Extent) : Pool := (p.putExtent i { e with valid := true }).touch i

/-- The report "filled" to a waiting node (R130). -/
def State.filled (s : State) (i : ExtentIx) (n : NodeId) : State :=
  match (s.port n).active with
  | some (.read lba count delivered _) => ((s.putRead n lba count delivered (.delivering i)).pin i).give n .accept
  | _ => s

/-- The report "fetch failed" to a waiting node (R130): its READ fails with the first block not received. -/
def State.fetchFailed (s : State) (n : NodeId) : State :=
  match (s.port n).active, (s.port n).medium.ref? with
  | some (.read lba _ delivered _), some m =>
    s.endRequest n .mediumError (some (BitVec.ofNat 32 (lba + delivered / m.size.bytes)))
  | _, _ => s

/-- A completed fill (R152) of fetch `l` in entry `f`, whose target holds `e`. On a stale entry the waiting READs look up again before
the try of the pool's report (R171, R174; DESIGN CHOICE, log entry 55). -/
def State.completeFill (s : State) (f : FetchIx) (l : Fetch) (x : ImageRec) (e : Extent) : State :=
  let k := x.key l.extent
  let nodes := s.waiters k
  let a := (s.putFetch f { s.images.fetches.get f with live := none }).clearFailures l.image
  if e.stale then
    let b := nodes.foldl State.advanceRead (a.putPool (a.pool.free l.target))
    (b.putPool { b.pool with waiting := false }).tryNeeds
  else
    let b := a.putPool (a.pool.complete l.target (e.zeroTail l.extent.toNat x.length))
    ((nodes.foldl (fun c n => c.filled l.target n) b).unpin l.target).tryNeeds

/-- An EXTENT_DATA fragment taken (R151). -/
def State.takeFragment (s : State) (f : FetchIx) (l : Fetch) (x : ImageRec) (i : Nat) (data : List Byte) : State :=
  if l.received.getLsbD i then s
  else
    match s.pool.extents.get l.target with
    | none => s
    | some e =>
      let got := l.received ||| (1#4 <<< i)
      let e' := e.writeFrag i data
      let a := (s.putFetch f { s.images.fetches.get f with live := some { l with received := got } }).putPool
        (s.pool.putExtent l.target e')
      if (List.range l.needed).all got.getLsbD then a.completeFill f l x e' else a

/-- A fetch that fails at its second expiry (R153). The try of the pool's report (R171, R174) comes once, after the fetch entry is FREE
and the waiting READs have failed, so a need may take that entry (DESIGN CHOICE, log entry 57). -/
def State.failFetch (s : State) (f : FetchIx) (l : Fetch) : State :=
  match s.image l.image with
  | none => s.dropFetch f
  | some x =>
    let nodes := s.waiters (x.key l.extent)
    let a := nodes.foldl State.fetchFailed (s.dropFetch f)
    let b := (a.putPool { a.pool with waiting := false }).tryNeeds
    b.countFailure l.image

/-! ## Inserting (R134, R135) -/

/-- A medium that refers to record `r` enters PRESENT (R135). -/
def State.present (s : State) (n : NodeId) (m : MediumRef) (length : Nat) : State :=
  (s.putPort n { s.port n with medium := .present m (blockCount length m.size), changed := true }).raise (some n) .mediumInserted

/-- A failed insert: the medium enters EMPTY, changed-pending and lock kept (R135). -/
def State.insertFailed (s : State) (n : NodeId) (tooLarge : Bool) : State :=
  (s.emptyMedium n (s.port n).lock (s.port n).changed).raise (some n) (.insertFailed tooLarge)

/-- The report "opened" to the port of node `n` (R135). -/
def State.opened (s : State) (r : ImageIx) (length : Nat) (n : NodeId) : State :=
  match (s.port n).medium with
  | .loading m =>
    if m.image = r then
      if maxBlocks < blockCount length m.size then s.insertFailed n true else s.present n m length
    else s
  | .empty => s
  | .present _ _ => s
  | .ejecting _ _ _ => s

/-- The report "failed" to the port of node `n` (R135). -/
def State.openFailed (s : State) (r : ImageIx) (n : NodeId) : State :=
  match (s.port n).medium with
  | .loading m => if m.image = r then s.insertFailed n false else s
  | .empty => s
  | .present _ _ => s
  | .ejecting _ _ _ => s

/-- An OPEN_REPLY taken (R144). -/
def State.takeOpen (s : State) (r : ImageIx) (x : ImageRec) (handle : BitVec 32) (length : Nat) : State :=
  (nodesOf x.users).foldl (fun a n => a.opened r length n)
    (s.putImage r (some { x with phase := .opened handle length }))

/-- The user mask of record `r` with node `n` joined, and node `n`'s medium referring to it. -/
def State.joinRecord (s : State) (n : NodeId) (r : ImageIx) (x : ImageRec) (m : Medium) : State :=
  (s.putImage r (some { x with users := withNode x.users n })).putPort n { s.port n with medium := m }

/-- A MEDIA_INSERT decided (R134) and, if taken, carried out (R135). -/
def State.insert (s : State) (n : NodeId) (srv : StationIx) (img : BitVec 32) (size : BlockSize) (writable : Bool) :
    State × Result :=
  if (s.port n).medium ≠ .empty then (s, .wrongState)
  else if !s.mayServe srv n then (s, .notPermitted)
  else
    match s.findImage srv img with
    | some r =>
      match s.image r with
      | none => (s, .full)
      | some x =>
        if x.writable || writable then (s, .inUse)
        else if !x.isOpening && decide (maxBlocks < blockCount x.length size) then (s, .tooLarge)
        else
          let m : MediumRef := ⟨r, size, writable⟩
          if x.isOpening then (s.joinRecord n r x (.loading m), .ok)
          else ((s.joinRecord n r x (.loading m)).present n m x.length, .ok)
    | none =>
      match s.freeImage with
      | none => (s, .full)
      | some r =>
        let x : ImageRec := ⟨srv, img, writable, 0, 0, .opening (s.ms + 2000) false⟩
        let a := (s.joinRecord n r x (.loading ⟨r, size, writable⟩))
        let b := a.putPool (a.pool.setOwned srv img true)
        (if b.openReady r then b.sendOpen r else b, .ok)

/-- A MEDIA_EJECT decided (R136). -/
def State.stationEject (s : State) (n : NodeId) (i : StationIx) (force : Bool) : State × Result :=
  match (s.port n).medium with
  | .empty => (s, .noEffect)
  | .ejecting _ _ _ => (s, .noEffect)
  | .loading _ => if (s.port n).lock && !force then (s, .locked) else (s.eject n (.station i force), .ok)
  | .present _ _ => if (s.port n).lock && !force then (s, .locked) else (s.eject n (.station i force), .ok)

/-- A pattern's EJECT_MEDIA (R80). -/
def State.patternEject (s : State) (n : NodeId) (p : PatternIx) : State :=
  match (s.port n).medium with
  | .empty => s
  | .ejecting _ _ _ => s
  | .loading _ => if (s.port n).lock then s.raise (some n) (.ejectRefused p) else s.eject n (.pattern p)
  | .present _ _ => if (s.port n).lock then s.raise (some n) (.ejectRefused p) else s.eject n (.pattern p)

/-- The node's EJECT_BY_NODE (R137). -/
def State.nodeEject (s : State) (n : NodeId) : State :=
  match (s.port n).medium with
  | .empty => s.status n .notReady none
  | .ejecting _ _ _ => s.status n .none none
  | .loading _ => (s.eject n .node).status n .none none
  | .present _ _ => (s.eject n .node).status n .none none

end Sys2Proof.Machine
end

