-- ==== Sys2Proof/Machine/Sequencer.lean ====
section
/-! DEFINITION. The Power Sequencer (chapters 5 and 6): the PGOOD filter, the power states and actions, reboot marks, port
permission, and the boot watch with its escalation. -/
namespace Sys2Proof.Machine

/-! ## Lines (R84) -/

/-- The power record of node `n`. -/
def State.pw (s : State) (n : NodeId) : Power := s.power.get n

/-- The boot-watch record of node `n`. -/
def State.wt (s : State) (n : NodeId) : Watch := s.watches.get n

/-- The level on PWRBTN (R84): `true` is high. -/
def Power.buttonLevel (p : Power) : Bool := p.button == p.settings.btnHigh

/-- The level on RST (R84): `true` is high. -/
def Power.resetLevel (p : Power) : Bool := p.reset == p.settings.rstHigh

/-- The read level of PGOOD through its polarity (R85). -/
def Power.read (p : Power) : Filtered := if p.raw == p.settings.pgoodHigh then .active else .inactive

/-! ## The boot watch's start and stop (R109, R110) -/

/-- The watch stopped without being satisfied (R110). -/
def Watch.stop (w : Watch) : Watch := if w.state = .watching then { w with state := .idle, timer := none } else w

/-- The watch started at tick `ms`, unless it is off or held (R109). -/
def Watch.start (w : Watch) (ms : Nat) : Watch :=
  if w.timeS = 0 ∨ w.state = .held then w else { w with state := .watching, timer := some (ms + w.timeS * 1000) }

/-- The watch of node `n` stopped (R110). -/
def State.stopWatch (s : State) (n : NodeId) : State := s.putWatch n (s.wt n).stop

/-- An action has origin WATCH. -/
def Action.byWatch (a : Action) : Bool :=
  match a.origin with
  | .watch => true
  | .station _ => false
  | .escape _ => false

/-- The entry to ON from a state starts the watch (R109), given local start and the action in flight as the entry was made. -/
def entryStarts (from_ : PowerState) (localStart : Bool) (a : Option Action) : Bool :=
  let own := match a with
    | some x => x.byWatch
    | none => false
  match from_ with
  | .starting => true
  | .resetting => true
  | .off => localStart
  | .dwelling => own || localStart
  | .hardStopping => own && (match a with
    | some x => x.kind == .cycle
    | none => false)
  | .softStopping => false
  | .unknown => false
  | .on => false

/-! ## Reboot marks (R95) -/

/-- The receiver QUIET, its wait running from now where RXD is high (R31). -/
def Line.toQuiet (l : Line) (now : Nat) : Line :=
  { l with receiver := .quiet (if l.rxd then some (now + l.charTime) else none) }

/-- A line returned to primary (R42); the transmitter and its queue go on. -/
def Line.toPrimary (l : Line) (now : Nat) : Line :=
  ({ l with
    candidate := 0, hunting := false, errors := 0, goodRun := 0, laps := 0, discard := 0, noisy := false,
    suspended := false } : Line).toQuiet now

/-- A node reboot mark: the three orders of R95, which gives them no order. The mark is offered first, so the flush timer is reloaded
by the character time from before the return to primary (DESIGN CHOICE, log entry 53). -/
def State.rebootMark (s : State) (n : NodeId) : State :=
  let a := s.offerMark n .reboot
  let b := a.putLine n ((a.lines.get n).toPrimary a.now)
  b.putMatcher (b.matcher.rebootOrder n)

/-! ## Port permission (R96, R97) -/

/-- Permission DENIED, the reattach timer stopped (R96), and the Media Port told. -/
def State.deny (s : State) (n : NodeId) : State :=
  let a := s.putPower n { s.pw n with granted := false, reattach := none, armed := false }
  (a.putPort n { a.port n with grantBoot := false }).portUpdate n

/-- The reattach timer started for 500 ms on an entry to ON, if the permission is DENIED (R96). `armed` tells that the action
that ended here asks for a boot-first grant (R97). -/
def State.startReattach (s : State) (n : NodeId) (armed : Bool) : State :=
  if (s.pw n).granted then s
  else s.putPower n { s.pw n with reattach := some (s.ms + 500), armed := armed }

/-- The reattach timer expired: permission GRANTED, with the indication if the timer was armed and the medium is PRESENT now (R96,
R97, R139). -/
def State.grantPort (s : State) (n : NodeId) : State :=
  let armed := (s.pw n).armed
  let a := s.putPower n { s.pw n with granted := true, reattach := none, armed := false }
  (a.putPort n { a.port n with grantBoot := armed && (a.port n).medium.isPresent, bootFirst := false }).portUpdate n

/-! ## Entries to the resting states -/

/-- The action in flight asks for TO_MEDIA (R97). -/
def Power.toMedia (p : Power) : Bool :=
  match p.action with
  | some a => a.toMedia
  | none => false

/-- Entry to ON with its event, reattach timer and watch (R96, R98, R109). `mark` gives a reboot mark; `keep` tells that the
entry does not lose a boot-first indication (R97). -/
def State.enterOn (s : State) (n : NodeId) (ev : PowerEvent) (mark keep : Bool) : State :=
  let p := s.pw n
  let a := s.putPower n { p with
    state := .on, action := none, phase := none, tick := none, button := false, reset := false }
  let b := a.raise (some n) (.power ev .on p.action)
  let c := if mark then b.rebootMark n else b
  let d := c.startReattach n (keep && p.toMedia)
  if entryStarts p.state (d.wt n).localStart p.action then d.putWatch n ((d.wt n).start d.ms) else d

/-- Entry to OFF with its event (R96, R98, R110). -/
def State.enterOff (s : State) (n : NodeId) (ev : PowerEvent) (act : Option Action) : State :=
  let a := s.putPower n { s.pw n with
    state := .off, action := none, phase := none, tick := none, button := false, reset := false }
  ((a.raise (some n) (.power ev .off act)).deny n).stopWatch n

/-! ## Availability (R88) -/

/-- What the availability table gives an action. -/
inductive Availability where
  | taken
  | preempts
  | refused (r : Result)
  deriving DecidableEq, Repr

/-- The availability table of R88. -/
def availability (a : ActionKind) (st : PowerState) : Availability :=
  match a, st with
  | _, .unknown => .refused .busy
  | .powerOn, .off => .taken
  | .powerOn, .on => .refused .noEffect
  | .softOff, .off => .refused .noEffect
  | .softOff, .on => .taken
  | .hardOff, .off => .refused .noEffect
  | .hardOff, .on => .taken
  | .hardOff, .starting => .preempts
  | .hardOff, .softStopping => .preempts
  | .hardOff, .hardStopping => .refused .noEffect
  | .hardOff, .resetting => .preempts
  | .hardOff, .dwelling => .preempts
  | .reset, .off => .refused .wrongState
  | .reset, .on => .taken
  | .cycle, .off => .refused .wrongState
  | .cycle, .on => .taken
  | _, _ => .refused .busy

/-! ## Beginning an action (R89 to R93) -/

/-- STARTING entered: PWRBTN pressed for the press width (R90). -/
def State.beginStarting (s : State) (n : NodeId) (a : Option Action) : State :=
  s.putPower n { s.pw n with
    state := .starting, action := a, tick := none, button := true, reset := false,
    phase := some (s.ms + (s.pw n).settings.pressMs) }

/-- HARD_STOPPING entered with PWRBTN held (R92). -/
def State.beginHardStop (s : State) (n : NodeId) (a : Option Action) : State :=
  (s.putPower n { s.pw n with
    state := .hardStopping, action := a, tick := none, button := true, reset := false,
    phase := some (s.ms + (s.pw n).settings.holdS * 1000) }).deny n

/-- A HARD_OFF preempts the action in flight (R89). Where OFF follows, the released tick of PWRBTN is not kept: a POWER_ON taken in the
same ms presses it at once (DESIGN CHOICE, log entry 54). -/
def State.preempt (s : State) (n : NodeId) (a : Action) : State :=
  let p := s.pw n
  let act : Action := { a with preempted := p.action.map Action.kind }
  if p.filtered = .active then
    if p.button then
      (s.putPower n { p with
        state := .hardStopping, action := some act, phase := none, tick := some (s.ms + 1), button := false,
        reset := false }).deny n
    else s.beginHardStop n (some act)
  else s.enterOff n .hardOffDone (some act)

/-- A taken action begins (R90 to R93). -/
def State.beginAction (s : State) (n : NodeId) (a : Action) : State :=
  match a.kind with
  | .powerOn => s.beginStarting n (some a)
  | .softOff => s.putPower n { s.pw n with
      state := .softStopping, action := some a, tick := none, button := true, reset := false,
      phase := some (s.ms + (s.pw n).settings.pressMs) }
  | .hardOff => s.beginHardStop n (some a)
  | .reset =>
    let b := s.rebootMark n
    (b.putPower n { b.pw n with
      state := .resetting, action := some a, tick := none, button := false, reset := true,
      phase := some (b.ms + (b.pw n).settings.resetMs) }).deny n
  | .cycle => (s.rebootMark n).beginHardStop n (some a)

/-- The watch told of a taken action (R99, R110): a station's or an escape's stops it. -/
def State.tellTaken (s : State) (n : NodeId) (a : Action) : State := if a.byWatch then s else s.stopWatch n

/-- The medium test of a RESET or CYCLE with TO_MEDIA (R88). -/
def State.lacksMedium (s : State) (n : NodeId) (a : Action) : Bool := a.toMedia && !(s.port n).medium.isPresent

/-- An action offered to the sequencer (R88, R89). -/
def State.offerAction (s : State) (n : NodeId) (a : Action) : State × Result :=
  match availability a.kind (s.pw n).state with
  | .taken => if s.lacksMedium n a then (s, .noMedium) else ((s.tellTaken n a).beginAction n a, .ok)
  | .preempts => ((s.tellTaken n a).preempt n a, .ok)
  | .refused r => (s, r)

/-! ## Timers of the phases (R89 to R93) -/

/-- The press width expires (R90, R91). -/
def State.pressEnds (s : State) (n : NodeId) : State :=
  let p := s.pw n
  let wait := if p.state = .softStopping then p.settings.softTimeoutS else p.settings.onTimeoutS
  s.putPower n { p with button := false, phase := some (s.ms + wait * 1000) }

/-- The released tick ends (R89): PWRBTN is asserted for the hold width. -/
def State.tickEnds (s : State) (n : NodeId) : State :=
  s.putPower n { s.pw n with button := true, tick := none, phase := some (s.ms + (s.pw n).settings.holdS * 1000) }

/-- The node enters DWELLING (R92, R93). -/
def State.beginDwell (s : State) (n : NodeId) : State :=
  s.putPower n { s.pw n with
    state := .dwelling, button := false, tick := none, phase := some (s.ms + (s.pw n).settings.dwellS * 1000) }

/-! ## Filtered changes (R87, R90 to R94) -/

/-- The action in flight is a CYCLE. -/
def Power.cycling (p : Power) : Bool :=
  match p.action with
  | some a => a.kind == .cycle
  | none => false

/-- A filtered rise delivered (R90, R93, R94). -/
def State.filteredRise (s : State) (n : NodeId) : State :=
  match (s.pw n).state with
  | .starting => s.enterOn n .onDone true true
  | .dwelling => s.enterOn n .cycleInterrupted true true
  | .off => s.enterOn n .startedLocally true false
  | .on => s
  | .unknown => s
  | .softStopping => s
  | .hardStopping => s
  | .resetting => s

/-- A filtered fall delivered (R91 to R94). -/
def State.filteredFall (s : State) (n : NodeId) : State :=
  match (s.pw n).state with
  | .on => s.enterOff n .lost none
  | .softStopping => s.enterOff n .softOffDone (s.pw n).action
  | .hardStopping => if (s.pw n).cycling then s.beginDwell n else s.enterOff n .hardOffDone (s.pw n).action
  | .resetting => s.enterOff n .lost (s.pw n).action
  | .off => s
  | .unknown => s
  | .starting => s
  | .dwelling => s

/-- An acquired level delivered (R87). -/
def State.acquired (s : State) (n : NodeId) (level : Filtered) : State :=
  if (s.pw n).state = .unknown then
    if level = .active then s.enterOn n .acquired false false else s.enterOff n .acquired none
  else s

/-- The wait timer expires: the filtered level becomes the read level and is delivered (R85). -/
def State.filterDelivers (s : State) (n : NodeId) : State :=
  let p := s.pw n
  let a := s.putPower n { p with filtered := p.read, wait := none }
  if p.filtered = .unacquired then a.acquired n p.read
  else if p.read = .active then a.filteredRise n
  else a.filteredFall n

/-- The filter's wait timer after a possible change of the read level (R85); `changed` tells that the read level changed. -/
def Power.rewait (p : Power) (ms : Nat) (changed : Bool) : Power :=
  if !changed then p
  else if p.filtered = .unacquired then { p with wait := some (ms + p.settings.filterMs) }
  else if p.read = p.filtered then { p with wait := none }
  else { p with wait := some (ms + p.settings.filterMs) }

/-! ## Settings (R100) -/

/-- The states in which a NODE_POWER write is refused BUSY (R100). -/
def PowerState.acting : PowerState → Bool
  | .starting => true
  | .softStopping => true
  | .hardStopping => true
  | .resetting => true
  | .dwelling => true
  | .unknown => false
  | .off => false
  | .on => false

/-- New power settings taken (R85, R100, R103). `loading` tells that the load after power-on reset applies them, where a
changed filter time also restarts an acquisition. -/
def Power.setSettings (p : Power) (t : PowerSettings) (ms : Nat) (loading : Bool) : Power :=
  let flip := p.settings.pgoodHigh != t.pgoodHigh
  let q : Power := { p with settings := t }
  if loading && p.filtered == .unacquired && p.settings.filterMs != t.filterMs then q.rewait ms true else q.rewait ms flip

/-! ## Satisfaction and failure of the watch (R108, R111 to R116) -/

/-- The watch satisfied (R111). -/
def Watch.satisfied (w : Watch) : Watch := { w with state := .idle, timer := none, count := 0 }

/-- The watch of node `n` satisfied, with its event (R111, R112). -/
def State.satisfy (s : State) (n : NodeId) (src : BootSource) : State :=
  (s.putWatch n (s.wt n).satisfied).raise (some n) (.bootConfirmed 0 src)

/-- A boot-seen report (R111). -/
def State.bootSeen (s : State) (n : NodeId) (p : PatternIx) (off : Offset) : State :=
  if (s.wt n).state = .watching then s.satisfy n (.pattern p off) else s

/-- The watch brought to a hold (R114). -/
def Watch.hold (w : Watch) (count : Nat) : Watch := { w with state := .held, timer := none, count := count, faultHeld := true }

/-- The action the sequencer offers itself at a failure that makes the count `c` (R114). -/
def escalation (c : Nat) : ActionKind := if c = 1 then .reset else .cycle

/-- The hold of a watch that was turned off stands: the state is IDLE with the fault-held flag set (R108, R115). -/
def Watch.holdStands (w : Watch) : Bool := w.faultHeld && w.state == .idle

/-- The watch brought to a hold at count `c`, with its events (R114). -/
def State.holdWatch (s : State) (n : NodeId) (c : Nat) (cause : FailCause) : State :=
  ((s.putWatch n ((s.wt n).hold c)).raise (some n) (.bootFailed c cause none)).raise (some n) (.held c cause)

/-- A failure counted (R114). Where a hold stands in IDLE, case 3 goes to HELD also below the limit, as R115 has it and against R114's
first bullet (DESIGN CHOICE, log entry 56). -/
def State.fail (s : State) (n : NodeId) (cause : FailCause) : State :=
  let w := s.wt n
  if w.limit = 0 then
    (s.putWatch n { w with state := .idle, timer := none, count := 0 }).raise (some n) (.bootFailed 0 cause none)
  else if w.limit ≤ w.count then s.holdWatch n w.count cause
  else if w.count + 1 = w.limit ∨ w.holdStands then s.holdWatch n (w.count + 1) cause
  else
    let act := escalation (w.count + 1)
    let a := (s.putWatch n { w with state := .idle, timer := none, count := w.count + 1 }).offerAction n ⟨act, .watch, false, none⟩
    a.1.raise (some n) (.bootFailed (w.count + 1) cause (some act))

/-- A fault report (R113): a failure, or set aside with PATTERN raised in its place. -/
def State.faultReport (s : State) (n : NodeId) (p : PatternIx) (off : Offset) : State :=
  if (s.pw n).state = .on ∧ (s.pw n).action = none ∧ (s.wt n).state ≠ .held then s.fail n (.fault p off)
  else s.raise (some n) (.pattern p off)

/-- A taken NODE_WATCH write acts on the record (R108). -/
def Watch.setSettings (w : Watch) (t : WatchSettings) (ms : Nat) : Watch :=
  let q : Watch := { w with
    timeS := t.timeS, limit := t.limit, localStart := t.localStart, faultReboot := t.faultReboot, count := min w.count t.limit }
  match w.state with
  | .watching =>
    if t.timeS = 0 then { q with state := .idle, timer := none } else { q with timer := some (ms + t.timeS * 1000) }
  | .held => if t.timeS = 0 then { q with state := .idle } else q
  | .idle => if t.timeS ≠ 0 ∧ w.faultHeld then { q with state := .held } else q

/-! ## Restart and handover (R104, R119) -/

/-- A power record's share of a restart (R104). -/
def Power.restart (p : Power) (ms : Nat) : Power :=
  { p with
    state := .unknown, action := none, phase := none, tick := none, button := false, reset := false, granted := false,
    reattach := none, armed := false, filtered := .unacquired, wait := some (ms + p.settings.filterMs) }

/-- A boot-watch record's share of a handover (R119). -/
def Watch.handover (w : Watch) : Watch :=
  { w with
    count := 0, faultHeld := false, state := if w.state = .held then .idle else w.state,
    timer := if w.state = .watching then w.timer else none }

/-! ## Pattern actions (R77 to R80) -/

/-- The action of completed pattern `i`, whose last character took offset `off` (R77 to R80). -/
def State.patternAction (s : State) (n : NodeId) (off : Offset) (act : PatternAction) (i : PatternIx) : State :=
  match act with
  | .notify => s.raise (some n) (.pattern i off)
  | .bootSeen => s.bootSeen n i off
  | .faultSeen => if (s.wt n).faultReboot then s.faultReport n i off else s.raise (some n) (.pattern i off)
  | .ejectMedia => s.patternEject n i

/-- The actions of every pattern a character completed, in index order (R77). -/
def State.patternActions (s : State) (n : NodeId) (off : Offset) (done : List PatternIx) : State :=
  done.foldl (fun a i =>
    match s.matcher.table.get i with
    | some p => a.patternAction n off p.action i
    | none => a) s

end Sys2Proof.Machine
end

