-- ==== Sys2Proof/Machine/Lines.lean ====
section
/-! DEFINITION. The Console Line Units (chapter 2): framing a character, breaks, the error counter, the autobaud hunt, and a
line's share of a settings write and a restart. -/
namespace Sys2Proof.Machine

/-- The parts of a framed character (R29): the value, PARITY and FRAMING from the samples, UNSETTLED from the line state. -/
def Line.frame (l : Line) (data : Byte) (parity stop : Bool) : EntryKind :=
  let v := lowBits l.settings.framing.dataBits data
  let bad := match parityBit l.settings.framing.parity v with
    | some b => b != parity
    | none => false
  .char v bad (!stop) l.hunting

/-- A sampled character is a break candidate (R30). -/
def Line.breakCandidate (l : Line) (data : Byte) (parity stop : Bool) : Bool :=
  lowBits l.settings.framing.dataBits data == 0 && (l.settings.framing.parity == .none || !parity) && !stop

/-- An entry is a flawed character (R33). -/
def EntryKind.flawed : EntryKind → Bool
  | .char _ p f _ => p || f
  | .brk => false
  | .mark _ => false

/-- An overflow on a line that cannot hunt (R34). -/
def State.noisyOverflow (s : State) (n : NodeId) : State :=
  let l := s.lines.get n
  (s.putLine n { l with errors := 0, noisy := true }).raise (some n) (.lineNoisy l.rate)

/-- The index a rate switch moves to, and whether the switch completes a lap (R35). -/
def Line.nextCandidate (l : Line) : Nat × Bool :=
  if l.candidate + 1 < l.settings.rates.length then (l.candidate + 1, false) else (0, true)

/-- The switch that completes the fourth lap ends the hunt (R37). -/
def State.endHunt (s : State) (n : NodeId) : State :=
  let l := s.lines.get n
  let m : Line := { l with
    candidate := 0, hunting := false, errors := 0, goodRun := 0, laps := 0, discard := 2, noisy := true, suspended := true }
  ((s.putLine n m).offerMark n (.rate 0)).raise (some n) (.lineNoisy m.rate)

/-- A rate switch (R35). -/
def State.switchRate (s : State) (n : NodeId) : State :=
  let l := s.lines.get n
  let c := l.nextCandidate
  let laps := if c.2 then l.laps + 1 else l.laps
  if 4 ≤ laps then s.endHunt n
  else
    let m : Line := { l with candidate := c.1, hunting := true, errors := 0, goodRun := 0, laps := laps, discard := 2 }
    let a := (s.putLine n m).offerMark n (.rate c.1)
    if l.hunting then a else a.raise (some n) (.lineHunting m.rate)

/-- The good run after a clean character on a HUNTING line; at 32 the line locks (R36). -/
def State.cleanRun (s : State) (n : NodeId) : State :=
  let l := s.lines.get n
  if !l.hunting then s
  else if l.goodRun + 1 < 32 then s.putLine n { l with goodRun := l.goodRun + 1 }
  else
    (s.putLine n { l with hunting := false, goodRun := 0, errors := 0, laps := 0 }).raise (some n) (.lineLocked l.rate)

/-- The error counter and the hunt take a character handed on (R33 to R37). -/
def State.judge (s : State) (n : NodeId) (flawed : Bool) : State :=
  let l := s.lines.get n
  if flawed then
    if l.errors < l.settings.threshold then s.putLine n { l with errors := l.errors + 1, goodRun := 0 }
    else if l.cannotHunt then s.noisyOverflow n
    else s.switchRate n
  else (s.putLine n { l with errors := l.errors - 1 }).cleanRun n

/-- A character offered to the ring and the matcher, then the actions of the patterns it completes (R29, R74, R77). -/
def State.offerChar (s : State) (n : NodeId) (k : EntryKind) : State :=
  (s.offerMatched n k).patternActions n (s.streams.get n).offset (s.completionsOf n k)

/-- A framed character discarded after a rate switch, or handed on and judged (R29, R32). -/
def State.handChar (s : State) (n : NodeId) (k : EntryKind) : State :=
  let l := s.lines.get n
  if 0 < l.discard then s.putLine n { l with discard := l.discard - 1 }
  else (s.offerChar n k).judge n k.flawed

/-- The settings of a NODE_LINE write put the line at its primary rate (R23). -/
def Line.setSettings (l : Line) (t : LineSettings) (now : Nat) : Line :=
  ({ l with
    settings := t, candidate := 0, hunting := false, errors := 0, goodRun := 0, laps := 0, discard := 0, noisy := false,
    suspended := false } : Line).toQuiet now

/-- A line's share of a restart (R43). -/
def Line.restart (l : Line) (now : Nat) : Line := { l.toPrimary now with txQueue := [], transmitter := .idle }

end Sys2Proof.Machine
end

