-- ==== Sys2Proof/Machine/Delivery.lean ====
section
/-! DEFINITION. What ends every step: the producers that wait for descriptors test again, the Notice Unit decides its slot, and
the transmit port takes the next frame (R186 to R190). -/
namespace Sys2Proof.Machine

/-! ## Notices (R189, R190) -/

/-- Every set, in the order that breaks ties of rank: the nodes, then the part (R189). -/
def allSets : List SetId := allNodes.map some ++ [none]

/-- The rank of a set (R188): that of its highest-ranking member; 11 for an empty set. -/
def PendingSet.rank (p : PendingSet) : Nat := p.members.foldl (fun a m => min a m.event.rank) 11

/-- A set is eligible (R189). -/
def PendingSet.eligible (p : PendingSet) : Bool := !p.members.isEmpty && p.gap.isNone

/-- The set that wins the slot (R189): the eligible set of highest rank, the first of `allSets` among equals. -/
def State.winner (s : State) : Option SetId :=
  allSets.foldl (fun best id =>
    if !(s.pendingSet id).eligible then best
    else
      match best with
      | none => some id
      | some b => if (s.pendingSet id).rank < (s.pendingSet b).rank then some id else best) none

/-- Station `i` is entitled to a member of a set at this moment (R190). -/
def State.entitled (s : State) (id : SetId) (i : StationIx) (m : Member) : Bool :=
  match id with
  | none => (s.station i).isOperator
  | some n => if m.event.code = 0x70 then (s.station i).isOperator else s.holds i n .notify

/-- The NOTICE frames a set needs now: one for each station entitled to a member, with those members (R190). -/
def State.noticeFrames (s : State) (id : SetId) : List TxFrame :=
  (indices 32).filterMap (fun i =>
    let ms := (s.pendingSet id).members.filter (s.entitled id i)
    if ms.isEmpty then none
    else
      let node := match id with
        | some n => nodeByte n
        | none => 15
      some ⟨.notice, s.addressOf i, 0xA1, node, 0, 0, encodeNotice id ms⟩)

/-- The winner can leave the slot: nobody is entitled, or every frame it needs has a descriptor (R189). -/
def State.noticeReady (s : State) : Bool :=
  match s.winner with
  | some id => decide ((s.noticeFrames id).length ≤ s.up.outside)
  | none => false

/-- The winner sent and its gap timer started, or emptied when nobody is entitled (R189, R190). -/
def State.sendNotice (s : State) : State :=
  match s.winner with
  | some id =>
    let frames := s.noticeFrames id
    let gap := if frames.isEmpty then none else some (s.ms + s.notices.gapMs)
    (s.enqueueAll frames).putSet id ⟨[], gap⟩
  | none => s

/-! ## Waiting producers (R186) -/

/-- The producers that can wait for a descriptor. -/
inductive Producer where
  | batch (n : NodeId)
  | replay (n : NodeId)
  | imageOpen (r : ImageIx)
  | needs
  | refetch (f : FetchIx)
  | rewrite (n : NodeId)
  | notice
  deriving DecidableEq, Repr

/-- The need list would be tried with conditions 1 and 2 of R149 met. -/
def State.needsReady (s : State) : Bool :=
  match nextNeed s.images.needs with
  | some x => s.mayIssue x
  | none => false

/-- The producers whose condition holds. `needs` tells whether the need list takes part (R150). -/
def State.readyProducers (s : State) (needs : Bool) : List Producer :=
  (allNodes.filter s.batchReady).map .batch ++ (allNodes.filter s.replayReady).map .replay
    ++ (allNodes.filter s.openReady).map .imageOpen ++ (if needs && s.needsReady then [.needs] else [])
    ++ ((indices 32).filter s.refetchReady).map .refetch ++ (allNodes.filter s.rewriteReady).map .rewrite
    ++ (if s.noticeReady then [.notice] else [])

/-- One producer takes what it waits for; the flag tells whether the need list takes part further. -/
def State.serve (s : State) (needs : Bool) : Producer → State × Bool
  | .batch n => (s.formBatch n, needs)
  | .replay n => (s.replayFrame n, needs)
  | .imageOpen r => (s.sendOpen r, needs)
  | .needs => (s.tryOne.1, s.tryOne.2)
  | .refetch f => (s.refetch f, needs)
  | .rewrite n => (s.sendWrite n, needs)
  | .notice => (s.sendNotice, needs)

/-- One of several ready producers, in no fixed order (R186): a free choice, used only when there is one to make. -/
def State.choose (s : State) (p : Producer) (ps : List Producer) : State × Producer :=
  if ps.isEmpty then (s, p)
  else ({ s with picks := s.picks + 1 }, (p :: ps).getD (Config.pick s.picks % (p :: ps).length) p)

/-- Ready producers served one at a time until none is ready (R186). -/
def State.settle : Nat → Bool → State → State
  | 0, _, s => s
  | fuel + 1, needs, s =>
    match s.readyProducers needs with
    | [] => s
    | p :: ps =>
      let c := s.choose p ps
      let r := c.1.serve needs c.2
      State.settle fuel r.2 r.1

/-- The bound on the producers served in one step: every descriptor, and every set that may be emptied. -/
def settleFuel : Nat := 1200

/-! ## The transmit port (R187) -/

/-- The pointer moved to the class after the one served. -/
def Rotation.after : FrameClass → Rotation → Rotation
  | .answer, r => r
  | .media, _ => .console
  | .console, _ => .notice
  | .notice, _ => .media

/-- The classes from the pointer on. -/
def Rotation.order : Rotation → List FrameClass
  | .media => [.media, .console, .notice]
  | .console => [.console, .notice, .media]
  | .notice => [.notice, .media, .console]

/-- The frame arbitration takes: the oldest ANSWER, else the oldest of the first class with one waiting (R187). -/
def Uplink.arbitrate (u : Uplink) : Option TxFrame :=
  (FrameClass.answer :: u.rotation.order).findSome? (fun c => u.queue.find? (fun f => f.cls = c))

/-- An idle port takes the next frame by arbitration (R187). It takes none before the MAC is enabled (log entry 4). -/
def Uplink.takeNext (u : Uplink) : Uplink :=
  if u.port.isSome || !u.macEnabled then u
  else
    match u.arbitrate with
    | none => u
    | some f => { u with port := some f, queue := u.queue.erase f, rotation := Rotation.after f.cls u.rotation }

/-- The frame as it leaves the port (R179): with the address and VLAN setting then in force, a tag's priority 0. -/
def Uplink.wire (u : Uplink) (f : TxFrame) : WireFrame :=
  ⟨f.dst, u.addr, if u.vlan = 0 then none else some ⟨0, u.vlan⟩, 0x88B6,
    [1, f.kind, f.node, f.result] ++ be 2 f.tag.toNat ++ be 2 f.body.length ++ f.body⟩

/-- A descriptor became free: every waiting producer tests again (R186). -/
def State.descriptorFreed (s : State) : State := s.settle settleFuel true

/-- The end of a step: conditions that now hold are met, then an idle port takes a frame (log entry 4). -/
def State.finish (s : State) : State :=
  let a := s.settle settleFuel false
  a.putUp a.up.takeNext

/-- A command's effect on the part while PORn is high; while PORn is low every block holds its initial state (R193). -/
def State.whenRunning (s : State) (f : State → State) : Host.Outcome State Fault Refusal :=
  .next (if s.porn then (f s).finish else s)

end Sys2Proof.Machine
end

