-- ==== Sys2Proof/Machine/Steering.lean ====
section
/-! DEFINITION. The sections of R182: what a table write does when it is offered to the owner of its section, by a station's
TABLE_WRITE or by the Settings Loader, and what a table read answers. -/
namespace Sys2Proof.Machine

/-- What an owner decides of a request: the state after it, the result, and the body of the answer. -/
structure Decision where
  state : State
  result : Result
  body : List Byte

/-- A request refused: nothing changes and the answer has an empty body (R181). -/
def State.refuse (s : State) (r : Result) : Decision := ⟨s, r, []⟩

/-- OK, or ADJUSTED when a value was clamped (R181). -/
def okOrAdjusted (adjusted : Bool) : Result := if adjusted then .adjusted else .ok

/-! ## STATION (R11 to R14) -/

/-- The number of IN_USE entries of class OPERATOR. -/
def State.operators (s : State) : Nat := ((indices 32).filter (fun i => (s.station i).isOperator)).length

/-- Check 3 of R11: the address is already that of an entry at another index. -/
def State.addressTaken (s : State) (i : StationIx) (st : Station) : Bool :=
  (indices 32).any (fun j => j ≠ i && st.addr?.isSome && (s.station j).addr? == st.addr?)

/-- Check 4 of R11: the write would remove or demote the one OPERATOR entry. It applies while the part is COMMISSIONED, and so
not to the load after power-on reset. -/
def State.lastOperator (s : State) (i : StationIx) (st : Station) : Bool :=
  s.su.commissioning == .commissioned && (s.station i).isOperator && !st.isOperator && s.operators == 1

/-- One attachment of station `i` re-examined on node `n` (R13); `gone` tells that the index no longer names its station. -/
def State.reviewAttachment (i : StationIx) (gone : Bool) (s : State) (n : NodeId) : State :=
  match (s.streams.get n).att i with
  | none => s
  | some a =>
    if gone || !s.holds i n .watch then s.detach n i
    else if a.mode = .typing ∧ s.holds i n .typing = false then
      s.putStream n ((s.streams.get n).putAtt { a with mode := .watch, escape := none })
    else s

/-- The medium of node `n` names station `i` as its server (R14). -/
def State.servedBy (s : State) (i : StationIx) (n : NodeId) : Bool :=
  match (s.port n).medium.ref? with
  | some m =>
    match s.image m.image with
    | some r => r.server == i
    | none => false
  | none => false

/-- The medium of node `n` tested after a change of station `i` (R14). -/
def State.reviewMedium (i : StationIx) (gone : Bool) (s : State) (n : NodeId) : State :=
  if s.servedBy i n && (gone || !s.mayServe i n) then s.forceEjectLost n else s

/-- The entry at index `i` replaced, with the consequences for attachments, media and extents (R12 to R14). R14 puts the stale marks
after the test of the media, and no rule orders that test and R13's re-examination: that the attachments of all nodes are
re-examined before the first medium is tested is a DESIGN CHOICE (log entry 59). -/
def State.replaceStation (s : State) (i : StationIx) (st : Station) : State :=
  let gone := (s.station i).addr? ≠ st.addr?
  let a := s.putSu { s.su with stations := s.su.stations.put i st }
  let b := allNodes.foldl (State.reviewAttachment i gone) a
  let c := allNodes.foldl (State.reviewMedium i gone) b
  if gone then c.staleWhere (fun k => k.server == i) else c

/-- A STATION write (R11). -/
def State.writeStation (s : State) (b : List Byte) : Decision :=
  if s.saving then s.refuse .busy
  else
    match decodeStation s.up.addr b with
    | none => s.refuse .badRequest
    | some (i, st) =>
      if s.addressTaken i st then s.refuse .inUse
      else if s.lastOperator i st then s.refuse .wrongState
      else ⟨s.replaceStation i st, .ok, encodeStation i st⟩

/-! ## NODE_TENANT (R16, R17) -/

/-- The pending set of node `n` cleared, its gap timer kept (R188, R189). -/
def State.clearSet (s : State) (n : NodeId) : State := s.putSet (some n) { s.pendingSet (some n) with members := [] }

/-- The ownership record of node `n` after a handover to tenant `t` (R17). -/
def Steering.handover (u : Steering) (n : NodeId) (t : BitVec 4) : Steering :=
  { u with tenants := u.tenants.put n t, handovers := u.handovers.put n (u.handovers.get n + 1) }

/-- A node handover to tenant `t` (R17): each block clears its share, and TENANT_CHANGED is raised. The rule gives the shares no
order: that the pool's report, after the return of the history cells (R176), comes before the forced eject of the medium is a DESIGN
CHOICE (log entry 51). -/
def State.handover (s : State) (n : NodeId) (t : BitVec 4) : State :=
  let a := s.putSu (s.su.handover n t)
  let b := (a.putStream n ((a.streams.get n).handover (fun i => (a.station i).isOperator))).report
  let c := b.putMatcher (b.matcher.clear n true)
  let d := c.handoverPort n
  let e := d.putWatch n (d.wt n).handover
  (e.clearSet n).raise (some n) .tenantChanged

/-- A NODE_TENANT body as stored. -/
def State.tenantBody (s : State) (n : NodeId) : List Byte := encodeNodeTenant n (s.su.tenants.get n) (s.su.handovers.get n)

/-- A NODE_TENANT write (R16); in the load after power-on reset it sets the tenant without a handover (R5). -/
def State.writeTenant (s : State) (load : Bool) (node : Byte) (b : List Byte) : Decision :=
  if s.saving then s.refuse .busy
  else
    match bodyNode node b with
    | none => s.refuse .badRequest
    | some n =>
      if b.length ≠ 4 ∨ 15 < byteAt b 1 then s.refuse .badRequest
      else
        let t := BitVec.ofNat 4 (byteAt b 1)
        if t = s.su.tenants.get n then s.refuse .noEffect
        else
          let a := if load then s.putSu { s.su with tenants := s.su.tenants.put n t } else s.handover n t
          ⟨a, .ok, a.tenantBody n⟩

/-! ## NODE_LINE (R22, R23) -/

/-- The settings of a NODE_LINE write taken on node `n`, with its SETTINGS mark except in the load after power-on reset. -/
def State.setLine (s : State) (load : Bool) (n : NodeId) (t : LineSettings) : State :=
  let a := s.putLine n ((s.lines.get n).setSettings t s.now)
  if load then a else a.offerMark n .settings

/-- A NODE_LINE write (R22). -/
def State.writeLine (s : State) (load : Bool) (node : Byte) (b : List Byte) : Decision :=
  if s.saving then s.refuse .busy
  else
    match bodyNode node b, decodeLine b with
    | some n, some t =>
      let c := clampLine t
      ⟨s.setLine load n c, okOrAdjusted (c ≠ t || c.rates.any inexact), encodeLine n c⟩
    | _, _ => s.refuse .badRequest

/-! ## NODE_POWER (R100) -/

/-- A NODE_POWER write (R100). -/
def State.writePower (s : State) (load : Bool) (node : Byte) (b : List Byte) : Decision :=
  if s.saving then s.refuse .busy
  else
    match bodyNode node b, decodePower b with
    | some n, some t =>
      if (s.pw n).state.acting then s.refuse .busy
      else
        let c := clampPower t
        ⟨s.putPower n ((s.pw n).setSettings c s.ms load), okOrAdjusted (c ≠ t), encodePower n c⟩
    | _, _ => s.refuse .badRequest

/-! ## NODE_WATCH (R107) -/

/-- A NODE_WATCH write (R107). -/
def State.writeWatch (s : State) (node : Byte) (b : List Byte) : Decision :=
  if s.saving then s.refuse .busy
  else
    match bodyNode node b, decodeWatch b with
    | some n, some t =>
      let c := clampWatch t
      let a := s.putWatch n ((s.wt n).setSettings c s.ms)
      ⟨a, okOrAdjusted (c ≠ t), encodeWatch n (a.wt n)⟩
    | _, _ => s.refuse .badRequest

/-! ## NODE_STREAM (R66, R175) -/

/-- The escape bytes held on a stream, one for each attachment in ESCAPE_SEEN. -/
def Stream.heldEscapes (t : Stream) : Nat := (t.atts.filter (fun a => a.escape.isSome)).length

/-- Every held escape byte `old` of node `n` released, the attachments IDLE (R66). -/
def State.releaseEscapes (s : State) (n : NodeId) (old : Byte) : State :=
  let t := s.streams.get n
  let a := s.putStream n { t with atts := t.atts.map (fun x => { x with escape := none }) }
  (List.replicate t.heldEscapes old).foldl (fun x b => x.releaseByte n b) a

/-- The report that follows a change of limits which raised the free count less R, lowered R or dropped cells (R174, R175). -/
def State.reportLimits (s : State) (before : State) (n : NodeId) : State :=
  if before.slack < s.slack ∨ s.reservation < before.reservation ∨ s.heldCells n < before.heldCells n then s.report else s

/-- New stream settings taken on node `n` (R66): the pool's limits and the report that follows them (R175), then the held escape bytes,
then the test of the trigger level (DESIGN CHOICE, log entry 58). -/
def State.setStream (s : State) (n : NodeId) (t : StreamSettings) : State :=
  let old := (s.streams.get n).settings.escapeByte
  let a := (s.applyLimits n t).reportLimits s n
  let b := if t.escapeByte = old then a else a.releaseEscapes n old
  b.testBatch n

/-- A NODE_STREAM write (R66). -/
def State.writeStream (s : State) (node : Byte) (b : List Byte) : Decision :=
  if s.saving then s.refuse .busy
  else
    match bodyNode node b, decodeStream b with
    | some n, some t =>
      let c := clampStream t
      if s.limitsCovered n c.histMin c.histMax then ⟨s.setStream n c, okOrAdjusted (c ≠ t), encodeStream n c⟩
      else s.refuse .full
    | _, _ => s.refuse .badRequest

/-! ## NODE_MEDIA (R141) -/

/-- A NODE_MEDIA write (R141). -/
def State.writeMedia (s : State) (node : Byte) (b : List Byte) : Decision :=
  if s.saving then s.refuse .busy
  else
    match bodyNode node b, bitCode (byteAt b 1) with
    | some n, some on =>
      if b.length = 2 then ⟨s.putPort n { s.port n with readAhead := on }, .ok, encodeMedia n on⟩ else s.refuse .badRequest
    | _, _ => s.refuse .badRequest

/-! ## PATTERN (R81) -/

/-- A PATTERN write (R81). -/
def State.writePattern (s : State) (b : List Byte) : Decision :=
  if s.saving then s.refuse .busy
  else
    match decodePattern b with
    | some (i, p) =>
      let m : Matcher := { s.matcher with table := s.matcher.table.put i p }
      ⟨s.putMatcher (m.forget i), .ok, encodePattern i p⟩
    | none => s.refuse .badRequest

/-! ## PART (R183) -/

/-- The PART settings as they stand. -/
def State.partSettings (s : State) : PartSettings := ⟨s.up.addr, s.up.vlan.toNat, s.lease, s.notices.gapMs, s.images.timeout⟩

/-- PART settings given to UP, CS, NU and IF (R9, R183). -/
def State.setPart (s : State) (p : PartSettings) : State :=
  let a := s.putUp { s.up with addr := p.addr, vlan := BitVec.ofNat 12 p.vlan }
  let b := a.putLease p.lease
  let c := b.putNotices { b.notices with gapMs := p.gapMs }
  c.putImages { c.images with timeout := p.timeout }

/-- A PART write (R183). -/
def State.writePart (s : State) (b : List Byte) : Decision :=
  if s.saving then s.refuse .busy
  else
    match decodePart b with
    | none => s.refuse .badRequest
    | some p =>
      if (s.findStation p.addr).isSome then s.refuse .inUse
      else
        let c := clampPart p
        ⟨s.setPart c, okOrAdjusted (c ≠ p), encodePart c⟩

/-! ## Writes and reads of any section -/

/-- A section body offered to the owner of the section (R9, R192): `node` is the header's node, `load` tells the load after
power-on reset. -/
def State.writeSection (s : State) (load : Bool) (c : Sec) (node : Byte) (b : List Byte) : Decision :=
  match c with
  | .station => s.writeStation b
  | .nodeTenant => s.writeTenant load node b
  | .nodeLine => s.writeLine load node b
  | .nodePower => s.writePower load node b
  | .nodeWatch => s.writeWatch node b
  | .nodeStream => s.writeStream node b
  | .nodeMedia => s.writeMedia node b
  | .pattern => s.writePattern b
  | .part => s.writePart b

/-- The section body of node `n` as stored, for a node section (R183). -/
def State.nodeBody (s : State) (c : Sec) (n : NodeId) : List Byte :=
  match c with
  | .nodeTenant => s.tenantBody n
  | .nodeLine => encodeLine n (s.lines.get n).settings
  | .nodePower => encodePower n (s.pw n).settings
  | .nodeWatch => encodeWatch n (s.wt n)
  | .nodeStream => encodeStream n (s.streams.get n).settings
  | .nodeMedia => encodeMedia n (s.port n).readAhead
  | .station => []
  | .pattern => []
  | .part => []

/-- A section body of an indexed section as stored (R183). -/
def State.indexBody (s : State) (c : Sec) (i : Fin 32) : List Byte :=
  match c with
  | .station => encodeStation i (s.station i)
  | .pattern => encodePattern i (s.matcher.table.get i)
  | .nodeTenant => []
  | .nodeLine => []
  | .nodePower => []
  | .nodeWatch => []
  | .nodeStream => []
  | .nodeMedia => []
  | .part => []

/-- A TABLE_READ (R15, R24, R66, R82, R101, R107, R141, R183): `b` follows the section code. It changes nothing. -/
def State.readSection (s : State) (c : Sec) (node : Byte) (b : List Byte) : Decision :=
  if c = .part then if b = [] then ⟨s, .ok, encodePart s.partSettings⟩ else s.refuse .badRequest
  else if b.length ≠ 1 then s.refuse .badRequest
  else if c.ofPart then
    match indexOfByte (b.getD 0 0) with
    | some i => ⟨s, .ok, s.indexBody c i⟩
    | none => s.refuse .badRequest
  else
    match bodyNode node b with
    | some n => ⟨s, .ok, s.nodeBody c n⟩
    | none => s.refuse .badRequest

end Sys2Proof.Machine
end

