-- ==== Sys2Proof/Machine/Status.lean ====
section
/-! DEFINITION. The bodies of STATUS_READ (R185), each field in the fewest whole bytes its range needs. -/
namespace Sys2Proof.Machine

/-! ## A node -/

/-- The power record (R102). -/
def State.statusPower (s : State) (n : NodeId) : List Byte :=
  let p := s.pw n
  be 1 p.state.code ++ encodeAction p.action ++ be 1 p.filtered.code ++ flagByte p.button ++ flagByte p.reset ++ flagByte p.granted

/-- The boot watch (R118). -/
def State.statusWatch (s : State) (n : NodeId) : List Byte :=
  let w := s.wt n
  be 1 w.state.code ++ be 1 w.count ++ flagByte w.faultHeld ++ be 3 ((w.timer.map (fun d => d - s.ms)).getD 0)
    ++ be 2 w.timeS ++ be 1 w.limit ++ flagByte w.localStart ++ flagByte w.faultReboot

/-- The line (R45). -/
def State.statusLine (s : State) (n : NodeId) : List Byte :=
  let l := s.lines.get n
  flagByte l.hunting ++ be 1 l.candidate ++ be 3 l.rate ++ be 3 (achieved l.rate) ++ flagByte l.inexact ++ be 1 l.errors
    ++ flagByte l.noisy ++ flagByte l.suspended

/-- The stream (R70). -/
def State.statusStream (s : State) (n : NodeId) : List Byte :=
  let t := s.streams.get n
  be 2 t.ring.length ++ be 4 t.offset.toNat ++ be 2 t.lost ++ be 1 t.atts.length ++ be 1 (s.heldCells n) ++ be 4 t.oldest.toNat

/-- The block count of a medium, where present (R123). -/
def Medium.blocks? : Medium → Option Nat
  | .present _ b => some b
  | .ejecting _ b _ => some b
  | .empty => none
  | .loading _ => none

/-- The Media Port, with the sense key and its information LBA (R142, R185). -/
def State.statusMedia (s : State) (n : NodeId) : List Byte :=
  let p := s.port n
  let m := p.medium.ref?
  flagByte p.attached ++ flagByte p.bootFirst ++ be 1 p.medium.code ++ orAbsent 1 (m.map (fun x => x.image.val))
    ++ orAbsent 2 (m.map (fun x => x.size.bytes)) ++ orAbsent 4 p.medium.blocks?
    ++ orAbsent 1 (m.map (fun x => if x.writable then 1 else 0)) ++ flagByte p.lock ++ flagByte p.changed
    ++ orAbsent 1 (p.active.map Request.code) ++ be 1 p.sense.key.code ++ orAbsent 4 (p.sense.info.map BitVec.toNat)

/-- The status of node `n` (R185). -/
def State.statusNode (s : State) (n : NodeId) : List Byte :=
  be 1 (s.su.tenants.get n).toNat ++ be 2 (s.su.handovers.get n).toNat ++ s.statusPower n ++ s.statusWatch n ++ s.statusLine n
    ++ s.statusStream n ++ s.statusMedia n ++ be 2 (s.pendingSet (some n)).classMask

/-! ## The part -/

/-- The drop counts, the link discard count and the link state (R178, R187). -/
def State.statusUplink (s : State) : List Byte :=
  be 2 s.up.drops.address ++ be 2 s.up.drops.vlan ++ be 2 s.up.drops.ethertype ++ be 2 s.up.drops.version
    ++ be 2 s.up.drops.length ++ be 2 s.up.drops.room ++ be 2 s.up.linkDiscards ++ flagByte s.up.linkUp

/-- The number of entries in use that satisfy `f`. -/
def Pool.countUsed (p : Pool) (f : Extent → Bool) : Nat := (p.used.filter (fun x => f x.2)).length

/-- The pool's report (R177). -/
def State.statusPool (s : State) : List Byte :=
  be 2 s.freeCells ++ be 1 s.reservation ++ be 2 s.historyCells ++ be 1 s.pool.used.length
    ++ be 1 (s.pool.countUsed (fun e => !e.valid)) ++ be 1 (s.pool.countUsed (fun e => e.valid))
    ++ be 1 (s.pool.countUsed (fun e => !e.owned)) ++ be 1 (s.pool.countUsed (fun e => !e.valid && e.stale))
    ++ be 1 (s.pool.countUsed (fun e => 0 < e.pins)) ++ be 2 s.pool.evictions ++ be 2 s.pool.reclaims

/-- The image records in OPENING or OPEN, with their indexes. -/
def State.liveImages (s : State) : List (ImageIx × ImageRec) := allNodes.filterMap (fun r => (s.image r).map (fun x => (r, x)))

/-- The live fetch entries. -/
def State.liveFetches (s : State) : Nat := ((indices 32).filter (fun f => (s.images.fetches.get f).live.isSome)).length

/-- The Image Fetch Unit's report (R162). -/
def State.statusImages (s : State) : List Byte :=
  be 1 (s.liveImages.filter (fun x => x.2.isOpening)).length ++ be 1 (s.liveImages.filter (fun x => !x.2.isOpening)).length
    ++ be 1 s.liveFetches ++ be 1 (s.images.needs.filter (fun x => x.kind = .node)).length
    ++ be 1 (s.images.needs.filter (fun x => x.kind = .readAhead)).length
    ++ be 2 s.images.late ++ be 2 s.images.foreign ++ be 2 s.images.malformed ++ be 2 s.images.unsentClose

/-- The Settings Loader's counts, and whether a SAVE is running (R185). -/
def State.statusLoader (s : State) : List Byte :=
  be 2 s.loader.loaded ++ be 2 s.loader.skipped ++ be 2 s.loader.clamped ++ flagByte s.saving

/-- One image record as the part's status lists it (R185); the length is absent in OPENING. -/
def encodeImage (r : ImageIx) (x : ImageRec) : List Byte :=
  be 1 r.val ++ be 1 (if x.isOpening then 1 else 2) ++ be 1 x.server.val ++ be 4 x.image.toNat
    ++ orAbsent 6 (if x.isOpening then none else some x.length) ++ be 1 x.users.toNat ++ be 1 x.failures

/-- The status of the part; `admin` tells that the requester holds ADMIN (R185). -/
def State.statusPart (s : State) (admin : Bool) : List Byte :=
  s.statusUplink ++ be 2 s.su.unknownSource ++ flagByte (s.su.commissioning == .commissioned) ++ s.statusPool ++ s.statusImages
    ++ s.statusLoader ++ be 2 s.notices.part.classMask
    ++ (if admin then s.liveImages.flatMap (fun x => encodeImage x.1 x.2) else [])

/-- A STATUS_READ (R185) of a node or of the part, from station `i`. -/
def State.readStatus (s : State) (i : StationIx) (t : SetId) (b : List Byte) : Decision :=
  if b ≠ [] then s.refuse .badRequest
  else
    match t with
    | some n => ⟨s, .ok, s.statusNode n⟩
    | none => ⟨s, .ok, s.statusPart (s.station i).isOperator⟩

end Sys2Proof.Machine
end

