-- ==== Sys2Proof/Machine/Console.lean ====
section
/-! DEFINITION. The requests the Console Stream Unit owns: attaching and its renewal, console input with the escape recognizer,
and replay (R55 to R65). -/
namespace Sys2Proof.Machine

/-! ## Attachments (R55 to R57) -/

/-- The mode a code names (R180). -/
def modeOf (b : List Byte) : Option Mode :=
  match b with
  | [x] => if x = 0 then some .watch else if x = 1 then some .typing else none
  | _ => none

/-- The body of an OK answer to ATTACH (R55). -/
def Stream.offsets (t : Stream) : List Byte := be 4 t.offset.toNat ++ be 4 t.oldest.toNat ++ be 4 t.historyEnd.toNat

/-- An attachment given a mode and a fresh lease; only a change from TYPE to WATCH discards its escape state (R55). -/
def Attachment.again (a : Attachment) (m : Mode) (lease : Nat) : Attachment :=
  { a with mode := m, lease := lease, escape := if a.mode = .typing ∧ m = .watch then none else a.escape }

/-- A request that renews whatever its result, refused (R57). -/
def State.refuseRenewed (s : State) (i : StationIx) (n : NodeId) (r : Result) : Decision := (s.renewLease n i).refuse r

/-- An ATTACH (R55, R57). The answer to a new attachment carries the offsets that stand once its mark is accepted or dropped, before
a batch that the mark makes due: the entries up to the history end less one then are those before the station's first batch. R55
does not name that batch: a DESIGN CHOICE (log entry 60). -/
def State.takeAttach (s : State) (i : StationIx) (n : NodeId) (b : List Byte) : Decision :=
  match modeOf b with
  | none => s.refuseRenewed i n .badRequest
  | some m =>
    let t := s.streams.get n
    match t.att i with
    | some a =>
      let s' := s.putStream n (t.putAtt (a.again m s.leaseDeadline))
      ⟨s', .ok, (s'.streams.get n).offsets⟩
    | none =>
      if 4 ≤ t.atts.length then s.refuse .full
      else
        let u := { t with atts := t.atts ++ [⟨i, m, s.leaseDeadline, none⟩] }
        ⟨(s.putStream n u).offerMark n .attachGap, .ok, (u.marked .attachGap).offsets⟩

/-- A DETACH (R56). -/
def State.takeDetach (s : State) (i : StationIx) (n : NodeId) (b : List Byte) : Decision :=
  if b ≠ [] then s.refuse .badRequest
  else if ((s.streams.get n).att i).isSome then ⟨s.detach n i, .ok, []⟩
  else s.refuse .noEffect

/-- A RENEW (R57). -/
def State.takeRenew (s : State) (i : StationIx) (n : NodeId) (b : List Byte) : Decision :=
  if b ≠ [] then s.refuseRenewed i n .badRequest
  else if ((s.streams.get n).att i).isSome then ⟨s.renewLease n i, .ok, []⟩
  else s.refuse .noEffect

/-! ## Replay (R58) -/

/-- A REPLAY decided for an attached station, its lease already renewed (R58). Its frames are offered when the step ends. -/
def State.startReplay (s : State) (i : StationIx) (n : NodeId) (start : Offset) : Decision :=
  let t := s.streams.get n
  if t.replay.isSome then s.refuse .busy
  else if t.history = [] then ⟨s, .noEffect, be 4 t.historyEnd.toNat ++ be 4 t.historyEnd.toNat⟩
  else
    let cursor := if t.inHistory start then start else t.oldest
    let last := t.historyEnd - 1
    ⟨s.putStream n { t with replay := some ⟨i, cursor, last, false, false⟩ }, .ok, be 4 cursor.toNat ++ be 4 last.toNat⟩

/-- A REPLAY (R57, R58). -/
def State.takeReplay (s : State) (i : StationIx) (n : NodeId) (b : List Byte) : Decision :=
  if b.length ≠ 4 then s.refuseRenewed i n .badRequest
  else if ((s.streams.get n).att i).isNone then s.refuse .wrongState
  else (s.renewLease n i).startReplay i n (BitVec.ofNat 32 (ofBe b))

/-! ## Console input (R62 to R65) -/

/-- The escape result of a CONSOLE_INPUT answer (R65). -/
inductive EscapeResult where
  | none
  | taken
  | refused (r : Result)
  deriving DecidableEq, Repr

/-- The escape result and refusal code bytes (R181). -/
def EscapeResult.bytes : EscapeResult → List Byte
  | .none => [0, 0]
  | .taken => [1, 0]
  | .refused r => [2, r.code]

/-- What one byte of a message did: the state, the escape command it decided, if any, and whether the message stops. -/
structure Typed where
  state : State
  command : Option EscapeResult
  stop : Bool

/-- Node `n`'s attachment of station `i` with its escape state changed. -/
def State.setEscape (s : State) (i : StationIx) (n : NodeId) (e : Option Nat) : State :=
  match (s.streams.get n).att i with
  | some a => s.putStream n ((s.streams.get n).putAtt { a with escape := e })
  | none => s

/-- The escape commands r and c (R64): POWER is tested, then the action offered. -/
def State.escapeAction (s : State) (i : StationIx) (n : NodeId) (k : ActionKind) : Typed :=
  if !s.holds i n .power then ⟨s, some (.refused .notPermitted), false⟩
  else
    let d := s.offerAction n ⟨k, .escape i, false, none⟩
    ⟨d.1, some (if d.2 = .ok then .taken else .refused d.2), false⟩

/-- The byte after a held escape byte (R64); `none` when its items do not fit. -/
def State.typeCommand (s : State) (i : StationIx) (n : NodeId) (b : Byte) : Option Typed :=
  let esc := (s.streams.get n).settings.escapeByte
  let idle := s.setEscape i n none
  if b = esc then if s.txRoom n 1 then some ⟨idle.sendItems n [.byte b], none, false⟩ else none
  else if b = 0x62 then if s.txRoom n 1 then some ⟨idle.sendItems n [.brk], some .taken, false⟩ else none
  else if b = 0x72 then some (idle.escapeAction i n .reset)
  else if b = 0x63 then some (idle.escapeAction i n .cycle)
  else if b = 0x64 then some ⟨idle.detach n i, some .taken, true⟩
  else if s.txRoom n 2 then some ⟨idle.sendItems n [.byte esc, .byte b], none, false⟩
  else none

/-- One byte through the recognizer of station `i`'s attachment (R63); `none` when its items do not fit. -/
def State.typeByte (s : State) (i : StationIx) (n : NodeId) (b : Byte) : Option Typed :=
  let t := s.streams.get n
  match t.att i with
  | none => none
  | some a =>
    if a.escape.isSome then s.typeCommand i n b
    else if b = t.settings.escapeByte then some ⟨s.setEscape i n (some (s.ms + t.settings.windowMs)), none, false⟩
    else if s.txRoom n 1 then some ⟨s.sendItems n [.byte b], none, false⟩
    else none

/-- What a message did: the state, the count of bytes taken and the last escape command decided (R62, R65). -/
structure TypedAll where
  state : State
  count : Nat
  escape : EscapeResult

/-- The bytes of a message in order, `taken` and `e` so far (R62). -/
def State.typeBytes (s : State) (i : StationIx) (n : NodeId) (taken : Nat) (e : EscapeResult) : List Byte → TypedAll
  | [] => ⟨s, taken, e⟩
  | b :: bs =>
    match s.typeByte i n b with
    | none => ⟨s, taken, e⟩
    | some r =>
      if r.stop then ⟨r.state, taken + 1, r.command.getD e⟩
      else r.state.typeBytes i n (taken + 1) (r.command.getD e) bs

/-- The input of a TYPE attachment, its lease already renewed (R62). -/
def State.typeMessage (s : State) (i : StationIx) (n : NodeId) (b : List Byte) : Decision :=
  let r := s.typeBytes i n 0 .none b
  ⟨r.state, if r.count = b.length then .ok else .partialTaken, be 2 r.count ++ r.escape.bytes⟩

/-- A CONSOLE_INPUT (R57, R62). -/
def State.takeInput (s : State) (i : StationIx) (n : NodeId) (b : List Byte) : Decision :=
  if b = [] ∨ 1024 < b.length then s.refuseRenewed i n .badRequest
  else
    match (s.streams.get n).att i with
    | none => s.refuse .wrongState
    | some a =>
      match a.mode with
      | .watch => s.refuseRenewed i n .wrongState
      | .typing => (s.renewLease n i).typeMessage i n b

end Sys2Proof.Machine
end

