-- ==== Sys2Proof/Machine/Loader.lean ====
section
/-! DEFINITION. The Settings Loader (chapter 11): reading the record list, the end of a load and of a RELOAD, and a SAVE with its
pages. -/
namespace Sys2Proof.Machine

/-! ## Reading (R191, R192) -/

/-- What the loader finds at a record's address (R191). -/
inductive Found where
  | ended
  | record (c : Sec) (body : List Byte) (next : Nat)
  | skipped (next : Nat)
  | stopped
  deriving DecidableEq, Repr

/-- What stands at address `a` (R191). Where the list reaches address 65,536 without an end byte, the next record's length byte
would lie beyond 65,535 (log entry 19). -/
def findRecord (m : List Host.Cell) (a : Nat) : Found :=
  if 65535 < a then .stopped
  else if memRead m a = 0x00 ∨ memRead m a = 0xFF then .ended
  else if 65535 < a + 1 + (memRead m (a + 1)).toNat then .stopped
  else
    let k := (memRead m (a + 1)).toNat
    match secOf (memRead m a) with
    | some c => .record c (memReadAll m (a + 2) k) (a + 2 + k)
    | none => .skipped (a + 2 + k)

/-- The loader's counts after an applied record (R192). -/
def Loader.counted (l : Loader) (r : Result) : Loader :=
  match r with
  | .ok => { l with loaded := satInc l.loaded }
  | .adjusted => { l with loaded := satInc l.loaded, clamped := satInc l.clamped }
  | .noEffect => { l with loaded := satInc l.loaded }
  | .partialTaken => { l with skipped := satInc l.skipped }
  | .busy => { l with skipped := satInc l.skipped }
  | .full => { l with skipped := satInc l.skipped }
  | .wrongState => { l with skipped := satInc l.skipped }
  | .notPermitted => { l with skipped := satInc l.skipped }
  | .badRequest => { l with skipped := satInc l.skipped }
  | .noMedium => { l with skipped := satInc l.skipped }
  | .locked => { l with skipped := satInc l.skipped }
  | .inUse => { l with skipped := satInc l.skipped }
  | .tooLarge => { l with skipped := satInc l.skipped }

/-- The loader's activity after a record, the next one being at `a`. -/
def Activity.moveTo (x : Activity) (a : Nat) : Activity :=
  match x with
  | .loading _ => .loading a
  | .reloading _ => .reloading a
  | .idle => .idle
  | .saving l p d => .saving l p d

/-- A record applied (R192): the node is the body's first byte for a node section, and 15 otherwise. -/
def State.applyRecord (s : State) (c : Sec) (b : List Byte) (next : Nat) : State :=
  let node : Byte := if c.ofPart then 15 else b.getD 0 15
  let d := s.writeSection s.loading c node b
  let l := d.state.loader.counted d.result
  d.state.putLoader { l with activity := l.activity.moveTo next }

/-- The decision at the end of the load (R193): the commissioning state, the loader IDLE, the MAC enabled. -/
def State.openPart (s : State) : State :=
  let c : Commissioning := if s.operators = 0 then .commissioning else .commissioned
  let a := s.putSu { s.su with commissioning := c }
  let b := a.putLoader { a.loader with activity := .idle }
  b.putUp { b.up with macEnabled := true }

/-- The end of a RELOAD (R196). -/
def State.endReload (s : State) : State :=
  (s.putLoader { s.loader with activity := .idle }).raise none
    (.reloadDone s.loader.loaded s.loader.clamped s.loader.skipped)

/-- The read finishes or stops (R193, R196). -/
def State.endRead (s : State) : State := if s.loading then s.openPart else s.endReload

/-- One skipped record counted. -/
def Loader.skip (l : Loader) : Loader := { l with skipped := satInc l.skipped }

/-- The loader takes what it finds at the address of the next record (R191). -/
def State.takeRecord (s : State) (a : Nat) : State :=
  match findRecord s.config a with
  | .ended => s.endRead
  | .record c b next => s.applyRecord c b next
  | .skipped next => s.putLoader { s.loader.skip with activity := s.loader.activity.moveTo next }
  | .stopped => (s.putLoader s.loader.skip).endRead

/-- RECORD_READ while the loader reads; nothing otherwise (R191). -/
def State.readRecord (s : State) : State :=
  match s.loader.activity with
  | .loading a => s.takeRecord a
  | .reloading a => s.takeRecord a
  | .idle => s
  | .saving _ _ _ => s

/-! ## Saving (R195) -/

/-- A record: section byte, length byte, body (R191). -/
def encodeRecord (c : Sec) (b : List Byte) : List Byte := [c.code] ++ be 1 b.length ++ b

/-- The records of one node, in the order of R195. -/
def State.nodeRecords (s : State) (n : NodeId) : List Byte :=
  [Sec.nodeTenant, .nodeLine, .nodePower, .nodeWatch, .nodeStream, .nodeMedia].flatMap (fun c => encodeRecord c (s.nodeBody c n))

/-- The list a SAVE forms from the tables as they stand (R195). -/
def State.saveList (s : State) : List Byte :=
  encodeRecord .part (encodePart s.partSettings)
    ++ (indices 32).flatMap (fun i =>
        if (s.station i).addr?.isSome then encodeRecord .station (encodeStation i (s.station i)) else [])
    ++ allNodes.flatMap s.nodeRecords
    ++ (indices 32).flatMap (fun i =>
        if (s.matcher.table.get i).isSome then encodeRecord .pattern (encodePattern i (s.matcher.table.get i)) else [])
    ++ [0x00]

/-- The deadline of a write sent now: 50 ms (R195). -/
def State.pageDeadline (s : State) : Nat := s.ms + 50

/-- The address a write of a SAVE starts at. -/
def SaveStep.address : SaveStep → Nat
  | .blank => 0
  | .page k => 256 * k
  | .final => 0

/-- The bytes a write of a SAVE sends: the single byte 00h, or a page of the list. The rest of the last page is a free value
(log entry 6). -/
def pageBytes (list : List Byte) (step : SaveStep) (blanks : Nat) : List Byte :=
  match step with
  | .blank => [0x00]
  | .page k => (List.range 256).map (fun j => list.getD (256 * k + j) (Config.pageByte blanks (256 * k + j)))
  | .final => (List.range 256).map (fun j => list.getD j (Config.pageByte blanks j))

/-- The memory with the write in progress finished. -/
def State.commitPage (s : State) (list : List Byte) (step : SaveStep) : State :=
  { s.putConfig (memWriteAll s.config step.address (pageBytes list step s.blanks)) with blanks := s.blanks + 1 }

/-- The number of bytes a write of a SAVE covers. -/
def SaveStep.size : SaveStep → Nat
  | .blank => 1
  | .page _ => 256
  | .final => 256

/-- The memory after a write that did not finish: its bytes are free values (R195, log entry 6). Of the first write, the single byte
00h, R195 says both that its byte is as the memory left it and that a SAVE that fails leaves 00h at address 0; the model takes the
former and leaves the byte free, a DESIGN CHOICE (log entry 6). -/
def State.spoilPage (s : State) (step : SaveStep) : State :=
  let bytes := (List.range step.size).map (fun j => Config.pageByte s.blanks (step.address + j))
  { s.putConfig (memWriteAll s.config step.address bytes) with blanks := s.blanks + 1 }

/-- The write that follows a finished one, if any: the pages from the one at address 256 on, then the one at address 0
(R195). -/
def SaveStep.after (list : List Byte) : SaveStep → Option SaveStep
  | .blank => if 256 < list.length then some (.page 1) else some .final
  | .page k => if 256 * (k + 1) < list.length then some (.page (k + 1)) else some .final
  | .final => none

/-- A write reported finished (R195). -/
def State.pageDone (s : State) (list : List Byte) (step : SaveStep) : State :=
  let a := s.commitPage list step
  match step.after list with
  | some next => a.putLoader { a.loader with activity := .saving list next s.pageDeadline }
  | none => (a.putLoader { a.loader with activity := .idle }).raise none .saveDone

/-- A write not reported finished within 50 ms (R195). -/
def State.pageFailed (s : State) (step : SaveStep) : State :=
  let a := s.spoilPage step
  (a.putLoader { a.loader with activity := .idle }).raise none (.saveFailed step.address)

/-- A SAVE decided (R195): BUSY unless the loader is IDLE, checked before the body's length (R182). -/
def State.takeSave (s : State) (b : List Byte) : Decision :=
  match s.loader.activity with
  | .idle =>
    if b ≠ [] then s.refuse .badRequest
    else ⟨s.putLoader { s.loader with activity := .saving s.saveList .blank s.pageDeadline }, .ok, []⟩
  | .loading _ => s.refuse .busy
  | .reloading _ => s.refuse .busy
  | .saving _ _ _ => s.refuse .busy

/-- A RELOAD decided (R196): BUSY unless the loader is IDLE, checked before the body's length (R182). -/
def State.takeReload (s : State) (b : List Byte) : Decision :=
  match s.loader.activity with
  | .idle =>
    if b ≠ [] then s.refuse .badRequest
    else ⟨s.putLoader ⟨.reloading 0, 0, 0, 0⟩, .ok, []⟩
  | .loading _ => s.refuse .busy
  | .reloading _ => s.refuse .busy
  | .saving _ _ _ => s.refuse .busy

/-- The loader's share of a restart (R197): a write already sent is finished by the memory itself, and the activity becomes
IDLE. -/
def State.abandonLoader (s : State) : State :=
  let a := match s.loader.activity with
    | .saving list step _ => s.commitPage list step
    | .idle => s
    | .loading _ => s
    | .reloading _ => s
  a.putLoader { a.loader with activity := .idle }

end Sys2Proof.Machine
end

