-- ==== Sys2Proof/Machine/Reset.lean ====
section
/-! DEFINITION. Power-on reset, the rise of PORn, and the restart of every block (R193, R197). -/
namespace Sys2Proof.Machine

/-! ## Power-on reset (R193) -/

/-- The memory when PORn falls: a write of a SAVE then in progress did not finish (log entry 6). -/
def State.breakOff (s : State) : State :=
  match s.loader.activity with
  | .saving _ step _ => s.spoilPage step
  | .idle => s
  | .loading _ => s
  | .reloading _ => s

/-- Power-on reset (R193): every block in its initial state. The clock, the pins, the link state the PHY reports, the
configuration memory and the queue of commands are not the part's to clear. -/
def State.powerOnReset (s : State) : State :=
  let a := s.breakOff
  { a with
    porn := false
    su := resetSteering
    up := resetUplink a.straps a.up.linkUp
    lines := a.lines.map (fun l => resetLine l.rxd a.now)
    streams := Tab.fill 8 resetStream
    lease := 120
    matcher := resetMatcher
    power := a.power.map (fun p => resetPower p.raw)
    watches := Tab.fill 8 resetWatch
    ports := a.ports.map (fun p => resetPort p.busPower)
    images := resetImages
    pool := resetPool
    notices := resetNotices
    loader := ⟨.loading 0, 0, 0, 0⟩ }

/-- PORn rises (R103, R193): the acquisition waits start, the quiet waits start afresh, and the load begins. -/
def State.pornRises (s : State) : State :=
  { s with
    porn := true
    lines := s.lines.map (fun l => l.toQuiet s.now)
    power := s.power.map (fun p => { p with wait := some (s.ms + p.settings.filterMs) }) }

/-! ## Restart (R197) -/

/-- The Uplink Port's share: the transmit queue emptied, the pointer at MEDIA, every promise released (R187, R197). -/
def Uplink.restart (u : Uplink) : Uplink := { u with queue := [], port := none, rotation := .media, promised := 0 }

/-- A Media Port's share: DETACHED, its request abandoned, the medium force-ejected (R138, R140). -/
def MediaPort.restart (p : MediaPort) : MediaPort :=
  { p with
    attached := false, grantBoot := false, bootFirst := false, medium := .empty, lock := false,
    changed := p.changed || decide (p.medium ≠ .empty), active := none, sense := ⟨.none, none⟩, staging := [], usb := .nothing }

/-- The Image Fetch Unit's share (R161). -/
def ImageUnit.restart (u : ImageUnit) : ImageUnit :=
  { u with
    images := Tab.fill 8 none, fetches := u.fetches.map (fun f => { f with live := none }), needs := [],
    writes := u.writes.map (fun w => { w with live := none }) }

/-- The Buffer Pool's share (R176). -/
def Pool.restart (p : Pool) : Pool := { p with extents := Tab.fill 128 none, recency := [], waiting := false }

/-- A boot-watch record's share (R119). -/
def Watch.restart (w : Watch) : Watch := w.stop

/-- The Notice Unit's share (R188, R189). -/
def Notices.restart (u : Notices) : Notices := { u with sets := Tab.fill 8 ⟨[], none⟩, part := ⟨[], none⟩ }

/-- The restart of every block (R197). The streams pass their rings to history before the extents are freed (log entry 29). -/
def State.restart (s : State) : State :=
  let a := allNodes.foldl State.restartStream (s.abandonLoader)
  { a with
    up := a.up.restart
    lines := a.lines.map (fun l => l.restart a.now)
    matcher := a.matcher.restart
    power := a.power.map (fun p => p.restart a.ms)
    watches := a.watches.map Watch.restart
    ports := a.ports.map MediaPort.restart
    images := a.images.restart
    pool := a.pool.restart
    notices := a.notices.restart }

end Sys2Proof.Machine
end

