-- ==== Sys2Proof/Machine/Frames.lean ====
section
/-! DEFINITION. A received frame from its checks at the Uplink Port to its end (R6 to R10, R146, R178, R180): the sender, the
structure, the right, the owning block and the answer. -/
namespace Sys2Proof.Machine

/-! ## Receive checks (R178) -/

/-- What the checks of R178 look at. `kind` and `version` are absent in a frame too short to hold them; `sizes` is the body
length with the number of bytes that follow the header, absent when the frame holds fewer than 8 header bytes. -/
structure RxView where
  dst : MacAddr
  vlan : Option (BitVec 12)
  ethertype : BitVec 16
  kind : Option Byte
  version : Option Byte
  sizes : Option (Nat × Nat)
  deriving DecidableEq, Repr

/-- The broadcast address. -/
def broadcast : MacAddr := 0xFFFFFFFFFFFF

/-- Check 1: the address. -/
def State.badAddress (s : State) (f : RxView) : Bool :=
  (f.dst ≠ s.up.addr && f.dst ≠ broadcast) || (f.dst == broadcast && f.kind ≠ some statusReadCode)

/-- Check 2: the VLAN. -/
def State.badVlan (s : State) (f : RxView) : Bool :=
  if s.up.vlan = 0 then f.vlan.isSome else f.vlan ≠ some s.up.vlan

/-- Check 5: the length. -/
def badLength (f : RxView) : Bool :=
  match f.sizes with
  | none => true
  | some (len, avail) => 1480 < len || avail < len

/-- The first check that fails (R178), with check 6 that a descriptor can be promised (R186). -/
def State.dropCause (s : State) (f : RxView) : Option DropCause :=
  if s.badAddress f then some .address
  else if s.badVlan f then some .vlan
  else if f.ethertype ≠ 0x88B6 then some .ethertype
  else if f.version ≠ some 1 then some .version
  else if badLength f then some .length
  else if s.up.free ≤ s.up.promised then some .room
  else none

/-- A drop counted (R178). -/
def Drops.count (d : Drops) : DropCause → Drops
  | .address => { d with address := satInc d.address }
  | .vlan => { d with vlan := satInc d.vlan }
  | .ethertype => { d with ethertype := satInc d.ethertype }
  | .version => { d with version := satInc d.version }
  | .length => { d with length := satInc d.length }
  | .room => { d with room := satInc d.room }

/-- A frame dropped for a cause. -/
def State.drop (s : State) (c : DropCause) : State := s.putUp { s.up with drops := s.up.drops.count c }

/-! ## Structure and rights (R7, R8) -/

/-- A node field that names a node or the part; `none` for 8 to 14 and for what is no node at all (log entry 22). -/
def placeOf (b : Byte) : Option SetId := if b = 15 then some none else (nodeOfByte b).map some

/-- The section a TABLE_WRITE or TABLE_READ names, in the first byte of its body. -/
def bodySection (b : List Byte) : Option Sec := b.head?.bind secOf

/-- The place a request may name (R7). -/
inductive Concern where
  | node
  | part
  | either
  deriving DecidableEq, Repr

/-- What a request concerns (R7); `none` for a table request naming no section the part has. -/
def concern (k : RequestKind) (b : List Byte) : Option Concern :=
  match k with
  | .statusRead => some .either
  | .tableWrite => (bodySection b).map (fun c => if c.ofPart then .part else .node)
  | .tableRead => (bodySection b).map (fun c => if c.ofPart then .part else .node)
  | .attach => some .node
  | .detach => some .node
  | .renew => some .node
  | .consoleInput => some .node
  | .replay => some .node
  | .powerAction => some .node
  | .clearHold => some .node
  | .bootOk => some .node
  | .mediaInsert => some .node
  | .mediaEject => some .node
  | .save => some .part
  | .reload => some .part
  | .restart => some .part

/-- The node a request acts on, or the part, if the frame passes the structure checks of R7. -/
def wellFormedFor (k : RequestKind) (node : Byte) (b : List Byte) : Option SetId :=
  match concern k b, placeOf node with
  | some .node, some (some n) => some (some n)
  | some .part, some none => some none
  | some .either, some t => some t
  | _, _ => none

/-- Station `i` holds the right a well-formed request needs (R8). An ATTACH of no known mode is held to WATCH (log entry 21). -/
def State.permitted (s : State) (i : StationIx) (k : RequestKind) (t : SetId) (b : List Byte) : Bool :=
  match t with
  | none => k = .statusRead || (s.station i).isOperator
  | some n =>
    match k with
    | .statusRead => (s.station i).holdsAny (s.su.tenants.get n) n
    | .tableWrite => if bodySection b = some .nodeLine then s.holds i n .typing else (s.station i).isOperator
    | .tableRead => if bodySection b = some .nodeLine then s.holds i n .typing else (s.station i).isOperator
    | .attach => s.holds i n .watch && (modeOf b ≠ some .typing || s.holds i n .typing)
    | .detach => s.holds i n .watch
    | .renew => s.holds i n .watch
    | .replay => s.holds i n .watch
    | .consoleInput => s.holds i n .typing
    | .powerAction => s.holds i n .power
    | .clearHold => s.holds i n .power
    | .bootOk => s.holds i n .power
    | .mediaInsert => s.holds i n .media
    | .mediaEject => s.holds i n .media
    | .save => false
    | .reload => false
    | .restart => false

/-! ## Requests of PS and MP (R88, R112, R116, R134, R136) -/

/-- A POWER_ACTION (R88): the body's code and flags, then the availability table. -/
def State.takePower (s : State) (i : StationIx) (n : NodeId) (b : List Byte) : Decision :=
  match b with
  | [code, flags] =>
    match actionOf code with
    | none => s.refuse .badRequest
    | some a =>
      let toMedia := flags.getLsbD 0
      if toMedia ∧ a ≠ .reset ∧ a ≠ .cycle then s.refuse .badRequest
      else
        let d := s.offerAction n ⟨a, .station i, toMedia, none⟩
        ⟨d.1, d.2, []⟩
  | _ => s.refuse .badRequest

/-- A CLEAR_HOLD (R116). -/
def State.takeClearHold (s : State) (n : NodeId) (b : List Byte) : Decision :=
  if b ≠ [] then s.refuse .badRequest
  else if (s.wt n).state = .held then
    ⟨s.putWatch n { s.wt n with state := .idle, count := 0, faultHeld := false }, .ok, []⟩
  else s.refuse .noEffect

/-- A BOOT_OK (R112). -/
def State.takeBootOk (s : State) (i : StationIx) (n : NodeId) (b : List Byte) : Decision :=
  if b ≠ [] then s.refuse .badRequest
  else
    match (s.wt n).state with
    | .watching => ⟨s.satisfy n (.request i), .ok, []⟩
    | .idle => s.refuse .noEffect
    | .held => s.refuse .wrongState

/-- The block size a MEDIA_INSERT gives (R134). -/
def blockSizeOf (k : Nat) : Option BlockSize := if k = 512 then some .b512 else if k = 2048 then some .b2048 else none

/-- A MEDIA_INSERT (R134). -/
def State.takeInsert (s : State) (n : NodeId) (b : List Byte) : Decision :=
  match indexOfByte (b.getD 0 0xFF), blockSizeOf (field b 5 2), bitCode (byteAt b 7) with
  | some srv, some size, some writable =>
    if b.length ≠ 8 ∨ (writable ∧ size = .b2048) then s.refuse .badRequest
    else
      let d := s.insert n srv (BitVec.ofNat 32 (field b 1 4)) size writable
      ⟨d.1, d.2, []⟩
  | _, _, _ => s.refuse .badRequest

/-- A MEDIA_EJECT (R136). -/
def State.takeEject (s : State) (i : StationIx) (n : NodeId) (b : List Byte) : Decision :=
  match b with
  | [flags] =>
    let d := s.stationEject n i (flags.getLsbD 0)
    ⟨d.1, d.2, []⟩
  | _ => s.refuse .badRequest

/-- A RESTART (R197): the body's length is checked before any block is ordered to its restart state. The promise of the RESTART
itself stays. -/
def State.takeRestart (s : State) (b : List Byte) : Decision :=
  if b ≠ [] then s.refuse .badRequest else ⟨s.restart.promise, .ok, []⟩

/-! ## The owning block (R9) -/

/-- A table request passed to the owner of its section (R9). -/
def State.passTable (s : State) (write : Bool) (node : Byte) (b : List Byte) : Decision :=
  match bodySection b with
  | none => s.refuse .badRequest
  | some c => if write then s.writeSection false c node (b.drop 1) else s.readSection c node (b.drop 1)

/-- A permitted request of a node decided by the block that owns it (R9). -/
def State.passNode (s : State) (i : StationIx) (k : RequestKind) (n : NodeId) (node : Byte) (b : List Byte) : Decision :=
  match k with
  | .statusRead => s.readStatus i (some n) b
  | .tableWrite => s.passTable true node b
  | .tableRead => s.passTable false node b
  | .attach => s.takeAttach i n b
  | .detach => s.takeDetach i n b
  | .renew => s.takeRenew i n b
  | .consoleInput => s.takeInput i n b
  | .replay => s.takeReplay i n b
  | .powerAction => s.takePower i n b
  | .clearHold => s.takeClearHold n b
  | .bootOk => s.takeBootOk i n b
  | .mediaInsert => s.takeInsert n b
  | .mediaEject => s.takeEject i n b
  | .save => s.refuse .badRequest
  | .reload => s.refuse .badRequest
  | .restart => s.refuse .badRequest

/-- A permitted request of the part decided by the block that owns it (R9). -/
def State.passPart (s : State) (i : StationIx) (k : RequestKind) (node : Byte) (b : List Byte) : Decision :=
  match k with
  | .statusRead => s.readStatus i none b
  | .tableWrite => s.passTable true node b
  | .tableRead => s.passTable false node b
  | .save => s.takeSave b
  | .reload => s.takeReload b
  | .restart => s.takeRestart b
  | .attach => s.refuse .badRequest
  | .detach => s.refuse .badRequest
  | .renew => s.refuse .badRequest
  | .consoleInput => s.refuse .badRequest
  | .replay => s.refuse .badRequest
  | .powerAction => s.refuse .badRequest
  | .clearHold => s.refuse .badRequest
  | .bootOk => s.refuse .badRequest
  | .mediaInsert => s.refuse .badRequest
  | .mediaEject => s.refuse .badRequest

/-- A request of a known station decided: structure, right, owner (R7 to R9). -/
def State.decideRequest (s : State) (i : StationIx) (k : RequestKind) (node : Byte) (b : List Byte) : Decision :=
  match wellFormedFor k node b with
  | none => s.refuse .badRequest
  | some t =>
    if !s.permitted i k t b then s.refuse .notPermitted
    else
      match t with
      | some n => s.passNode i k n node b
      | none => s.passPart i k node b

/-! ## Image-server replies (R144, R146, R151, R156) -/

/-- A reply discarded and counted late (R146). -/
def State.countLate (s : State) : State := s.putImages { s.images with late := satInc s.images.late }

/-- A reply discarded and counted foreign (R146). -/
def State.countForeign (s : State) : State := s.putImages { s.images with foreign := satInc s.images.foreign }

/-- A reply discarded and counted malformed (R146). -/
def State.countMalformed (s : State) : State := s.putImages { s.images with malformed := satInc s.images.malformed }

/-- The first case of R146: the body of a reply is malformed. Bytes after the data of an EXTENT_DATA do not make it so (R184, log
entry 39). -/
def malformed (k : ReplyKind) (b : List Byte) : Bool :=
  match k with
  | .openReply => b.length < 14
  | .extentData => b.length < 6 || 3 < byteAt b 2 || 1024 < field b 4 2 || b.length - 6 < field b 4 2
  | .writeReply => b.length < 3 || 1 < byteAt b 2

/-- Some record names station `i` as its server (R146). -/
def State.serves (s : State) (i : StationIx) : Bool :=
  allNodes.any (fun r =>
    match s.image r with
    | some x => x.server == i
    | none => false)

/-- The record an OPEN_REPLY is taken for (R144): OPENING, of this sender and image id, its open sent. -/
def State.awaiting (s : State) (i : StationIx) (img : BitVec 32) : Option (ImageIx × ImageRec) :=
  s.liveImages.find? (fun x => x.2.server == i && x.2.image == img && (match x.2.phase with
    | .opening _ sent => sent
    | .opened _ _ => false))

/-- The greatest image length, 2^41 - 1 (R143). -/
def maxLength : Nat := 2199023255551

/-- An OPEN_REPLY of a sender that serves a record (R144, R146). -/
def State.replyOpen (s : State) (i : StationIx) (b : List Byte) : State :=
  let length := field b 8 6
  match s.awaiting i (BitVec.ofNat 32 (field b 0 4)) with
  | none => s.countLate
  | some (r, x) =>
    if length = 0 ∨ maxLength < length then s.countLate
    else s.takeOpen r x (BitVec.ofNat 32 (field b 4 4)) length

/-- An EXTENT_DATA of a sender that serves a record (R146, R151). -/
def State.replyExtent (s : State) (i : StationIx) (b : List Byte) : State :=
  match indexOfByte (b.getD 0 0xFF) with
  | none => s.countLate
  | some f =>
    match (s.images.fetches.get f).live with
    | none => s.countLate
    | some l =>
      if (s.images.fetches.get f).generation.toNat ≠ byteAt b 1 then s.countLate
      else
        match s.image l.image with
        | none => s.countForeign
        | some x =>
          if x.server ≠ i then s.countForeign
          else if l.needed ≤ byteAt b 2 then s.countMalformed
          else s.takeFragment f l x (byteAt b 2) ((b.drop 6).take (field b 4 2))

/-- A WRITE_REPLY of a sender that serves a record (R146, R156). -/
def State.replyWrite (s : State) (i : StationIx) (b : List Byte) : State :=
  match nodeOfByte (b.getD 0 0xFF) with
  | none => s.countLate
  | some n =>
    match (s.images.writes.get n).live with
    | none => s.countLate
    | some w =>
      if w.phase = .sending ∨ (s.images.writes.get n).generation.toNat ≠ byteAt b 1 then s.countLate
      else
        match s.image w.image with
        | none => s.countForeign
        | some x => if x.server ≠ i then s.countForeign else s.endWrite n w (byteAt b 2 = 0)

/-- A server reply from station `i` decided (R146). -/
def State.takeReply (s : State) (i : StationIx) (k : ReplyKind) (b : List Byte) : State :=
  if malformed k b then s.countMalformed
  else if !s.serves i then s.countForeign
  else
    match k with
    | .openReply => s.replyOpen i b
    | .extentData => s.replyExtent i b
    | .writeReply => s.replyWrite i b

/-! ## Taking a frame (R6 to R10) -/

/-- A frame from an unknown station discarded and counted (R6). -/
def State.discardUnknown (s : State) : State :=
  (s.putSu { s.su with unknownSource := satInc s.su.unknownSource }).release

/-- A decided request answered (R9). -/
def Decision.answer (d : Decision) (h : Head) (kind : Byte) : State := d.state.answer h kind d.result d.body

/-- A frame from a known station while the part is COMMISSIONED (R7 to R9). -/
def State.takeKnown (s : State) (i : StationIx) (h : Head) (kind : Byte) (b : List Byte) : State :=
  match kindClass kind with
  | .outbound => s.release
  | .undefined => (s.refuse .badRequest).answer h kind
  | .reply k => (s.takeReply i k b).release
  | .request k => (s.decideRequest i k h.node b).answer h kind

/-- A frame from a known station while the part is COMMISSIONING, other than a commissioning write (R10). -/
def State.takeKnownEarly (s : State) (i : StationIx) (h : Head) (kind : Byte) (b : List Byte) : State :=
  match kindClass kind with
  | .outbound => s.release
  | .undefined => (s.refuse .badRequest).answer h kind
  | .reply k => (s.takeReply i k b).release
  | .request _ => (s.refuse .wrongState).answer h kind

/-- A frame is a commissioning write (R10): a TABLE_WRITE of the STATION section of an IN_USE entry of class OPERATOR whose
address is the frame's own source. -/
def isCommissioningWrite (h : Head) (kind : Byte) (b : List Byte) : Bool :=
  kind == RequestKind.tableWrite.code && bodySection b == some .station && 13 ≤ b.length && byteAt b 2 == 1 && byteAt b 3 == 1
    && BitVec.ofNat 48 (field b 7 6) == h.src

/-- A commissioning write checked and applied (R10 to R12). -/
def State.commission (s : State) (h : Head) (b : List Byte) : Decision :=
  if h.node ≠ 15 then s.refuse .badRequest
  else
    let d := s.writeStation (b.drop 1)
    if d.result = .ok then
      { d with state := (d.state.putSu { d.state.su with commissioning := .commissioned }).raise none .commissioned }
    else d

/-- A frame that has passed the receive checks, its answer promised (R6, R10). -/
def State.steer (s : State) (h : Head) (kind : Byte) (b : List Byte) : State :=
  if s.su.commissioning = .commissioned then
    match s.findStation h.src with
    | none => s.discardUnknown
    | some i => s.takeKnown i h kind b
  else if isCommissioningWrite h kind b then (s.commission h b).answer h kind
  else
    match s.findStation h.src with
    | none => s.discardUnknown
    | some i => s.takeKnownEarly i h kind b

/-- A frame as its receive checks see it. -/
def headView (h : Head) (kind : Byte) (bytes : List Byte) : RxView :=
  ⟨h.dst, h.vlan, h.ethertype, some kind, some h.version, some (h.len.toNat, bytes.length)⟩

/-- A frame arrives (R178, R186): nothing before the MAC is enabled; dropped and counted at the first check that fails; else
promised an answer and steered with its body. `bytes` follow the header. -/
def State.receive (s : State) (h : Head) (kind : Byte) (bytes : List Byte) : State :=
  if !s.up.macEnabled then s
  else
    match s.dropCause (headView h kind bytes) with
    | some c => s.drop c
    | none => s.promise.steer h kind (bytes.take h.len.toNat)

/-- The service header and the bytes after it, in a frame that holds 8 header bytes (R179). -/
def parseFrame (f : RawFrame) : Option (Head × Byte × List Byte) :=
  match f.payload with
  | version :: kind :: node :: result :: t1 :: t0 :: l1 :: l0 :: rest =>
    some (⟨f.dst, f.src, f.vlan, f.ethertype, version, node, result, t1 ++ t0, l1 ++ l0⟩, kind, rest)
  | _ => none

/-- A frame too short for a service header, as its receive checks see it. -/
def shortView (f : RawFrame) : RxView := ⟨f.dst, f.vlan, f.ethertype, f.payload[1]?, f.payload[0]?, none⟩

/-- A frame as the MAC delivers it (R178). -/
def State.receiveRaw (s : State) (f : RawFrame) : State :=
  match parseFrame f with
  | some (h, kind, bytes) => s.receive h kind bytes
  | none =>
    if !s.up.macEnabled then s
    else
      match s.dropCause (shortView f) with
      | some c => s.drop c
      | none => s

end Sys2Proof.Machine
end

