-- ==== Sys2Proof/Machine/TableCommands.lean ====
section
/-! DEFINITION. The table commands: TABLE_WRITE and TABLE_READ of the nine sections. -/
namespace Sys2Proof.Machine

/-- TABLE_WRITE of the STATION section (R11 to R14). -/
def execTableWriteStation (h : Head) (bytes : List Byte) (s : State) : Host.Outcome State Fault Refusal :=
  s.whenRunning (·.receive h 0x02 (0x01 :: bytes))

/-- TABLE_WRITE of the NODE_TENANT section (R16, R17). -/
def execTableWriteNodeTenant (h : Head) (bytes : List Byte) (s : State) : Host.Outcome State Fault Refusal :=
  s.whenRunning (·.receive h 0x02 (0x02 :: bytes))

/-- TABLE_WRITE of the NODE_LINE section (R22, R23). -/
def execTableWriteNodeLine (h : Head) (bytes : List Byte) (s : State) : Host.Outcome State Fault Refusal :=
  s.whenRunning (·.receive h 0x02 (0x03 :: bytes))

/-- TABLE_WRITE of the NODE_POWER section (R100). -/
def execTableWriteNodePower (h : Head) (bytes : List Byte) (s : State) : Host.Outcome State Fault Refusal :=
  s.whenRunning (·.receive h 0x02 (0x04 :: bytes))

/-- TABLE_WRITE of the NODE_WATCH section (R107, R108). -/
def execTableWriteNodeWatch (h : Head) (bytes : List Byte) (s : State) : Host.Outcome State Fault Refusal :=
  s.whenRunning (·.receive h 0x02 (0x05 :: bytes))

/-- TABLE_WRITE of the NODE_STREAM section (R66, R175). -/
def execTableWriteNodeStream (h : Head) (bytes : List Byte) (s : State) : Host.Outcome State Fault Refusal :=
  s.whenRunning (·.receive h 0x02 (0x06 :: bytes))

/-- TABLE_WRITE of the NODE_MEDIA section (R141). -/
def execTableWriteNodeMedia (h : Head) (bytes : List Byte) (s : State) : Host.Outcome State Fault Refusal :=
  s.whenRunning (·.receive h 0x02 (0x07 :: bytes))

/-- TABLE_WRITE of the PATTERN section (R81). -/
def execTableWritePattern (h : Head) (bytes : List Byte) (s : State) : Host.Outcome State Fault Refusal :=
  s.whenRunning (·.receive h 0x02 (0x08 :: bytes))

/-- TABLE_WRITE of the PART section (R183). -/
def execTableWritePart (h : Head) (bytes : List Byte) (s : State) : Host.Outcome State Fault Refusal :=
  s.whenRunning (·.receive h 0x02 (0x09 :: bytes))

/-- TABLE_READ of the STATION section (R15). -/
def execTableReadStation (h : Head) (bytes : List Byte) (s : State) : Host.Outcome State Fault Refusal :=
  s.whenRunning (·.receive h 0x03 (0x01 :: bytes))

/-- TABLE_READ of the NODE_TENANT section (R15). -/
def execTableReadNodeTenant (h : Head) (bytes : List Byte) (s : State) : Host.Outcome State Fault Refusal :=
  s.whenRunning (·.receive h 0x03 (0x02 :: bytes))

/-- TABLE_READ of the NODE_LINE section (R24). -/
def execTableReadNodeLine (h : Head) (bytes : List Byte) (s : State) : Host.Outcome State Fault Refusal :=
  s.whenRunning (·.receive h 0x03 (0x03 :: bytes))

/-- TABLE_READ of the NODE_POWER section (R101). -/
def execTableReadNodePower (h : Head) (bytes : List Byte) (s : State) : Host.Outcome State Fault Refusal :=
  s.whenRunning (·.receive h 0x03 (0x04 :: bytes))

/-- TABLE_READ of the NODE_WATCH section (R107). -/
def execTableReadNodeWatch (h : Head) (bytes : List Byte) (s : State) : Host.Outcome State Fault Refusal :=
  s.whenRunning (·.receive h 0x03 (0x05 :: bytes))

/-- TABLE_READ of the NODE_STREAM section (R66). -/
def execTableReadNodeStream (h : Head) (bytes : List Byte) (s : State) : Host.Outcome State Fault Refusal :=
  s.whenRunning (·.receive h 0x03 (0x06 :: bytes))

/-- TABLE_READ of the NODE_MEDIA section (R141). -/
def execTableReadNodeMedia (h : Head) (bytes : List Byte) (s : State) : Host.Outcome State Fault Refusal :=
  s.whenRunning (·.receive h 0x03 (0x07 :: bytes))

/-- TABLE_READ of the PATTERN section (R82). -/
def execTableReadPattern (h : Head) (bytes : List Byte) (s : State) : Host.Outcome State Fault Refusal :=
  s.whenRunning (·.receive h 0x03 (0x08 :: bytes))

/-- TABLE_READ of the PART section (R183). -/
def execTableReadPart (h : Head) (bytes : List Byte) (s : State) : Host.Outcome State Fault Refusal :=
  s.whenRunning (·.receive h 0x03 (0x09 :: bytes))

end Sys2Proof.Machine
end

