-- ==== Sys2Proof/Machine/RequestCommands.lean ====
section
/-! DEFINITION. The commands that arrive as service frames, other than those of the tables: requests, image-server replies, and frames that fail a check. -/
namespace Sys2Proof.Machine

/-- A frame meets the receive checks (R178); one that passes them is taken by its kind. -/
def execFrameDropped (f : RawFrame) (s : State) : Host.Outcome State Fault Refusal :=
  s.whenRunning (·.receiveRaw f)

/-- A frame of a kind byte that no other command fixes (R7). -/
def execUndefinedKind (h : Head) (kind : Byte) (bytes : List Byte) (s : State) : Host.Outcome State Fault Refusal :=
  s.whenRunning (·.receive h kind bytes)

/-- STATUS_READ (R185). -/
def execStatusRead (h : Head) (bytes : List Byte) (s : State) : Host.Outcome State Fault Refusal :=
  s.whenRunning (·.receive h 0x01 bytes)

/-- ATTACH (R55). -/
def execAttach (h : Head) (bytes : List Byte) (s : State) : Host.Outcome State Fault Refusal :=
  s.whenRunning (·.receive h 0x04 bytes)

/-- DETACH (R56). -/
def execDetach (h : Head) (bytes : List Byte) (s : State) : Host.Outcome State Fault Refusal :=
  s.whenRunning (·.receive h 0x05 bytes)

/-- RENEW (R57). -/
def execRenew (h : Head) (bytes : List Byte) (s : State) : Host.Outcome State Fault Refusal :=
  s.whenRunning (·.receive h 0x06 bytes)

/-- CONSOLE_INPUT (R62 to R65). -/
def execConsoleInput (h : Head) (bytes : List Byte) (s : State) : Host.Outcome State Fault Refusal :=
  s.whenRunning (·.receive h 0x07 bytes)

/-- REPLAY (R58). -/
def execReplay (h : Head) (bytes : List Byte) (s : State) : Host.Outcome State Fault Refusal :=
  s.whenRunning (·.receive h 0x08 bytes)

/-- POWER_ACTION of action POWER_ON (R88, R90). -/
def execPowerOn (h : Head) (bytes : List Byte) (s : State) : Host.Outcome State Fault Refusal :=
  s.whenRunning (·.receive h 0x09 (0x00 :: bytes))

/-- POWER_ACTION of action SOFT_OFF (R88, R91). -/
def execSoftOff (h : Head) (bytes : List Byte) (s : State) : Host.Outcome State Fault Refusal :=
  s.whenRunning (·.receive h 0x09 (0x01 :: bytes))

/-- POWER_ACTION of action HARD_OFF (R88, R89, R92). -/
def execHardOff (h : Head) (bytes : List Byte) (s : State) : Host.Outcome State Fault Refusal :=
  s.whenRunning (·.receive h 0x09 (0x02 :: bytes))

/-- POWER_ACTION of action RESET (R88, R93). -/
def execReset (h : Head) (bytes : List Byte) (s : State) : Host.Outcome State Fault Refusal :=
  s.whenRunning (·.receive h 0x09 (0x03 :: bytes))

/-- POWER_ACTION of action CYCLE (R88, R93). -/
def execCycle (h : Head) (bytes : List Byte) (s : State) : Host.Outcome State Fault Refusal :=
  s.whenRunning (·.receive h 0x09 (0x04 :: bytes))

/-- CLEAR_HOLD (R116). -/
def execClearHold (h : Head) (bytes : List Byte) (s : State) : Host.Outcome State Fault Refusal :=
  s.whenRunning (·.receive h 0x0A bytes)

/-- BOOT_OK (R112). -/
def execBootOk (h : Head) (bytes : List Byte) (s : State) : Host.Outcome State Fault Refusal :=
  s.whenRunning (·.receive h 0x0B bytes)

/-- MEDIA_INSERT (R134, R135). -/
def execMediaInsert (h : Head) (bytes : List Byte) (s : State) : Host.Outcome State Fault Refusal :=
  s.whenRunning (·.receive h 0x0C bytes)

/-- MEDIA_EJECT (R136). -/
def execMediaEject (h : Head) (bytes : List Byte) (s : State) : Host.Outcome State Fault Refusal :=
  s.whenRunning (·.receive h 0x0D bytes)

/-- SAVE (R195). -/
def execSave (h : Head) (bytes : List Byte) (s : State) : Host.Outcome State Fault Refusal :=
  s.whenRunning (·.receive h 0x0E bytes)

/-- RELOAD (R196). -/
def execReload (h : Head) (bytes : List Byte) (s : State) : Host.Outcome State Fault Refusal :=
  s.whenRunning (·.receive h 0x0F bytes)

/-- RESTART (R197). -/
def execRestart (h : Head) (bytes : List Byte) (s : State) : Host.Outcome State Fault Refusal :=
  s.whenRunning (·.receive h 0x10 bytes)

/-- OPEN_REPLY (R144, R146). -/
def execOpenReply (h : Head) (bytes : List Byte) (s : State) : Host.Outcome State Fault Refusal :=
  s.whenRunning (·.receive h 0x20 bytes)

/-- EXTENT_DATA (R146, R151). -/
def execExtentData (h : Head) (bytes : List Byte) (s : State) : Host.Outcome State Fault Refusal :=
  s.whenRunning (·.receive h 0x21 bytes)

/-- WRITE_REPLY (R146, R156). -/
def execWriteReply (h : Head) (bytes : List Byte) (s : State) : Host.Outcome State Fault Refusal :=
  s.whenRunning (·.receive h 0x22 bytes)

end Sys2Proof.Machine
end

