-- ==== Sys2Proof/Machine/UplinkCommands.lean ====
section
/-! DEFINITION. The commands of the uplink's transmit side and of the part as a whole: reset, the record read, the transmit port
and the link, the notice gap timers and the page writes. -/
namespace Sys2Proof.Machine

/-! ## The part (R193) -/

/-- PORn is held low (R193). -/
def execPowerOnReset (s : State) : Host.Outcome State Fault Refusal := .next s.powerOnReset

/-- PORn rises (R193); nothing while it is high. -/
def execPornRise (s : State) : Host.Outcome State Fault Refusal := .next (if s.porn then s else s.pornRises)

/-- The loader takes the next record (R191, R192); nothing while it reads no list. -/
def execRecordRead (s : State) : Host.Outcome State Fault Refusal := s.whenRunning State.readRecord

/-! ## The transmit port (R187) -/

/-- The frame in the port leaves: its descriptor becomes free (R186). -/
def State.transmit (s : State) : State :=
  match s.up.port with
  | some f =>
    if s.up.linkUp then
      (s.putUp { s.up with port := none, lastSent := some (s.up.wire f) }).descriptorFreed
    else s
  | none => s

/-- The frame at the head is discarded while the link is DOWN (R187). -/
def State.discardHead (s : State) : State :=
  match s.up.port with
  | some _ =>
    if s.up.linkUp then s
    else (s.putUp { s.up with port := none, linkDiscards := satInc s.up.linkDiscards }).descriptorFreed
  | none => s

/-- The PHY reports the link's state (R187). -/
def State.setLink (s : State) (up : Bool) : State := s.putUp { s.up with linkUp := up }

/-- FRAME_TRANSMITTED (R187); nothing while the port is idle or the link DOWN. -/
def execFrameTransmitted (s : State) : Host.Outcome State Fault Refusal := s.whenRunning State.transmit

/-- LINK_DISCARD (R187); nothing while the port is idle or the link UP. -/
def execLinkDiscard (s : State) : Host.Outcome State Fault Refusal := s.whenRunning State.discardHead

/-- LINK_STATE_CHANGE (R187). The report is the PHY's, so it is taken while PORn is low too. -/
def execLinkStateChange (up : Bool) (s : State) : Host.Outcome State Fault Refusal := .next (s.setLink up)

/-! ## Notice gap timers (R189) -/

/-- The gap timer of a set expires: it is stopped, and the slot is decided when the step ends. -/
def State.gapExpires (s : State) (id : SetId) : State :=
  match (s.pendingSet id).gap with
  | some d => (s.reachMs d).putSet id { s.pendingSet id with gap := none }
  | none => s

/-- GAP_TIMER_EXPIRY (R189); nothing while the timer is stopped. -/
def execGapTimerExpiry (id : SetId) (s : State) : Host.Outcome State Fault Refusal := s.whenRunning (·.gapExpires id)

/-! ## Page writes (R195) -/

/-- The memory reports the write of a SAVE finished. -/
def State.pageFinished (s : State) : State :=
  match s.loader.activity with
  | .saving list step _ => s.pageDone list step
  | .idle => s
  | .loading _ => s
  | .reloading _ => s

/-- 50 ms pass without the memory's report. -/
def State.pageExpires (s : State) : State :=
  match s.loader.activity with
  | .saving _ step d => (s.reachMs d).pageFailed step
  | .idle => s
  | .loading _ => s
  | .reloading _ => s

/-- PAGE_WRITE_FINISHED (R195); nothing while no SAVE runs. -/
def execPageWriteFinished (s : State) : Host.Outcome State Fault Refusal := s.whenRunning State.pageFinished

/-- PAGE_WRITE_TIMEOUT (R195); nothing while no SAVE runs. -/
def execPageWriteTimeout (s : State) : Host.Outcome State Fault Refusal := s.whenRunning State.pageExpires

end Sys2Proof.Machine
end

