-- ==== Sys2Proof/Machine/LineCommands.lean ====
section
/-! DEFINITION. The commands of the console lines and streams: the receiver, the transmitter, and the stream's timers. A timer's
expiry moves the clock to its deadline; while the timer is stopped it changes nothing. -/
namespace Sys2Proof.Machine

/-! ## The receiver (R28 to R32) -/

/-- RXD falls in READY: a character begins, and 2c from here would make it a break (R28, R30). -/
def State.startBit (s : State) (n : NodeId) : State :=
  let l := s.lines.get n
  match l.receiver with
  | .ready => s.putLine n { l with rxd := false, receiver := .character (s.now + 2 * l.charTime) }
  | .quiet _ => s
  | .character _ => s
  | .lowHold _ => s
  | .brk => s

/-- RXD is high at the middle of the start bit (R28). -/
def State.falseStart (s : State) (n : NodeId) : State :=
  let l := s.lines.get n
  match l.receiver with
  | .character _ => s.putLine n { l with rxd := true, receiver := .ready }
  | .ready => s
  | .quiet _ => s
  | .lowHold _ => s
  | .brk => s

/-- The stop bit is sampled (R29, R30); its level is RXD's. -/
def State.stopSample (s : State) (n : NodeId) (data : Byte) (parity stop : Bool) : State :=
  let l := s.lines.get n
  match l.receiver with
  | .character d =>
    if l.breakCandidate data parity stop then s.putLine n { l with rxd := stop, receiver := .lowHold d }
    else (s.putLine n { l with rxd := stop, receiver := .ready }).handChar n (l.frame data parity stop)
  | .ready => s
  | .quiet _ => s
  | .lowHold _ => s
  | .brk => s

/-- RXD rises in LOW_HOLD: the candidate was a character of value 0 (R30). -/
def State.lowRise (s : State) (n : NodeId) : State :=
  let l := s.lines.get n
  match l.receiver with
  | .lowHold _ => (s.putLine n { l with rxd := true, receiver := .ready }).handChar n (l.frame 0 false false)
  | .ready => s
  | .quiet _ => s
  | .character _ => s
  | .brk => s

/-- RXD is still low 2c after the start edge: a break is handed on (R30). -/
def State.breakBegins (s : State) (n : NodeId) : State :=
  let l := s.lines.get n
  match l.receiver with
  | .lowHold d => ((s.reachUs d).putLine n { l with receiver := .brk }).offerMatched n .brk
  | .ready => s
  | .quiet _ => s
  | .character _ => s
  | .brk => s

/-- RXD rises in BREAK (R28, R31). -/
def State.breakEnds (s : State) (n : NodeId) : State :=
  let l := s.lines.get n
  match l.receiver with
  | .brk => s.putLine n (({ l with rxd := true } : Line).toQuiet s.now)
  | .ready => s
  | .quiet _ => s
  | .character _ => s
  | .lowHold _ => s

/-- RXD has been high for one character time in QUIET (R31). -/
def State.quietEnds (s : State) (n : NodeId) : State :=
  let l := s.lines.get n
  match l.receiver with
  | .quiet (some d) => (s.reachUs d).putLine n { l with receiver := .ready }
  | .quiet none => s
  | .ready => s
  | .character _ => s
  | .lowHold _ => s
  | .brk => s

/-- RXD falls or rises. In QUIET the wait stops, or starts again (R28, R31). In CHARACTER, and in READY after a stop bit sampled
low, the level alone is noted, for a quiet wait that starts later (log entry 33). The other edges have rows of their own. -/
def State.quietEdge (s : State) (n : NodeId) (high : Bool) : State :=
  let l := s.lines.get n
  match l.receiver with
  | .quiet _ => if l.rxd = high then s else s.putLine n (({ l with rxd := high } : Line).toQuiet s.now)
  | .ready => s.putLine n { l with rxd := l.rxd || high }
  | .character _ => s.putLine n { l with rxd := high }
  | .lowHold _ => s
  | .brk => s

/-- START_BIT (R28); nothing unless the receiver is READY. -/
def execStartBit (n : NodeId) (s : State) : Host.Outcome State Fault Refusal := s.whenRunning (·.startBit n)

/-- FALSE_START (R28); nothing unless the receiver is in CHARACTER. -/
def execFalseStart (n : NodeId) (s : State) : Host.Outcome State Fault Refusal := s.whenRunning (·.falseStart n)

/-- CHARACTER_FRAMED (R29, R30); nothing unless the receiver is in CHARACTER. -/
def execCharacterFramed (n : NodeId) (data : Byte) (parityBit stopBit : Bool) (s : State) : Host.Outcome State Fault Refusal :=
  s.whenRunning (·.stopSample n data parityBit stopBit)

/-- LOW_HOLD_RISE (R30); nothing unless the receiver is in LOW_HOLD. -/
def execLowHoldRise (n : NodeId) (s : State) : Host.Outcome State Fault Refusal := s.whenRunning (·.lowRise n)

/-- BREAK_DETECTED (R30); nothing unless the receiver is in LOW_HOLD. -/
def execBreakDetected (n : NodeId) (s : State) : Host.Outcome State Fault Refusal := s.whenRunning (·.breakBegins n)

/-- BREAK_END (R31); nothing unless the receiver is in BREAK. -/
def execBreakEnd (n : NodeId) (s : State) : Host.Outcome State Fault Refusal := s.whenRunning (·.breakEnds n)

/-- QUIET_ELAPSED (R31); nothing unless a quiet wait runs. -/
def execQuietElapsed (n : NodeId) (s : State) : Host.Outcome State Fault Refusal := s.whenRunning (·.quietEnds n)

/-- QUIET_WAIT_RESTART (R31). The edge is the pin's, so its level is taken while PORn is low too. -/
def execQuietWaitRestart (n : NodeId) (high : Bool) (s : State) : Host.Outcome State Fault Refusal :=
  if s.porn then s.whenRunning (·.quietEdge n high) else .next (s.quietEdge n high)

/-! ## The transmitter (R40, R41) -/

/-- The last stop bit of a character has been sent (R40). -/
def State.charSent (s : State) (n : NodeId) : State :=
  let l := s.lines.get n
  match l.transmitter with
  | .sending _ _ _ => s.putLine n (l.next s.now)
  | .idle => s
  | .breakLow _ => s
  | .breakHigh _ => s

/-- The break length has passed: TXD goes high for one character time (R41). -/
def State.breakRises (s : State) (n : NodeId) : State :=
  let l := s.lines.get n
  match l.transmitter with
  | .breakLow d =>
    let a := s.reachUs d
    a.putLine n { l with transmitter := .breakHigh (a.now + l.charTime) }
  | .idle => s
  | .sending _ _ _ => s
  | .breakHigh _ => s

/-- The high time of a break has passed (R41). -/
def State.breakSent (s : State) (n : NodeId) : State :=
  let l := s.lines.get n
  match l.transmitter with
  | .breakHigh d =>
    let a := s.reachUs d
    a.putLine n (l.next a.now)
  | .idle => s
  | .sending _ _ _ => s
  | .breakLow _ => s

/-- CHARACTER_SENT (R40); nothing unless the transmitter is SENDING. -/
def execCharacterSent (n : NodeId) (s : State) : Host.Outcome State Fault Refusal := s.whenRunning (·.charSent n)

/-- BREAK_LOW_END (R41); nothing unless the transmitter is in BREAK_LOW. -/
def execBreakLowEnd (n : NodeId) (s : State) : Host.Outcome State Fault Refusal := s.whenRunning (·.breakRises n)

/-- BREAK_HIGH_END (R41); nothing unless the transmitter is in BREAK_HIGH. -/
def execBreakHighEnd (n : NodeId) (s : State) : Host.Outcome State Fault Refusal := s.whenRunning (·.breakSent n)

/-! ## The stream's timers (R50, R57, R63) -/

/-- The flush timer expires: a batch is due if the ring holds entries (R50). -/
def State.flushExpires (s : State) (n : NodeId) : State :=
  let t := s.streams.get n
  match t.flush with
  | some d => ((s.reachUs d).putStream n { t with flush := none, batchDue := t.batchDue || !t.ring.isEmpty }).testBatch n
  | none => s

/-- The lease of station `i`'s attachment passes: it is removed and ATTACH_EXPIRED raised (R57). -/
def State.leaseExpires (s : State) (n : NodeId) (i : StationIx) : State :=
  match (s.streams.get n).att i with
  | some a => ((s.reachMs a.lease).detach n i).raise (some n) (.attachExpired i)
  | none => s

/-- The escape window of station `i`'s attachment passes: the held byte is offered to the line (R63). -/
def State.windowExpires (s : State) (n : NodeId) (i : StationIx) : State :=
  let t := s.streams.get n
  match (t.att i).bind Attachment.escape with
  | some d => ((s.reachMs d).setEscape i n none).releaseByte n t.settings.escapeByte
  | none => s

/-- FLUSH_TIMER_EXPIRY (R50); nothing while the timer is stopped. -/
def execFlushTimerExpiry (n : NodeId) (s : State) : Host.Outcome State Fault Refusal := s.whenRunning (·.flushExpires n)

/-- LEASE_EXPIRY (R57); nothing while the station is not attached. -/
def execLeaseExpiry (n : NodeId) (i : StationIx) (s : State) : Host.Outcome State Fault Refusal := s.whenRunning (·.leaseExpires n i)

/-- ESCAPE_WINDOW_EXPIRY (R63); nothing while no escape byte is held. -/
def execEscapeWindowExpiry (n : NodeId) (i : StationIx) (s : State) : Host.Outcome State Fault Refusal :=
  s.whenRunning (·.windowExpires n i)

end Sys2Proof.Machine
end

