-- ==== Sys2Proof/Machine/PowerCommands.lean ====
section
/-! DEFINITION. The commands of the Power Sequencer: the PGOOD pin and its filter, the phase timers, the reattach timer and the
watch timer. A timer's expiry moves the clock to its deadline; while the timer is stopped it changes nothing. -/
namespace Sys2Proof.Machine

/-! ## PGOOD (R85) -/

/-- The raw level of PGOOD is reported (R85). -/
def State.pgoodLevel (s : State) (n : NodeId) (high : Bool) : State :=
  let p := s.pw n
  s.putPower n (({ p with raw := high } : Power).rewait s.ms (p.raw != high))

/-- The filter's wait expires (R85). -/
def State.filterExpires (s : State) (n : NodeId) : State :=
  match (s.pw n).wait with
  | some d => (s.reachMs d).filterDelivers n
  | none => s

/-- PGOOD_LEVEL_CHANGE (R85). While PORn is low only the pin's level is taken: the filter's wait starts at the release of PORn
(R103). -/
def execPgoodLevelChange (n : NodeId) (high : Bool) (s : State) : Host.Outcome State Fault Refusal :=
  if s.porn then s.whenRunning (·.pgoodLevel n high) else .next (s.putPower n { s.pw n with raw := high })

/-- PGOOD_FILTER_EXPIRY (R85, R87, R90 to R94); nothing while the wait timer is stopped. -/
def execPgoodFilterExpiry (n : NodeId) (s : State) : Host.Outcome State Fault Refusal := s.whenRunning (·.filterExpires n)

/-! ## The phase timer (R89 to R93) -/

/-- The phase timer expires in a phase that `applies`: the clock moves to its deadline and the phase ends as `f` says. -/
def State.phaseEnds (s : State) (n : NodeId) (applies : Power → Bool) (f : State → State) : State :=
  match (s.pw n).phase with
  | some d => if applies (s.pw n) then f (s.reachMs d) else s
  | none => s

/-- The press of STARTING or SOFT_STOPPING (R90, R91). -/
def Power.pressing (p : Power) : Bool := p.button && (p.state == .starting || p.state == .softStopping)

/-- PRESS_WIDTH_EXPIRY (R90, R91); nothing outside a press. -/
def execPressWidthExpiry (n : NodeId) (s : State) : Host.Outcome State Fault Refusal :=
  s.whenRunning (fun a => a.phaseEnds n Power.pressing (·.pressEnds n))

/-- ON_TIMEOUT_EXPIRY (R90); nothing outside the wait of STARTING. -/
def execOnTimeoutExpiry (n : NodeId) (s : State) : Host.Outcome State Fault Refusal :=
  s.whenRunning (fun a => a.phaseEnds n (fun p => p.state == .starting && !p.button)
    (fun b => b.enterOff n .onFailed (b.pw n).action))

/-- SOFT_OFF_TIMEOUT_EXPIRY (R91); nothing outside the wait of SOFT_STOPPING. -/
def execSoftOffTimeoutExpiry (n : NodeId) (s : State) : Host.Outcome State Fault Refusal :=
  s.whenRunning (fun a => a.phaseEnds n (fun p => p.state == .softStopping && !p.button)
    (fun b => b.enterOn n .softOffFailed false false))

/-- HOLD_WIDTH_EXPIRY (R92); nothing outside HARD_STOPPING. -/
def execHoldWidthExpiry (n : NodeId) (s : State) : Host.Outcome State Fault Refusal :=
  s.whenRunning (fun a => a.phaseEnds n (fun p => p.state == .hardStopping) (fun b => b.enterOn n .hardOffFailed false false))

/-- RESET_WIDTH_EXPIRY (R93); nothing outside RESETTING. -/
def execResetWidthExpiry (n : NodeId) (s : State) : Host.Outcome State Fault Refusal :=
  s.whenRunning (fun a => a.phaseEnds n (fun p => p.state == .resetting) (fun b => b.enterOn n .resetDone false true))

/-- DWELL_EXPIRY (R93); nothing outside DWELLING. -/
def execDwellExpiry (n : NodeId) (s : State) : Host.Outcome State Fault Refusal :=
  s.whenRunning (fun a => a.phaseEnds n (fun p => p.state == .dwelling) (fun b => b.beginStarting n (b.pw n).action))

/-- The released tick of a preempting HARD_OFF ends (R89). -/
def State.tickExpires (s : State) (n : NodeId) : State :=
  match (s.pw n).tick with
  | some d => if (s.pw n).state = .hardStopping then (s.reachMs d).tickEnds n else s
  | none => s

/-- RELEASED_TICK_END (R89); nothing outside a released tick. -/
def execReleasedTickEnd (n : NodeId) (s : State) : Host.Outcome State Fault Refusal := s.whenRunning (·.tickExpires n)

/-! ## Permission and watch (R96, R113) -/

/-- The reattach timer expires (R96). -/
def State.reattachExpires (s : State) (n : NodeId) : State :=
  match (s.pw n).reattach with
  | some d => (s.reachMs d).grantPort n
  | none => s

/-- The watch timer expires in WATCHING (R113). -/
def State.watchExpires (s : State) (n : NodeId) : State :=
  match (s.wt n).timer with
  | some d => if (s.wt n).state = .watching then (s.reachMs d).fail n .expiry else s
  | none => s

/-- REATTACH_TIMER_EXPIRY (R96); nothing while the timer is stopped. -/
def execReattachTimerExpiry (n : NodeId) (s : State) : Host.Outcome State Fault Refusal := s.whenRunning (·.reattachExpires n)

/-- WATCH_TIMER_EXPIRY (R113, R114); nothing while no watch runs. -/
def execWatchTimerExpiry (n : NodeId) (s : State) : Host.Outcome State Fault Refusal := s.whenRunning (·.watchExpires n)

end Sys2Proof.Machine
end

