-- ==== Sys2Proof/Machine/MediaCommands.lean ====
section
/-! DEFINITION. The commands of the Media Ports and the Image Fetch Unit: bus power, the node's block requests and its data
phase, and the open, fetch and write timers. -/
namespace Sys2Proof.Machine

/-! ## Bus power and abort (R120, R121) -/

/-- The node's USB host supplies bus power, or no longer does (R120). -/
def State.setBusPower (s : State) (n : NodeId) (on : Bool) : State :=
  (s.putPort n { s.port n with busPower := on }).portUpdate n

/-- The node aborts its active request: sense ABORTED, and nothing more given for it (R121). -/
def State.abortRequest (s : State) (n : NodeId) : State :=
  if (s.port n).attached && (s.port n).active.isSome then ((s.dropActive n).putSense n .aborted none).give n .nothing else s

/-- BUS_POWER_CHANGE (R120). The level is the node's, so it is taken while PORn is low too, when no port attaches. -/
def execBusPowerChange (n : NodeId) (on : Bool) (s : State) : Host.Outcome State Fault Refusal :=
  if s.porn then s.whenRunning (·.setBusPower n on) else .next (s.putPort n { s.port n with busPower := on })

/-- NODE_ABORT (R121); nothing while no request is active. -/
def execNodeAbort (n : NodeId) (s : State) : Host.Outcome State Fault Refusal := s.whenRunning (·.abortRequest n)

/-! ## Block requests (R121, R125, R126, R128, R131, R137) -/

/-- A block request presented to the port of node `n`: taken only while ATTACHED with no request active (R121). -/
def State.offerRequest (s : State) (n : NodeId) (f : State → State) : State := if s.takesRequest n then f s else s

/-- A request that is none of the port's (R121). -/
def execUndefinedBlockRequest (n : NodeId) (s : State) : Host.Outcome State Fault Refusal :=
  s.whenRunning (·.offerRequest n (·.status n .badRequest none))

/-- IDENTIFY answered (R125). -/
def State.answerIdentify (s : State) (n : NodeId) : State :=
  (s.putSense n .none none).give n (.identify "Ancitra" "Vafrel Virtual Medium" true (s.port n).bootFirst)

/-- IDENTIFY (R125). -/
def execIdentify (n : NodeId) (s : State) : Host.Outcome State Fault Refusal :=
  s.whenRunning (·.offerRequest n (·.answerIdentify n))

/-- READY answered (R125): MEDIUM_CHANGED once. -/
def State.answerReady (s : State) (n : NodeId) : State :=
  if (s.port n).medium.isPresent then
    if (s.port n).changed then (s.putPort n { s.port n with changed := false }).status n .mediumChanged none
    else s.status n .none none
  else s.status n .notReady none

/-- READY (R125). -/
def execReady (n : NodeId) (s : State) : Host.Outcome State Fault Refusal := s.whenRunning (·.offerRequest n (·.answerReady n))

/-- CAPACITY answered (R125). -/
def State.answerCapacity (s : State) (n : NodeId) : State :=
  match (s.port n).medium with
  | .present m b => (s.putSense n .none none).give n (.capacity b m.size)
  | .empty => s.status n .notReady none
  | .loading _ => s.status n .notReady none
  | .ejecting _ _ _ => s.status n .notReady none

/-- CAPACITY (R125). -/
def execCapacity (n : NodeId) (s : State) : Host.Outcome State Fault Refusal :=
  s.whenRunning (·.offerRequest n (·.answerCapacity n))

/-- SENSE answered: the record is returned, then set to NONE (R126). -/
def State.answerSense (s : State) (n : NodeId) : State := (s.give n (.senseData (s.port n).sense)).putSense n .none none

/-- SENSE (R126). -/
def execSense (n : NodeId) (s : State) : Host.Outcome State Fault Refusal := s.whenRunning (·.offerRequest n (·.answerSense n))

/-- The node lock set or cleared, with success (R126). -/
def State.setLock (s : State) (n : NodeId) (lock : Bool) : State :=
  (s.putPort n { s.port n with lock := lock }).status n .none none

/-- PREVENT (R126). -/
def execPrevent (n : NodeId) (s : State) : Host.Outcome State Fault Refusal := s.whenRunning (·.offerRequest n (·.setLock n true))

/-- ALLOW (R126). -/
def execAllow (n : NodeId) (s : State) : Host.Outcome State Fault Refusal := s.whenRunning (·.offerRequest n (·.setLock n false))

/-- READ (R128 to R130). -/
def execRead (n : NodeId) (lba : BitVec 32) (count : BitVec 16) (s : State) : Host.Outcome State Fault Refusal :=
  s.whenRunning (·.offerRequest n (·.decideRead n lba.toNat count.toNat))

/-- WRITE (R131). -/
def execWrite (n : NodeId) (lba : BitVec 32) (count : BitVec 16) (s : State) : Host.Outcome State Fault Refusal :=
  s.whenRunning (·.offerRequest n (·.decideWrite n lba.toNat count.toNat))

/-- EJECT_BY_NODE (R137). -/
def execEjectByNode (n : NodeId) (s : State) : Host.Outcome State Fault Refusal := s.whenRunning (·.offerRequest n (·.nodeEject n))

/-- DATA_POLL (R122, R129); nothing while no data phase runs. -/
def execDataPoll (n : NodeId) (room : Nat) (s : State) : Host.Outcome State Fault Refusal := s.whenRunning (·.poll n room)

/-- WRITE_DATA_RECEIVED (R131); nothing while no WRITE is active. -/
def execWriteDataReceived (n : NodeId) (data : List Byte) (s : State) : Host.Outcome State Fault Refusal :=
  s.whenRunning (·.writeData n data)

/-! ## Timers of the Image Fetch Unit (R144, R153, R155) -/

/-- The open timer of a record expires in OPENING: every medium LOADING on it fails (R144). -/
def State.openExpires (s : State) (r : ImageIx) : State :=
  match s.image r with
  | some x =>
    match x.phase with
    | .opening d _ => (nodesOf x.users).foldl (fun a n => a.openFailed r n) (s.reachMs d)
    | .opened _ _ => s
  | none => s

/-- The first expiry of a fetch (R153): re-sent at once if a descriptor is free, else RETRY_WAITING. -/
def State.retryFetch (s : State) (f : FetchIx) (l : Fetch) : State :=
  let a := s.putFetch f { s.images.fetches.get f with live := some { l with second := true, timer := none } }
  if a.refetchReady f then a.refetch f else a

/-- The timer of a fetch in WAITING expires (R153). -/
def State.fetchExpires (s : State) (f : FetchIx) : State :=
  match (s.images.fetches.get f).live with
  | some l =>
    match l.timer with
    | some d => if l.second then (s.reachMs d).failFetch f l else (s.reachMs d).retryFetch f l
    | none => s
  | none => s

/-- The first expiry of a write (R155): re-sent at once if a descriptor is free, else RETRY_WAITING. -/
def State.retryWrite (s : State) (n : NodeId) (w : WriteOp) : State :=
  let a := s.putWrite n { s.images.writes.get n with live := some { w with second := true, phase := .retryWaiting } }
  if a.rewriteReady n then a.sendWrite n else a

/-- The timer of a write in WAITING expires (R155, R156). -/
def State.writeExpires (s : State) (n : NodeId) : State :=
  match (s.images.writes.get n).live with
  | some w =>
    match w.phase with
    | .waiting d => if w.second then (s.reachMs d).endWrite n w false else (s.reachMs d).retryWrite n w
    | .sending => s
    | .retryWaiting => s
  | none => s

/-- OPEN_TIMER_EXPIRY (R144); nothing unless the record is OPENING. -/
def execOpenTimerExpiry (r : ImageIx) (s : State) : Host.Outcome State Fault Refusal := s.whenRunning (·.openExpires r)

/-- FETCH_TIMER_EXPIRY (R153); nothing unless the fetch is WAITING. -/
def execFetchTimerExpiry (f : FetchIx) (s : State) : Host.Outcome State Fault Refusal := s.whenRunning (·.fetchExpires f)

/-- WRITE_TIMER_EXPIRY (R155, R156); nothing unless the write is WAITING. -/
def execWriteTimerExpiry (n : NodeId) (s : State) : Host.Outcome State Fault Refusal := s.whenRunning (·.writeExpires n)

end Sys2Proof.Machine
end

