-- ==== Sys2Proof/Machine/Dispatch.lean ====
section
/-! DEFINITION. The meaning of every command, one arm for each row of spec/opcode_table.json. -/
namespace Sys2Proof.Machine

/-- What a command does to everything but the queue of commands. -/
def exec (i : Instr) (s : State) : Host.Outcome State Fault Refusal :=
  match i with
  | .powerOnReset => Sys2Proof.Machine.execPowerOnReset s
  | .pornRise => Sys2Proof.Machine.execPornRise s
  | .recordRead => Sys2Proof.Machine.execRecordRead s
  | .frameDropped f => Sys2Proof.Machine.execFrameDropped f s
  | .undefinedKind h kind bytes => Sys2Proof.Machine.execUndefinedKind h kind bytes s
  | .statusRead h bytes => Sys2Proof.Machine.execStatusRead h bytes s
  | .tableWriteStation h bytes => Sys2Proof.Machine.execTableWriteStation h bytes s
  | .tableWriteNodeTenant h bytes => Sys2Proof.Machine.execTableWriteNodeTenant h bytes s
  | .tableWriteNodeLine h bytes => Sys2Proof.Machine.execTableWriteNodeLine h bytes s
  | .tableWriteNodePower h bytes => Sys2Proof.Machine.execTableWriteNodePower h bytes s
  | .tableWriteNodeWatch h bytes => Sys2Proof.Machine.execTableWriteNodeWatch h bytes s
  | .tableWriteNodeStream h bytes => Sys2Proof.Machine.execTableWriteNodeStream h bytes s
  | .tableWriteNodeMedia h bytes => Sys2Proof.Machine.execTableWriteNodeMedia h bytes s
  | .tableWritePattern h bytes => Sys2Proof.Machine.execTableWritePattern h bytes s
  | .tableWritePart h bytes => Sys2Proof.Machine.execTableWritePart h bytes s
  | .tableReadStation h bytes => Sys2Proof.Machine.execTableReadStation h bytes s
  | .tableReadNodeTenant h bytes => Sys2Proof.Machine.execTableReadNodeTenant h bytes s
  | .tableReadNodeLine h bytes => Sys2Proof.Machine.execTableReadNodeLine h bytes s
  | .tableReadNodePower h bytes => Sys2Proof.Machine.execTableReadNodePower h bytes s
  | .tableReadNodeWatch h bytes => Sys2Proof.Machine.execTableReadNodeWatch h bytes s
  | .tableReadNodeStream h bytes => Sys2Proof.Machine.execTableReadNodeStream h bytes s
  | .tableReadNodeMedia h bytes => Sys2Proof.Machine.execTableReadNodeMedia h bytes s
  | .tableReadPattern h bytes => Sys2Proof.Machine.execTableReadPattern h bytes s
  | .tableReadPart h bytes => Sys2Proof.Machine.execTableReadPart h bytes s
  | .attach h bytes => Sys2Proof.Machine.execAttach h bytes s
  | .detach h bytes => Sys2Proof.Machine.execDetach h bytes s
  | .renew h bytes => Sys2Proof.Machine.execRenew h bytes s
  | .consoleInput h bytes => Sys2Proof.Machine.execConsoleInput h bytes s
  | .replay h bytes => Sys2Proof.Machine.execReplay h bytes s
  | .powerOn h bytes => Sys2Proof.Machine.execPowerOn h bytes s
  | .softOff h bytes => Sys2Proof.Machine.execSoftOff h bytes s
  | .hardOff h bytes => Sys2Proof.Machine.execHardOff h bytes s
  | .reset h bytes => Sys2Proof.Machine.execReset h bytes s
  | .cycle h bytes => Sys2Proof.Machine.execCycle h bytes s
  | .clearHold h bytes => Sys2Proof.Machine.execClearHold h bytes s
  | .bootOk h bytes => Sys2Proof.Machine.execBootOk h bytes s
  | .mediaInsert h bytes => Sys2Proof.Machine.execMediaInsert h bytes s
  | .mediaEject h bytes => Sys2Proof.Machine.execMediaEject h bytes s
  | .save h bytes => Sys2Proof.Machine.execSave h bytes s
  | .reload h bytes => Sys2Proof.Machine.execReload h bytes s
  | .restart h bytes => Sys2Proof.Machine.execRestart h bytes s
  | .openReply h bytes => Sys2Proof.Machine.execOpenReply h bytes s
  | .extentData h bytes => Sys2Proof.Machine.execExtentData h bytes s
  | .writeReply h bytes => Sys2Proof.Machine.execWriteReply h bytes s
  | .frameTransmitted => Sys2Proof.Machine.execFrameTransmitted s
  | .linkDiscard => Sys2Proof.Machine.execLinkDiscard s
  | .linkStateChange up => Sys2Proof.Machine.execLinkStateChange up s
  | .characterFramed n data parityBit stopBit => Sys2Proof.Machine.execCharacterFramed n data parityBit stopBit s
  | .lowHoldRise n => Sys2Proof.Machine.execLowHoldRise n s
  | .breakDetected n => Sys2Proof.Machine.execBreakDetected n s
  | .breakEnd n => Sys2Proof.Machine.execBreakEnd n s
  | .quietElapsed n => Sys2Proof.Machine.execQuietElapsed n s
  | .characterSent n => Sys2Proof.Machine.execCharacterSent n s
  | .breakLowEnd n => Sys2Proof.Machine.execBreakLowEnd n s
  | .breakHighEnd n => Sys2Proof.Machine.execBreakHighEnd n s
  | .flushTimerExpiry n => Sys2Proof.Machine.execFlushTimerExpiry n s
  | .leaseExpiry n x => Sys2Proof.Machine.execLeaseExpiry n x s
  | .escapeWindowExpiry n x => Sys2Proof.Machine.execEscapeWindowExpiry n x s
  | .pgoodLevelChange n high => Sys2Proof.Machine.execPgoodLevelChange n high s
  | .pgoodFilterExpiry n => Sys2Proof.Machine.execPgoodFilterExpiry n s
  | .pressWidthExpiry n => Sys2Proof.Machine.execPressWidthExpiry n s
  | .onTimeoutExpiry n => Sys2Proof.Machine.execOnTimeoutExpiry n s
  | .softOffTimeoutExpiry n => Sys2Proof.Machine.execSoftOffTimeoutExpiry n s
  | .holdWidthExpiry n => Sys2Proof.Machine.execHoldWidthExpiry n s
  | .resetWidthExpiry n => Sys2Proof.Machine.execResetWidthExpiry n s
  | .dwellExpiry n => Sys2Proof.Machine.execDwellExpiry n s
  | .releasedTickEnd n => Sys2Proof.Machine.execReleasedTickEnd n s
  | .reattachTimerExpiry n => Sys2Proof.Machine.execReattachTimerExpiry n s
  | .watchTimerExpiry n => Sys2Proof.Machine.execWatchTimerExpiry n s
  | .busPowerChange n on => Sys2Proof.Machine.execBusPowerChange n on s
  | .nodeAbort n => Sys2Proof.Machine.execNodeAbort n s
  | .undefinedBlockRequest n => Sys2Proof.Machine.execUndefinedBlockRequest n s
  | .identify n => Sys2Proof.Machine.execIdentify n s
  | .ready n => Sys2Proof.Machine.execReady n s
  | .capacity n => Sys2Proof.Machine.execCapacity n s
  | .sense n => Sys2Proof.Machine.execSense n s
  | .prevent n => Sys2Proof.Machine.execPrevent n s
  | .allow n => Sys2Proof.Machine.execAllow n s
  | .read n lba count => Sys2Proof.Machine.execRead n lba count s
  | .write n lba count => Sys2Proof.Machine.execWrite n lba count s
  | .ejectByNode n => Sys2Proof.Machine.execEjectByNode n s
  | .dataPoll n room => Sys2Proof.Machine.execDataPoll n room s
  | .writeDataReceived n data => Sys2Proof.Machine.execWriteDataReceived n data s
  | .openTimerExpiry r => Sys2Proof.Machine.execOpenTimerExpiry r s
  | .fetchTimerExpiry f => Sys2Proof.Machine.execFetchTimerExpiry f s
  | .writeTimerExpiry n => Sys2Proof.Machine.execWriteTimerExpiry n s
  | .gapTimerExpiry set => Sys2Proof.Machine.execGapTimerExpiry set s
  | .pageWriteFinished => Sys2Proof.Machine.execPageWriteFinished s
  | .pageWriteTimeout => Sys2Proof.Machine.execPageWriteTimeout s
  | .startBit n => Sys2Proof.Machine.execStartBit n s
  | .falseStart n => Sys2Proof.Machine.execFalseStart n s
  | .quietWaitRestart n high => Sys2Proof.Machine.execQuietWaitRestart n high s

end Sys2Proof.Machine
end

