-- ==== Sys2Proof/Machine/Step.lean ====
section
/-! DEFINITION. One step: the command at the front of the queue, or a tick of the clock when the queue is empty. -/
namespace Sys2Proof.Machine

/-- One step. With a command waiting, `exec` runs the one at the front with the queue's rest; on an empty queue the block
idles and 1 µs passes (log entries 3 and 10). -/
def step (s : State) : Host.Outcome State Fault Refusal :=
  match s.pending with
  | [] => .next (s.reachUs (s.now + 1))
  | c :: rest => exec c (s.putPending rest)

/-- The state with the command a word spells put at the front of its queue. No row of the opcode table gives bits, so no word
spells a command and the state is unchanged. -/
def State.withFetchWord (s : State) (nbits w : Nat) : State :=
  match decodeTableWord nbits w with
  | some c => s.putPending (c :: s.pending)
  | none => s

end Sys2Proof.Machine
end

