-- ==== Sys2Proof/WellFormed.lean ====
section
/-! DEFINITION. The checks that tell a command of the opcode table from a term that no arrival at the part is. -/
namespace Sys2Proof

/-- The bytes a frame can hold after its ethertype (an Ethernet frame's payload). -/
def maxPayload : Nat := 1500

/-- The frame fits: a service header, the codes the row fixes, and the bytes. -/
def fitsFrame (codes : Nat) (bytes : List Byte) : Bool := 8 + codes + bytes.length ≤ maxPayload

/-- The code the row fixes lies within the body. -/
def codeInBody (h : Head) : Bool := 1 ≤ h.len.toNat

/-- A request or reply whose row fixes the kind alone. -/
def plainFrame (bytes : List Byte) : Bool := fitsFrame 0 bytes

/-- A request whose row also fixes the first byte of the body. -/
def codedFrame (h : Head) (bytes : List Byte) : Bool := codeInBody h && fitsFrame 1 bytes

/-- The first byte of a frame's body, if it has one. -/
def firstOfBody (h : Head) (bytes : List Byte) : Option Byte := (bytes.take h.len.toNat).head?

/-- No other row fixes the frame: its kind is not one of the nineteen, or it is a table request naming no section, or a
POWER_ACTION naming no action. -/
def kindUnclaimed (h : Head) (kind : Byte) (bytes : List Byte) : Bool :=
  match Machine.kindClass kind with
  | .outbound => true
  | .undefined => true
  | .reply _ => false
  | .request .tableWrite => ((firstOfBody h bytes).bind Machine.secOf).isNone
  | .request .tableRead => ((firstOfBody h bytes).bind Machine.secOf).isNone
  | .request .powerAction => ((firstOfBody h bytes).bind Machine.actionOf).isNone
  | .request .statusRead => false
  | .request .attach => false
  | .request .detach => false
  | .request .renew => false
  | .request .consoleInput => false
  | .request .replay => false
  | .request .clearHold => false
  | .request .bootOk => false
  | .request .mediaInsert => false
  | .request .mediaEject => false
  | .request .save => false
  | .request .reload => false
  | .request .restart => false

/-- The command is one that can arrive at the part. -/
def Instr.wellFormed : Instr → Bool
  | .frameDropped f => f.payload.length ≤ maxPayload
  | .undefinedKind h kind bytes => kindUnclaimed h kind bytes && fitsFrame 0 bytes
  | .statusRead _ bytes => plainFrame bytes
  | .tableWriteStation h bytes => codedFrame h bytes
  | .tableWriteNodeTenant h bytes => codedFrame h bytes
  | .tableWriteNodeLine h bytes => codedFrame h bytes
  | .tableWriteNodePower h bytes => codedFrame h bytes
  | .tableWriteNodeWatch h bytes => codedFrame h bytes
  | .tableWriteNodeStream h bytes => codedFrame h bytes
  | .tableWriteNodeMedia h bytes => codedFrame h bytes
  | .tableWritePattern h bytes => codedFrame h bytes
  | .tableWritePart h bytes => codedFrame h bytes
  | .tableReadStation h bytes => codedFrame h bytes
  | .tableReadNodeTenant h bytes => codedFrame h bytes
  | .tableReadNodeLine h bytes => codedFrame h bytes
  | .tableReadNodePower h bytes => codedFrame h bytes
  | .tableReadNodeWatch h bytes => codedFrame h bytes
  | .tableReadNodeStream h bytes => codedFrame h bytes
  | .tableReadNodeMedia h bytes => codedFrame h bytes
  | .tableReadPattern h bytes => codedFrame h bytes
  | .tableReadPart h bytes => codedFrame h bytes
  | .attach _ bytes => plainFrame bytes
  | .detach _ bytes => plainFrame bytes
  | .renew _ bytes => plainFrame bytes
  | .consoleInput _ bytes => plainFrame bytes
  | .replay _ bytes => plainFrame bytes
  | .powerOn h bytes => codedFrame h bytes
  | .softOff h bytes => codedFrame h bytes
  | .hardOff h bytes => codedFrame h bytes
  | .reset h bytes => codedFrame h bytes
  | .cycle h bytes => codedFrame h bytes
  | .clearHold _ bytes => plainFrame bytes
  | .bootOk _ bytes => plainFrame bytes
  | .mediaInsert _ bytes => plainFrame bytes
  | .mediaEject _ bytes => plainFrame bytes
  | .save _ bytes => plainFrame bytes
  | .reload _ bytes => plainFrame bytes
  | .restart _ bytes => plainFrame bytes
  | .openReply _ bytes => plainFrame bytes
  | .extentData _ bytes => plainFrame bytes
  | .writeReply _ bytes => plainFrame bytes
  | .dataPoll _ room => 0 < room
  | .writeDataReceived _ data => !data.isEmpty
  | .powerOnReset => true
  | .pornRise => true
  | .recordRead => true
  | .frameTransmitted => true
  | .linkDiscard => true
  | .linkStateChange _ => true
  | .characterFramed _ _ _ _ => true
  | .lowHoldRise _ => true
  | .breakDetected _ => true
  | .breakEnd _ => true
  | .quietElapsed _ => true
  | .characterSent _ => true
  | .breakLowEnd _ => true
  | .breakHighEnd _ => true
  | .flushTimerExpiry _ => true
  | .leaseExpiry _ _ => true
  | .escapeWindowExpiry _ _ => true
  | .pgoodLevelChange _ _ => true
  | .pgoodFilterExpiry _ => true
  | .pressWidthExpiry _ => true
  | .onTimeoutExpiry _ => true
  | .softOffTimeoutExpiry _ => true
  | .holdWidthExpiry _ => true
  | .resetWidthExpiry _ => true
  | .dwellExpiry _ => true
  | .releasedTickEnd _ => true
  | .reattachTimerExpiry _ => true
  | .watchTimerExpiry _ => true
  | .busPowerChange _ _ => true
  | .nodeAbort _ => true
  | .undefinedBlockRequest _ => true
  | .identify _ => true
  | .ready _ => true
  | .capacity _ => true
  | .sense _ => true
  | .prevent _ => true
  | .allow _ => true
  | .read _ _ _ => true
  | .write _ _ _ => true
  | .ejectByNode _ => true
  | .openTimerExpiry _ => true
  | .fetchTimerExpiry _ => true
  | .writeTimerExpiry _ => true
  | .gapTimerExpiry _ => true
  | .pageWriteFinished => true
  | .pageWriteTimeout => true
  | .startBit _ => true
  | .falseStart _ => true
  | .quietWaitRestart _ _ => true

end Sys2Proof
end

