-- ==== Sys2Proof/Safety.lean ====
section
/-! DEFINITION. The terms claims are stated in: what the end of a step leaves of a state, when a frame is taken, and the laws
every step keeps. -/
namespace Sys2Proof.Machine

/-! ## The end of a step

A command's own effect is a state `e`; the state after the step, `t`, differs from it only by what waiting producers, the
Notice Unit and the transmit port then do with free descriptors (log entry 4). -/

/-- An image record but for whether its IMAGE_OPEN has been queued. -/
def ImageRec.unsent (x : ImageRec) : ImageRec :=
  match x.phase with
  | .opening d _ => { x with phase := .opening d false }
  | .opened _ _ => x

/-- A write but for whether and when it has been queued. -/
def WriteOp.unsent (w : WriteOp) : WriteOp := { w with phase := .sending }

/-- A fetch but for its timer. -/
def Fetch.unsent (f : Fetch) : Fetch := { f with timer := none }

/-- Two records of a stream agree but for entries that batches have moved from the ring to history, the history, and a replay's
progress. -/
def StreamSettled (e t : Stream) : Prop :=
  t.offset = e.offset ∧ t.overrun = e.overrun ∧ t.lost = e.lost ∧ t.flush = e.flush ∧ t.atts = e.atts ∧
    t.settings = e.settings ∧ t.ring <:+ e.ring ∧ (e.atts = [] → t.ring = e.ring)

/-- The streams of two states agree so, on every node. -/
def StreamsSettled (e t : State) : Prop := ∀ n, StreamSettled (e.streams.get n) (t.streams.get n)

/-- Every frame that held a descriptor still holds one. -/
def FramesKept (e t : State) : Prop := ∀ f ∈ e.up.frames, e.up.frames.count f ≤ t.up.frames.count f

/-- The uplinks of two states agree but for frames queued and the arbiter's choice. -/
def UplinkSettled (e t : State) : Prop :=
  t.up.addr = e.up.addr ∧ t.up.vlan = e.up.vlan ∧ t.up.macEnabled = e.up.macEnabled ∧ t.up.drops = e.up.drops ∧
    t.up.promised = e.up.promised ∧ t.up.linkUp = e.up.linkUp ∧ t.up.linkDiscards = e.up.linkDiscards ∧
    t.up.lastSent = e.up.lastSent ∧ FramesKept e t

/-- The Image Fetch Units of two states agree but for which messages have been queued. -/
def ImagesSettled (e t : State) : Prop :=
  (∀ r, (t.image r).map ImageRec.unsent = (e.image r).map ImageRec.unsent) ∧
    (∀ n, (t.images.writes.get n).generation = (e.images.writes.get n).generation ∧
      (t.images.writes.get n).live.map WriteOp.unsent = (e.images.writes.get n).live.map WriteOp.unsent) ∧
    t.images.late = e.images.late ∧ t.images.foreign = e.images.foreign ∧ t.images.malformed = e.images.malformed ∧
    t.images.unsentClose = e.images.unsentClose ∧ t.images.timeout = e.images.timeout

/-- The needs and fetches of two states agree but for which re-sends have been queued. -/
def FetchesSettled (e t : State) : Prop :=
  t.images.needs = e.images.needs ∧
    ∀ f, (t.images.fetches.get f).generation = (e.images.fetches.get f).generation ∧
      (t.images.fetches.get f).live.map Fetch.unsent = (e.images.fetches.get f).live.map Fetch.unsent

/-- The members of set `id` have left: every station entitled to some has its NOTICE, which still holds its descriptor, and the
gap timer runs, or nobody was entitled to any (R189, R190). -/
def NoticeSent (e t : State) (id : SetId) : Prop :=
  (e.pendingSet id).members ≠ [] ∧ (e.pendingSet id).gap = none ∧
    t.pendingSet id = ⟨[], if e.noticeFrames id = [] then none else some (e.ms + e.notices.gapMs)⟩ ∧
    ∀ f ∈ e.noticeFrames id, f ∈ t.up.frames

/-- The pending sets of two states agree but for those that have left in notices. -/
def NoticesSettled (e t : State) : Prop :=
  t.notices.gapMs = e.notices.gapMs ∧ ∀ id, t.pendingSet id = e.pendingSet id ∨ NoticeSent e t id

/-- What free descriptors never change, even when the need list is tried. -/
def Delivers (e t : State) : Prop :=
  t.now = e.now ∧ t.porn = e.porn ∧ t.straps = e.straps ∧ t.su = e.su ∧ t.lines = e.lines ∧ t.lease = e.lease ∧
    t.matcher = e.matcher ∧ t.power = e.power ∧ t.watches = e.watches ∧ t.ports = e.ports ∧ t.loader = e.loader ∧
    t.config = e.config ∧ t.blanks = e.blanks ∧ t.pending = e.pending ∧ StreamsSettled e t ∧ UplinkSettled e t ∧
    ImagesSettled e t ∧ NoticesSettled e t

/-- `t` is what the end of a step makes of the effect `e`: everything else stands as `e` has it. -/
def Settles (e t : State) : Prop := Delivers e t ∧ t.pool = e.pool ∧ FetchesSettled e t

/-- A command completes with effect `e`. -/
def Completes (c : Instr) (s e : State) : Prop := ∃ t, exec c s = .next t ∧ Settles e t

/-! ## Frames taken -/

/-- The frame a command carries: its head, kind byte and the bytes after the service header. -/
def frameOf : Instr → Option (Head × Byte × List Byte)
  | .undefinedKind h kind bytes => some (h, kind, bytes)
  | .statusRead h bytes => some (h, 0x01, bytes)
  | .tableWriteStation h bytes => some (h, 0x02, 0x01 :: bytes)
  | .tableWriteNodeTenant h bytes => some (h, 0x02, 0x02 :: bytes)
  | .tableWriteNodeLine h bytes => some (h, 0x02, 0x03 :: bytes)
  | .tableWriteNodePower h bytes => some (h, 0x02, 0x04 :: bytes)
  | .tableWriteNodeWatch h bytes => some (h, 0x02, 0x05 :: bytes)
  | .tableWriteNodeStream h bytes => some (h, 0x02, 0x06 :: bytes)
  | .tableWriteNodeMedia h bytes => some (h, 0x02, 0x07 :: bytes)
  | .tableWritePattern h bytes => some (h, 0x02, 0x08 :: bytes)
  | .tableWritePart h bytes => some (h, 0x02, 0x09 :: bytes)
  | .tableReadStation h bytes => some (h, 0x03, 0x01 :: bytes)
  | .tableReadNodeTenant h bytes => some (h, 0x03, 0x02 :: bytes)
  | .tableReadNodeLine h bytes => some (h, 0x03, 0x03 :: bytes)
  | .tableReadNodePower h bytes => some (h, 0x03, 0x04 :: bytes)
  | .tableReadNodeWatch h bytes => some (h, 0x03, 0x05 :: bytes)
  | .tableReadNodeStream h bytes => some (h, 0x03, 0x06 :: bytes)
  | .tableReadNodeMedia h bytes => some (h, 0x03, 0x07 :: bytes)
  | .tableReadPattern h bytes => some (h, 0x03, 0x08 :: bytes)
  | .tableReadPart h bytes => some (h, 0x03, 0x09 :: bytes)
  | .attach h bytes => some (h, 0x04, bytes)
  | .detach h bytes => some (h, 0x05, bytes)
  | .renew h bytes => some (h, 0x06, bytes)
  | .consoleInput h bytes => some (h, 0x07, bytes)
  | .replay h bytes => some (h, 0x08, bytes)
  | .powerOn h bytes => some (h, 0x09, 0x00 :: bytes)
  | .softOff h bytes => some (h, 0x09, 0x01 :: bytes)
  | .hardOff h bytes => some (h, 0x09, 0x02 :: bytes)
  | .reset h bytes => some (h, 0x09, 0x03 :: bytes)
  | .cycle h bytes => some (h, 0x09, 0x04 :: bytes)
  | .clearHold h bytes => some (h, 0x0A, bytes)
  | .bootOk h bytes => some (h, 0x0B, bytes)
  | .mediaInsert h bytes => some (h, 0x0C, bytes)
  | .mediaEject h bytes => some (h, 0x0D, bytes)
  | .save h bytes => some (h, 0x0E, bytes)
  | .reload h bytes => some (h, 0x0F, bytes)
  | .restart h bytes => some (h, 0x10, bytes)
  | .openReply h bytes => some (h, 0x20, bytes)
  | .extentData h bytes => some (h, 0x21, bytes)
  | .writeReply h bytes => some (h, 0x22, bytes)
  | .powerOnReset => none
  | .pornRise => none
  | .recordRead => none
  | .frameDropped _ => none
  | .frameTransmitted => none
  | .linkDiscard => none
  | .linkStateChange _ => none
  | .characterFramed _ _ _ _ => none
  | .lowHoldRise _ => none
  | .breakDetected _ => none
  | .breakEnd _ => none
  | .quietElapsed _ => none
  | .characterSent _ => none
  | .breakLowEnd _ => none
  | .breakHighEnd _ => none
  | .flushTimerExpiry _ => none
  | .leaseExpiry _ _ => none
  | .escapeWindowExpiry _ _ => none
  | .pgoodLevelChange _ _ => none
  | .pgoodFilterExpiry _ => none
  | .pressWidthExpiry _ => none
  | .onTimeoutExpiry _ => none
  | .softOffTimeoutExpiry _ => none
  | .holdWidthExpiry _ => none
  | .resetWidthExpiry _ => none
  | .dwellExpiry _ => none
  | .releasedTickEnd _ => none
  | .reattachTimerExpiry _ => none
  | .watchTimerExpiry _ => none
  | .busPowerChange _ _ => none
  | .nodeAbort _ => none
  | .undefinedBlockRequest _ => none
  | .identify _ => none
  | .ready _ => none
  | .capacity _ => none
  | .sense _ => none
  | .prevent _ => none
  | .allow _ => none
  | .read _ _ _ => none
  | .write _ _ _ => none
  | .ejectByNode _ => none
  | .dataPoll _ _ => none
  | .writeDataReceived _ _ => none
  | .openTimerExpiry _ => none
  | .fetchTimerExpiry _ => none
  | .writeTimerExpiry _ => none
  | .gapTimerExpiry _ => none
  | .pageWriteFinished => none
  | .pageWriteTimeout => none
  | .startBit _ => none
  | .falseStart _ => none
  | .quietWaitRestart _ _ => none

/-- The frame as the MAC delivers it of a head, a kind byte and the bytes after the service header (R179). -/
def headRaw (h : Head) (kind : Byte) (bytes : List Byte) : RawFrame :=
  ⟨h.dst, h.src, h.vlan, h.ethertype,
    [h.version, kind, h.node, h.result] ++ be 2 h.tag.toNat ++ be 2 h.len.toNat ++ bytes⟩

/-- The frame a command brings to the MAC, if it brings one. -/
def rawOf (c : Instr) : Option RawFrame :=
  match frameOf c, c with
  | some (h, kind, bytes), _ => some (headRaw h kind bytes)
  | none, .frameDropped f => some f
  | none, _ => none

/-- The command's frame reaches the Steering Unit: PORn is high, the MAC is enabled and every receive check passes (R178). -/
structure Arrives (s : State) (c : Instr) (h : Head) (kind : Byte) (body : List Byte) : Prop where
  running : s.porn = true
  enabled : s.up.macEnabled = true
  frame : ∃ bytes, frameOf c = some (h, kind, bytes) ∧ s.dropCause (headView h kind bytes) = none ∧
    bytes.take h.len.toNat = body

/-- The command's frame comes from station `i` while the part is COMMISSIONED (R6). -/
structure Takes (s : State) (c : Instr) (h : Head) (kind : Byte) (body : List Byte) (i : StationIx) : Prop
    extends Arrives s c h kind body where
  commissioned : s.su.commissioning = .commissioned
  sender : s.findStation h.src = some i

/-- The command's frame is a request of kind `k` of station `i` that is well formed for the place `p` and that the station may
make (R7, R8). -/
structure Owned (s : State) (c : Instr) (h : Head) (kind : Byte) (body : List Byte) (i : StationIx) (k : RequestKind) (p : SetId) : Prop
    extends Takes s c h kind body i where
  request : kindClass kind = .request k
  place : wellFormedFor k h.node body = some p
  right : s.permitted i k p body = true

/-- The state with the ANSWER to a request queued (R179, R181, R186). -/
def State.withAnswer (s : State) (h : Head) (kind : Byte) (r : Result) (body : List Byte) : State :=
  s.enqueue (answerFrame h kind r body)

/-- A request ends with effect `e` and its ANSWER. -/
def Answers (c : Instr) (s : State) (h : Head) (kind : Byte) (e : State) (r : Result) (body : List Byte) : Prop :=
  Completes c s (e.withAnswer h kind r body)

/-! ## An entry offered to a ring -/

/-- A stream after an entry was offered to its ring, but for what batches then take (R47, R49, R50). `deadline` is the flush
timer's, reloaded by an accepted entry while a station is attached; without attachments the ring goes on to history. -/
def Stream.offered (t : Stream) (k : EntryKind) (deadline : Nat) : Stream :=
  if t.ring.length < 1024 then
    { t with
      ring := if t.atts = [] then [] else t.ring ++ [⟨k, t.overrun⟩], offset := t.offset + 1, overrun := false,
      flush := if t.atts = [] then none else some deadline }
  else { t with lost := min (t.lost + 1) 65535, overrun := true }

/-- The matcher after an entry was offered to node `n`'s ring: it takes the entries the ring accepts (R47, R74). -/
def State.matcherOffered (s : State) (n : NodeId) (k : EntryKind) : Matcher :=
  if (s.streams.get n).ring.length < 1024 then s.matcher.take n ⟨k, (s.streams.get n).overrun⟩ else s.matcher

/-- The state after an entry was offered to node `n`'s ring, but for what batches then take. -/
def State.withEntry (s : State) (n : NodeId) (k : EntryKind) : State :=
  (s.putStream n ((s.streams.get n).offered k
    (s.now + (s.streams.get n).settings.flushCount * (s.lines.get n).charTime))).putMatcher (s.matcherOffered n k)

/-- A line after items that fit were offered to its transmit queue: an IDLE transmitter, whose queue is empty, begins the first
(R39 to R41). -/
def Line.given (l : Line) (now : Nat) (items : List TxItem) : Line :=
  match l.transmitter, items with
  | .idle, x :: xs => { l with transmitter := l.begin now x, txQueue := xs }
  | _, _ => { l with txQueue := l.txQueue ++ items }

/-- A stream without station `i`'s attachment: when none is left the ring goes on to history and the flush timer stops (R49,
R56). -/
def Stream.without (t : Stream) (i : StationIx) : Stream :=
  let rest := t.atts.filter (fun a => a.station ≠ i)
  { t with atts := rest, ring := if rest = [] then [] else t.ring, flush := if rest = [] then none else t.flush }

/-- What typed bytes spell for a recognizer that is IDLE before and after them (R62 to R64): the items they give the transmit queue,
and whether a BREAK command is among them. -/
inductive Spells (esc : Byte) : List Byte → List TxItem → Bool → Prop where
  | nil : Spells esc [] [] false
  | plain (b : Byte) (bytes : List Byte) (items : List TxItem) (brk : Bool) :
      b ≠ esc → Spells esc bytes items brk → Spells esc (b :: bytes) (.byte b :: items) brk
  | twice (bytes : List Byte) (items : List TxItem) (brk : Bool) :
      Spells esc bytes items brk → Spells esc (esc :: esc :: bytes) (.byte esc :: items) brk
  | brk (bytes : List Byte) (items : List TxItem) (brk : Bool) :
      esc ≠ 0x62 → Spells esc bytes items brk → Spells esc (esc :: 0x62 :: bytes) (.brk :: items) true
  | other (b : Byte) (bytes : List Byte) (items : List TxItem) (brk : Bool) :
      b ∉ [esc, 0x62, 0x72, 0x63, 0x64] → Spells esc bytes items brk →
        Spells esc (esc :: b :: bytes) (.byte esc :: .byte b :: items) brk

/-! ## What stays elsewhere -/

/-- What no operation on node `n` touches, from `s` to `t`: the clock and the part's own state, and every other node's line, power
record, boot watch, port and matcher counters; another node's stream changes only as batches and the pool change it. -/
def ElsewhereKept (n : NodeId) (s t : State) : Prop :=
  t.now = s.now ∧ t.porn = s.porn ∧ t.straps = s.straps ∧ t.su = s.su ∧ t.lease = s.lease ∧ t.loader = s.loader ∧
    t.config = s.config ∧ t.blanks = s.blanks ∧ t.pending = s.pending ∧ t.matcher.table = s.matcher.table ∧
    t.images.timeout = s.images.timeout ∧ t.notices.gapMs = s.notices.gapMs ∧
    ∀ m, m ≠ n → t.lines.get m = s.lines.get m ∧ t.pw m = s.pw m ∧ t.wt m = s.wt m ∧ t.port m = s.port m ∧
      t.matcher.progress.get m = s.matcher.progress.get m ∧ t.matcher.lineStart.get m = s.matcher.lineStart.get m ∧
      StreamSettled (s.streams.get m) (t.streams.get m)

/-- Node `n`'s line, stream and matcher counters stand too. -/
def ConsoleKept (n : NodeId) (s t : State) : Prop :=
  t.lines.get n = s.lines.get n ∧ StreamSettled (s.streams.get n) (t.streams.get n) ∧
    t.matcher.progress.get n = s.matcher.progress.get n ∧ t.matcher.lineStart.get n = s.matcher.lineStart.get n

/-! ## An action begins -/

/-- A power record whose permission is DENIED, the reattach timer stopped (R96). -/
def Power.denied (p : Power) : Power := { p with granted := false, reattach := none, armed := false }

/-- HARD_STOPPING with PWRBTN held for the hold width (R92). -/
def Power.holding (p : Power) (ms : Nat) (a : Action) : Power :=
  { p.denied with
    state := .hardStopping, action := some a, tick := none, button := true, reset := false,
    phase := some (ms + p.settings.holdS * 1000) }

/-- PWRBTN pressed for the press width in a state (R90, R91). -/
def Power.pressed (p : Power) (ms : Nat) (st : PowerState) (a : Option Action) : Power :=
  { p with state := st, action := a, tick := none, button := true, reset := false, phase := some (ms + p.settings.pressMs) }

/-- OFF: no action in flight, PWRBTN and RST released, permission DENIED (R96). -/
def Power.inOff (p : Power) : Power :=
  { p.denied with state := .off, action := none, phase := none, tick := none, button := false, reset := false }

/-- The power record after an action begins in ON or, a POWER_ON, in OFF (R90 to R93). -/
def Power.begun (p : Power) (ms : Nat) (a : Action) : Power :=
  match a.kind with
  | .powerOn => p.pressed ms .starting (some a)
  | .softOff => p.pressed ms .softStopping (some a)
  | .hardOff => p.holding ms a
  | .reset => { p.denied with
      state := .resetting, action := some a, tick := none, button := false, reset := true,
      phase := some (ms + p.settings.resetMs) }
  | .cycle => p.holding ms a

/-- The power record after a HARD_OFF preempts the action in flight (R89): an ACTIVE level is brought down, the button released
for one tick first if it is pressed; else the node is OFF. -/
def Power.preempted (p : Power) (ms : Nat) (a : Action) : Power :=
  let act : Action := { a with preempted := p.action.map Action.kind }
  if p.filtered ≠ .active then p.inOff
  else if p.button then
    { p.denied with
      state := .hardStopping, action := some act, phase := none, tick := some (ms + 1), button := false, reset := false }
  else p.holding ms act

/-- A port whose permission is withdrawn: DETACHED, its request gone, its medium kept; the bytes of an outstanding write stay
staged (R96, R120, R121, R133). -/
def MediaPort.withdrawn (p : MediaPort) (outstanding : Bool) : MediaPort :=
  if p.attached then
    { p with
      attached := false, grantBoot := false, bootFirst := false, lock := false, active := none, sense := ⟨.none, none⟩,
      usb := .nothing, staging := if outstanding then p.staging else [] }
  else { p with grantBoot := false }

/-- The order of a reboot mark at node `n` (R95): the mark offered to the ring, the line returned to its primary rate (R42), every
progress counter at 0 and the line-start flag set (R75). -/
def RebootMarked (n : NodeId) (s t : State) : Prop :=
  StreamSettled ((s.withEntry n (.mark .reboot)).streams.get n) (t.streams.get n) ∧
    t.lines.get n = (s.lines.get n).toPrimary s.now ∧ t.matcher.progress.get n = Tab.fill 32 0 ∧
    t.matcher.lineStart.get n = true

/-- Action `a` begins at node `n`, from `s` to `t` (R90 to R93, R95, R96, R110): the power record as `p` has it; the watch stopped
unless the action is its own; for a RESET or CYCLE the reboot mark; for all but POWER_ON and SOFT_OFF the port withdrawn. -/
def Begins (n : NodeId) (a : Action) (p : Power) (s t : State) : Prop :=
  t.pw n = p ∧ t.wt n = (if a.byWatch then s.wt n else (s.wt n).stop) ∧
    (if a.kind = .powerOn ∨ a.kind = .softOff then t.port n = s.port n
      else t.port n = (s.port n).withdrawn (s.outstanding n)) ∧
    (if a.kind = .reset ∨ a.kind = .cycle then RebootMarked n s t else ConsoleKept n s t) ∧
    ElsewhereKept n s t ∧ ImagesSettled s t

/-- Node `n` enters ON, from `s` to `t`, with event `ev` (R96, R98, R109): the action over, PWRBTN and RST released; the reattach
timer started where the permission is DENIED, with the action's boot-first indication where `keep` says that it is not lost (R97);
the watch started where `starts` says so, unless it is off or held; a reboot mark where `mark` says so. -/
def EntersOn (n : NodeId) (ev : PowerEvent) (mark keep starts : Bool) (s t : State) : Prop :=
  let p := s.pw n
  let w := s.wt n
  t.pw n = { p with
      state := .on, action := none, phase := none, tick := none, button := false, reset := false,
      reattach := if p.granted then p.reattach else some (s.now / 1000 + 500),
      armed := if p.granted then p.armed else keep && (match p.action with
        | some a => a.toMedia
        | none => false) } ∧
    t.wt n = (if starts = true ∧ w.timeS ≠ 0 ∧ w.state ≠ .held then
        { w with state := .watching, timer := some (s.now / 1000 + w.timeS * 1000) } else w) ∧
    t.port n = s.port n ∧ (if mark then RebootMarked n s t else ConsoleKept n s t) ∧ ElsewhereKept n s t ∧
    UplinkSettled s t ∧ ImagesSettled s t ∧ NoticesSettled (s.raise (some n) (.power ev .on p.action)) t

/-- Node `n` enters OFF, from `s` to `t`, with event `ev` naming `act` (R96, R98, R110). -/
def EntersOff (n : NodeId) (ev : PowerEvent) (act : Option Action) (s t : State) : Prop :=
  t.pw n = (s.pw n).inOff ∧ t.wt n = (s.wt n).stop ∧ t.port n = (s.port n).withdrawn (s.outstanding n) ∧ ConsoleKept n s t ∧
    ElsewhereKept n s t ∧ UplinkSettled s t ∧ ImagesSettled s t ∧ NoticesSettled (s.raise (some n) (.power ev .off act)) t

/-! ## A medium leaves -/

/-- Node `n` leaves the record its medium refers to, from `s` to `t` (R123, R145): a record without users is removed, the close of an
OPEN one queued or counted unsent; every other record stands. -/
def Released (n : NodeId) (s t : State) : Prop :=
  match (s.port n).medium.ref? with
  | none => True
  | some m =>
    (∀ r, r ≠ m.image → (t.image r).map ImageRec.unsent = (s.image r).map ImageRec.unsent) ∧
    match s.image m.image with
    | none => True
    | some x =>
      let left := x.users &&& ~~~(1#8 <<< n.val)
      if left = 0 then
        t.image m.image = none ∧
          (x.isOpening = false → s.closeFrame x ∈ t.up.frames ∨ t.images.unsentClose = min (s.images.unsentClose + 1) 65535)
      else (t.image m.image).map ImageRec.unsent = some ({ x with users := left } : ImageRec).unsent

/-- A port whose active request, if any, has ended NOT_READY because its medium leaves (R121, R136). -/
def MediaPort.endedNotReady (p : MediaPort) (outstanding : Bool) : MediaPort :=
  if p.active.isSome then
    { p with
      active := none, sense := ⟨.notReady, none⟩, usb := .status .notReady, staging := if outstanding then p.staging else [] }
  else p

/-- A taken eject of the LOADING or PRESENT medium of node `n`, from `s` to `t` (R136): EJECTING while the node's write is
outstanding, else EMPTY, with MEDIUM_EJECTED. `g` is what else the command does to the port. -/
def Ejected (n : NodeId) (cause : EjectCause) (g : MediaPort → MediaPort) (s t : State) : Prop :=
  let q := (s.port n).endedNotReady (s.outstanding n)
  let empty := { q with medium := .empty, lock := false, changed := true, bootFirst := false, grantBoot := false }
  t.pw n = s.pw n ∧ t.wt n = s.wt n ∧ ConsoleKept n s t ∧ ElsewhereKept n s t ∧
    match (s.port n).medium, s.outstanding n with
    | .present m b, true =>
      t.port n = g { q with medium := .ejecting m b cause, bootFirst := false, grantBoot := false } ∧ ImagesSettled s t ∧ NoticesSettled s t
    | _, _ => t.port n = g empty ∧ Released n s t ∧ NoticesSettled (s.raise (some n) (.mediumEjected cause)) t

/-! ## What the Image Fetch Unit reports -/

/-- What a report of the Image Fetch Unit leaves, from `e` to `t`: all but ports, image records, writes, fetches, needs, the pool,
pending sets and the count of unsent closes. -/
def MediaOnly (e t : State) : Prop :=
  t.now = e.now ∧ t.porn = e.porn ∧ t.straps = e.straps ∧ t.su = e.su ∧ t.lines = e.lines ∧ t.lease = e.lease ∧
    t.matcher = e.matcher ∧ t.power = e.power ∧ t.watches = e.watches ∧ t.loader = e.loader ∧ t.config = e.config ∧
    t.blanks = e.blanks ∧ t.pending = e.pending ∧ StreamsSettled e t ∧ UplinkSettled e t ∧ t.images.late = e.images.late ∧
    t.images.foreign = e.images.foreign ∧ t.images.malformed = e.images.malformed ∧ t.images.timeout = e.images.timeout

/-- The write of node `n` agrees in two states but for whether it has been queued. -/
def WriteSettled (n : NodeId) (e t : State) : Prop :=
  (t.images.writes.get n).generation = (e.images.writes.get n).generation ∧
    (t.images.writes.get n).live.map WriteOp.unsent = (e.images.writes.get n).live.map WriteOp.unsent

/-- The writes of two states agree but for which have been queued. -/
def WritesSettled (e t : State) : Prop := ∀ n, WriteSettled n e t

/-- A port after a forced eject for a lost server: its request ended NOT_READY, its write abandoned, its medium EMPTY (R121, R136,
R138, R157). -/
def MediaPort.forced (p : MediaPort) (outstanding : Bool) : MediaPort :=
  { p.endedNotReady false with
    staging := if p.active.isSome || outstanding then [] else p.staging
    medium := .empty, lock := false, changed := true, bootFirst := false, grantBoot := false }

/-- The IMAGE_CLOSE of record `x`, which was removed, from `e` to `t`: queued, or counted unsent; an OPENING record needs none
(R145). -/
def Closed (x : ImageRec) (e t : State) : Prop :=
  if x.isOpening then t.images.unsentClose = e.images.unsentClose
  else e.closeFrame x ∈ t.up.frames ∨ t.images.unsentClose = min (e.images.unsentClose + 1) 65535

/-- A failure counted on record `r`, from `e`, where it has been reported, to `t` (R158): below three the count rises; the third
forces the medium of every user EMPTY, with SERVER_LOST, and removes the record. -/
def FailureCounted (r : ImageIx) (e t : State) : Prop :=
  MediaOnly e t ∧ (∀ q, q ≠ r → (t.image q).map ImageRec.unsent = (e.image q).map ImageRec.unsent) ∧
    match e.image r with
    | none => t.ports = e.ports ∧ t.image r = none ∧ WritesSettled e t ∧ NoticesSettled e t ∧
      t.images.unsentClose = e.images.unsentClose
    | some x =>
      if x.failures < 2 then
        t.ports = e.ports ∧ (t.image r).map ImageRec.unsent = some ({ x with failures := x.failures + 1 } : ImageRec).unsent ∧
          WritesSettled e t ∧ NoticesSettled e t ∧ t.images.unsentClose = e.images.unsentClose
      else
        x.users ≠ 0 → t.image r = none ∧ Closed x e t ∧
          (∀ n, if x.users.getLsbD n.val then
              t.port n = (e.port n).forced (e.outstanding n) ∧ (t.images.writes.get n).live = none ∧
                (t.images.writes.get n).generation = (e.images.writes.get n).generation
            else t.port n = e.port n ∧ WriteSettled n e t) ∧
          NoticesSettled ((nodesOf x.users).foldl (fun a n => a.raise (some n) (.serverLost x.server x.image)) e) t

/-- The outstanding write `w` of node `n`, on record `x`, ends with an outcome, from `e` to `t` (R132, R133, R136, R156): the write
record is NONE and its bytes are freed; a WRITE that owns it takes the outcome, an EJECTING medium becomes EMPTY; then the record's
failures are 0, or the failure is counted. -/
def WriteEnds (n : NodeId) (w : WriteOp) (x : ImageRec) (ok : Bool) (e t : State) : Prop :=
  let p := e.port n
  let freed : MediaPort := { p with staging := [] }
  let a := e.putWrite n { e.images.writes.get n with live := none }
  let spent (k : SenseKey) (info : Option (BitVec 32)) : MediaPort :=
    { freed with active := none, sense := ⟨k, info⟩, usb := .status k }
  let counted (b : State) (y : ImageRec) : Prop :=
    if ok then Settles (b.putImage w.image (some { y with failures := 0 })) t else FailureCounted w.image b t
  match p.medium with
  | .present _ _ =>
    let q := match p.active with
      | some (.write lba count handed true) =>
        if !ok then spent .mediumError (some (BitVec.ofNat 32 (w.offset / 512)))
        else if count ≤ handed then spent .none none
        else { freed with active := some (.write lba count handed false), usb := .accept }
      | _ => freed
    counted (a.putPort n q) x
  | .ejecting _ _ cause =>
    let left := x.users &&& ~~~(1#8 <<< n.val)
    let b := a.putPort n { freed with
      medium := .empty, lock := false, changed := true, bootFirst := false, grantBoot := false }
    let noted := b.raise (some n) (.mediumEjected cause)
    if left = 0 then
      MediaOnly e t ∧ t.ports = b.ports ∧ t.image w.image = none ∧ Closed x e t ∧ WritesSettled b t ∧ NoticesSettled noted t ∧
        ∀ q, q ≠ w.image → (t.image q).map ImageRec.unsent = (e.image q).map ImageRec.unsent
    else counted (noted.putImage w.image (some { x with users := left })) { x with users := left }
  | .empty => True
  | .loading _ => True

/-! ## Laws -/

/-- The configuration memory is in canonical form. -/
def ConfigLaw (s : State) : Prop := memWf s.config = true

/-- The actions a power state carries out (R86). -/
def carries : PowerState → ActionKind → Bool
  | .starting, .powerOn => true
  | .starting, .cycle => true
  | .softStopping, .softOff => true
  | .hardStopping, .hardOff => true
  | .hardStopping, .cycle => true
  | .resetting, .reset => true
  | .dwelling, .cycle => true
  | _, _ => false

/-- The outputs and the action in flight of a power record fit its state (R84, R86). -/
def Power.fits (p : Power) : Prop :=
  (p.reset = true → p.state = .resetting) ∧
    (p.button = true → p.state = .starting ∨ p.state = .softStopping ∨ p.state = .hardStopping) ∧
    (match p.action with
      | none => p.state.acting = false
      | some a => carries p.state a.kind = true)

/-- Every power record fits its state. -/
def PowerLaw (s : State) : Prop := ∀ n, (s.pw n).fits

/-- The USB port follows the permission and bus power, and only an attached port has an active request (R96, R120). -/
def PortLaw (s : State) : Prop :=
  ∀ n, ((s.pw n).granted = true → (s.pw n).state = .on ∨ (s.pw n).state = .softStopping) ∧
    ((s.pw n).reattach.isSome → (s.pw n).granted = false ∧ ((s.pw n).state = .on ∨ (s.pw n).state = .softStopping)) ∧
    (s.port n).attached = ((s.pw n).granted && (s.port n).busPower) ∧
    ((s.port n).active.isSome → (s.port n).attached = true) ∧
    (s.porn = false → (s.pw n).granted = false)

/-- Attachments: at most four, one for a station, each entitled to its mode (R54); none before the MAC is enabled. -/
def AttachLaw (s : State) : Prop :=
  (∀ n, (s.streams.get n).atts.length ≤ 4 ∧ ((s.streams.get n).atts.map Attachment.station).Nodup ∧
    ∀ a ∈ (s.streams.get n).atts, s.holds a.station n .watch = true ∧
      (a.mode = .typing → s.holds a.station n .typing = true)) ∧
    (s.loading = true → ∀ n, (s.streams.get n).atts = []) ∧
    (s.loading = true → s.up.macEnabled = false)

/-- The boot watch: the count is within the limit, the timer runs exactly in WATCHING, HELD is marked by the fault-held flag
(R106, R114, R115). -/
def WatchLaw (s : State) : Prop :=
  ∀ n, (s.wt n).count ≤ (s.wt n).limit ∧ ((s.wt n).timer.isSome ↔ (s.wt n).state = .watching) ∧
    ((s.wt n).state = .held → (s.wt n).faultHeld = true)

/-- The receiver agrees with RXD: in QUIET the wait runs exactly while it is high, and it is low in LOW_HOLD and BREAK (R30, R31). -/
def Line.rxdFits (l : Line) : Bool :=
  match l.receiver with
  | .quiet w => w.isSome == l.rxd
  | .ready => true
  | .character _ => true
  | .lowHold _ => !l.rxd
  | .brk => !l.rxd

/-- The line counters: E is at most T, the candidate is one of the list, and the hunt's counts stay below their ends (R33, R35
to R37); a LOCKED line has no good run and no laps. In QUIET the wait runs exactly while RXD is high, and RXD is low in LOW_HOLD
and BREAK (R28, R30, R31). A ring holds at most 1,024 entries, a transmit queue at most 256 items, and an IDLE transmitter has an
empty one (R39, R40, R47). -/
def LineLaw (s : State) : Prop :=
  ∀ n, (s.lines.get n).errors ≤ (s.lines.get n).settings.threshold ∧
    (s.lines.get n).candidate < (s.lines.get n).settings.rates.length ∧ (s.lines.get n).goodRun < 32 ∧
    (s.lines.get n).laps < 4 ∧ (s.lines.get n).discard ≤ 2 ∧
    ((s.lines.get n).hunting = false → (s.lines.get n).goodRun = 0 ∧ (s.lines.get n).laps = 0) ∧
    (s.lines.get n).rxdFits = true ∧
    (s.streams.get n).ring.length ≤ 1024 ∧ (s.lines.get n).txQueue.length ≤ 256 ∧
    ((s.lines.get n).transmitter = .idle → (s.lines.get n).txQueue = [])

/-- The transmit queue: frames and promises fit the 64 descriptors, and eight are kept for answers (R186). -/
def DescriptorLaw (s : State) : Prop := s.up.frames.length + s.up.promised ≤ 64 ∧ s.up.others ≤ 56

/-- The station table: no two entries share an address, and a commissioned part has an OPERATOR (R1). -/
def StationLaw (s : State) : Prop :=
  (∀ i j, (s.station i).addr?.isSome → (s.station i).addr? = (s.station j).addr? → i = j) ∧
    (s.su.commissioning = .commissioned → ∃ i, (s.station i).isOperator = true)

/-- The pending sets: one member of a kind, counts of 1 to 255, PART kinds in the part's set and there alone (R188). -/
def NoticeLaw (s : State) : Prop :=
  ∀ id, ((s.pendingSet id).members.map (fun m => m.event.code)).Nodup ∧
    ∀ m ∈ (s.pendingSet id).members, 1 ≤ m.count ∧ m.count ≤ 255 ∧ (m.event.rank = 10 ↔ id = none)

/-- The pool: a cell has at most one owner, every extent has eight cells, and the free cells cover the reservation (R163,
R164); every entry of the extent table stands in the recency order (R167). -/
def CellLaw (s : State) : Prop :=
  s.ownedCells.Nodup ∧ (∀ c ∈ s.ownedCells, c < 1024) ∧ (∀ x ∈ s.pool.used, x.2.cells.length = 8) ∧
    s.historyCells + 8 * s.pool.used.length + s.freeCells = 1024 ∧ s.reservation ≤ s.freeCells ∧
    ∀ x ∈ s.pool.used, x.1 ∈ s.pool.recency

/-- The image table: a record's mask names exactly the nodes whose medium refers to it, no two records stand for one image, and
an image inserted writable has one user (R143). -/
def ImageLaw (s : State) : Prop :=
  (∀ r x, s.image r = some x → ∀ n, (x.users.getLsbD n.val = true ↔ ∃ m, (s.port n).medium.ref? = some m ∧ m.image = r)) ∧
    (∀ n m, (s.port n).medium.ref? = some m → (s.image m.image).isSome) ∧
    (∀ r q x y, s.image r = some x → s.image q = some y → x.server = y.server → x.image = y.image → r = q) ∧
    (∀ r x, s.image r = some x → x.writable = true →
      ∀ n k : NodeId, x.users.getLsbD n.val = true → x.users.getLsbD k.val = true → n = k)

/-- Every live fetch names an image record in use, a node's outstanding write the record of its PRESENT or EJECTING medium, and a
node with an active READ or WRITE has a PRESENT medium (R121, R126, R136, R145, R147, R155). -/
def FetchLaw (s : State) : Prop :=
  (∀ f l, (s.images.fetches.get f).live = some l → (s.image l.image).isSome) ∧
    (∀ n, (s.port n).active.isSome → (s.port n).medium.isPresent = true) ∧
    ∀ n w, (s.images.writes.get n).live = some w →
      match (s.port n).medium with
      | .present m _ => m.image = w.image
      | .ejecting m _ _ => m.image = w.image
      | .empty => False
      | .loading _ => False

/-- A law that every step keeps. -/
def KeptByEveryStep (law : State → Prop) : Prop := ∀ s t, law s → step s = .next t → law t

end Sys2Proof.Machine
end

