-- ==== Sys2Proof/Certificates/Slice0/Obligations.lean ====
section
/-! DEFINITION. The statements for the provers. -/
open Sys2Proof Sys2Proof.Machine

/-! ## The queue of commands -/

/-- A step runs the command at the front of the queue with the queue's rest. On an empty queue 1 µs passes and nothing else
changes: that is the model's choice (log entries 3 and 10). -/
def Obligations.FrontCommandRunsOrTimePasses : Prop :=
  ∀ (s : State) (c : Instr) (rest : List Instr),
    (s.pending = c :: rest → step s = exec c (s.putPending rest)) ∧
      (s.pending = [] → step s = .next { s with now := s.now + 1 })

/-- Every command of the opcode table is answered by a next state, and leaves the queue of commands and the ADDR straps. -/
def Obligations.EveryCommandCompletes : Prop :=
  ∀ (c : Instr) (s : State), ∃ t, exec c s = .next t ∧ t.pending = s.pending ∧ t.straps = s.straps

/-! ## Laws every step keeps -/

/-- The configuration memory keeps its canonical form: addresses strictly rise below 65,536 and no cell holds FFh (R191). -/
def Obligations.ConfigurationMemoryStaysCanonical : Prop := KeptByEveryStep ConfigLaw

/-- PWRBTN and RST are asserted only in the states that assert them, and an action is in flight exactly in the states that carry
one out, an action that state can carry out (R84, R86, R89 to R93). Permission is GRANTED only in ON or SOFT_STOPPING, the reattach
timer runs only while it is DENIED there, the port is ATTACHED exactly while permission is GRANTED and the node supplies bus power,
and only an ATTACHED port has an active request (R96, R120, R121). The failure count stays within the failure limit, the watch
timer runs exactly in WATCHING, and a held watch has its fault-held flag set (R106 to R116). -/
def Obligations.PowerPortAndWatchStayConsistent : Prop :=
  KeptByEveryStep PowerLaw ∧ KeptByEveryStep PortLaw ∧ KeptByEveryStep WatchLaw

/-- A node has at most four attachments, one for a station, and each station holds WATCH there, and TYPE where its mode is TYPE
(R8, R13, R17, R54, R55). -/
def Obligations.AttachmentsStayEntitled : Prop := KeptByEveryStep AttachLaw

/-- The error counter, the hunt's counts, the ring and the transmit queue of every line stay within their bounds, and an IDLE
transmitter has an empty queue (R33 to R40, R47). In QUIET the wait runs exactly while RXD is high, and RXD is low in LOW_HOLD and
BREAK (R28, R30, R31). -/
def Obligations.LineCountersStayBounded : Prop := KeptByEveryStep LineLaw

/-- Waiting frames and promised answers never need more than the 64 descriptors, and eight stay kept for answers (R186). A pending
set holds one member of a kind, with a count of 1 to 255, and the part's events stand in the part's set alone (R188). -/
def Obligations.ReserveAndPendingSetsAreKept : Prop := KeptByEveryStep DescriptorLaw ∧ KeptByEveryStep NoticeLaw

/-- No two IN_USE entries share a station address, and a commissioned part holds an OPERATOR entry (R1, R11). -/
def Obligations.StationTableStaysUnambiguous : Prop := KeptByEveryStep StationLaw

/-- A pool cell has at most one owner, an extent has eight cells, and the free cells cover the reservation (R163, R164, R167,
R172, R173, R175). -/
def Obligations.PoolCellsAndReservationAreKept : Prop := KeptByEveryStep CellLaw

/-- A record's user mask names exactly the nodes whose medium refers to it, no two records stand for one image, and an image
inserted writable has one user (R123, R134, R143, R145). Live fetches name records in use, outstanding writes the record of the
node's PRESENT or EJECTING medium (R145, R147, R155), and a node with an active READ or WRITE has a PRESENT medium (R128, R131,
R136). -/
def Obligations.ImageRecordsMatchTheirUsers : Prop := KeptByEveryStep ImageLaw ∧ KeptByEveryStep FetchLaw

/-- Every law holds of the machine right after power-on reset. -/
def Obligations.ResetMeetsEveryLaw : Prop :=
  ConfigLaw State.reset ∧ PowerLaw State.reset ∧ PortLaw State.reset ∧ AttachLaw State.reset ∧ WatchLaw State.reset ∧
    LineLaw State.reset ∧ DescriptorLaw State.reset ∧ StationLaw State.reset ∧ NoticeLaw State.reset ∧ CellLaw State.reset ∧
    ImageLaw State.reset ∧ FetchLaw State.reset

/-! ## Power-on reset and the load (R193) -/

/-- POWER_ON_RESET puts every block in its initial state, whatever the state before. The clock, the straps and the queue stand;
the pins keep their levels (log entry 9); the configuration memory keeps every byte outside a page write then in progress (log
entry 6). -/
def Obligations.PowerOnResetInitialisesEveryBlock : Prop :=
  ∀ s : State, ∃ t, exec .powerOnReset s = .next t ∧ t.porn = false ∧ t.su = resetSteering ∧
    t.up = resetUplink s.straps s.up.linkUp ∧ t.streams = Tab.fill 8 resetStream ∧ t.lease = 120 ∧ t.matcher = resetMatcher ∧
    t.watches = Tab.fill 8 resetWatch ∧ t.images = resetImages ∧ t.pool = resetPool ∧ t.notices = resetNotices ∧
    t.loader = ⟨.loading 0, 0, 0, 0⟩ ∧
    (∀ n, t.pw n = resetPower (s.pw n).raw ∧ t.port n = resetPort (s.port n).busPower ∧
      t.lines.get n = resetLine (s.lines.get n).rxd s.now ∧ (t.lines.get n).rxd = (s.lines.get n).rxd ∧
      (t.lines.get n).receiver = .quiet (if (s.lines.get n).rxd then some (s.now + 87) else none)) ∧
    t.now = s.now ∧ t.straps = s.straps ∧ t.pending = s.pending ∧
    (s.saving = false → t.config = s.config) ∧
    (∀ list step deadline, s.loader.activity = .saving list step deadline → ConfigLaw s →
      ∀ a, a < step.address ∨ step.address + step.size ≤ a → memRead t.config a = memRead s.config a)

/-- PORN_RISE starts the acquisition wait of every node's PGOOD for its filter time, and the quiet waits anew; while PORn is high
it changes nothing. While PORn is low every other command but a report of a pin's level leaves the part in its initial state. That
the quiet waits start afresh and which reports are taken while PORn is low is log entry 15; see also log entries 4, 9 and 33. -/
def Obligations.PornRiseStartsTheLoad : Prop :=
  ∀ (s : State) (c : Instr),
    (s.porn = true → exec .pornRise s = .next s) ∧
    (s.porn = false → exec .pornRise s = .next { s with
      porn := true
      lines := s.lines.map (fun l => { l with receiver := .quiet (if l.rxd then some (s.now + l.charTime) else none) })
      power := s.power.map (fun p => { p with wait := some (s.now / 1000 + p.settings.filterMs) }) }) ∧
    (s.porn = false →
      match c with
      | .powerOnReset => True
      | .pornRise => True
      | .linkStateChange b => exec c s = .next { s with up := { s.up with linkUp := b } }
      | .pgoodLevelChange n b => exec c s = .next (s.putPower n { s.pw n with raw := b })
      | .busPowerChange n b => exec c s = .next (s.putPort n { s.port n with busPower := b })
      | .quietWaitRestart n b =>
        let l := s.lines.get n
        exec c s = .next (match l.receiver with
          | .quiet _ => if l.rxd = b then s
            else s.putLine n { l with rxd := b, receiver := .quiet (if b then some (s.now + l.charTime) else none) }
          | .ready => s.putLine n { l with rxd := l.rxd || b }
          | .character _ => s.putLine n { l with rxd := b }
          | .lowHold _ => s
          | .brk => s)
      | _ => exec c s = .next s)

/-- RECORD_READ at address `a` takes the record there: section byte, length byte, body. A record of a section is offered to the
section's owner with its body, and counted by the owner's decision (R191, R192). On RELOAD the owner decides as it decides a
TABLE_WRITE of that section; the load after power-on differs for three sections (R193): a NODE_TENANT record sets the tenant with
no handover, the count standing (R5); a NODE_LINE record gives no SETTINGS mark (R23); a NODE_POWER record that changes the
polarity or the filter time restarts the wait of an acquisition (R103). -/
def Obligations.RecordReadAppliesTheRecord : Prop :=
  (∀ (s : State) (w : Instr) (h : Head) (c : Sec) (b : List Byte) (i : StationIx) (p : SetId),
    Owned s w h 0x02 (c.code :: b) i .tableWrite p →
    let d := s.promise.writeSection false c h.node b
    Answers w s h 0x02 d.state.release d.result d.body) ∧
  (∀ (s : State) (c : Sec) (node : Byte) (b : List Byte), c ≠ .nodeTenant → c ≠ .nodeLine → c ≠ .nodePower →
    s.writeSection true c node b = s.writeSection false c node b) ∧
  (∀ (s : State) (n : NodeId) (b : List Byte) (x : Byte) (t : LineSettings) (u : PowerSettings),
    s.saving = false → b.head? = some (nodeByte n) →
    let tenant := s.writeSection true .nodeTenant (nodeByte n) b
    let line := s.writeSection true .nodeLine (nodeByte n) b
    let power := s.writeSection true .nodePower (nodeByte n) b
    let tenants := s.su.tenants.put n (BitVec.ofNat 4 x.toNat)
    (b.length ≠ 4 → tenant.state = s ∧ tenant.result = .badRequest) ∧
    (b.length = 4 → b[1]? = some x →
      (15 < x.toNat → tenant.state = s ∧ tenant.result = .badRequest) ∧
      (x.toNat ≤ 15 → s.su.tenants.get n = BitVec.ofNat 4 x.toNat → tenant.state = s ∧ tenant.result = .noEffect) ∧
      (x.toNat ≤ 15 → s.su.tenants.get n ≠ BitVec.ofNat 4 x.toNat →
        tenant.state = s.putSu { s.su with tenants := tenants } ∧ tenant.result = .ok)) ∧
    (decodeLine b = none → line.state = s ∧ line.result = .badRequest) ∧
    (decodeLine b = some t →
      let l := s.lines.get n
      let stored := clampLine t
      line.state = s.putLine n { l with
        settings := stored, candidate := 0, hunting := false, errors := 0, goodRun := 0, laps := 0, discard := 0,
        noisy := false, suspended := false,
        receiver := .quiet (if l.rxd then some (s.now + charTime stored.framing stored.primary) else none) } ∧
      line.result =
        if stored ≠ t ∨ (stored.primary :: stored.further).any (fun r => 30 < deviation r) then .adjusted else .ok) ∧
    (decodePower b = none → power.state = s ∧ power.result = .badRequest) ∧
    (decodePower b = some u →
      let p := s.pw n
      let stored := clampPower u
      let level : Filtered := if p.raw = stored.pgoodHigh then .active else .inactive
      let anew := some (s.now / 1000 + stored.filterMs)
      let polarity := p.settings.pgoodHigh ≠ stored.pgoodHigh
      let wait :=
        if p.filtered = .unacquired then
          if polarity ∨ p.settings.filterMs ≠ stored.filterMs then anew else p.wait
        else if polarity then if level = p.filtered then none else anew
        else p.wait
      (p.state.acting = true → power.state = s ∧ power.result = .busy) ∧
      (p.state.acting = false → power.state = s.putPower n { p with settings := stored, wait := wait } ∧
        power.result = if stored ≠ u then .adjusted else .ok))) ∧
  ∀ (s : State) (a : Nat) (c : Sec), s.porn = true → (s.loader.activity = .loading a ∨ s.loader.activity = .reloading a) →
    memRead s.config a = c.code → a + 1 + (memRead s.config (a + 1)).toNat ≤ 65535 →
    let body := memReadAll s.config (a + 2) (memRead s.config (a + 1)).toNat
    let d := s.writeSection s.loading c (if c.ofPart then 15 else body.getD 0 15) body
    let next := a + 2 + (memRead s.config (a + 1)).toNat
    let taken := d.result = .ok ∨ d.result = .adjusted ∨ d.result = .noEffect
    Completes .recordRead s (d.state.putLoader {
      activity := if s.loading then .loading next else .reloading next
      loaded := if taken then satInc s.loader.loaded else s.loader.loaded
      clamped := if d.result = .adjusted then satInc s.loader.clamped else s.loader.clamped
      skipped := if taken then s.loader.skipped else satInc s.loader.skipped })

/-- RECORD_READ where no section's record stands. A section byte of 00h or FFh ends the list: after power-on reset the
commissioning state is decided by the station table and the MAC is enabled, and a RELOAD raises RELOAD_DONE. An unknown section is
skipped by its length, and a record whose length byte or body would lie beyond address 65,535 stops the read, each counted as
skipped (R191, R193, R196). That the list can reach address 65,536 with no end byte is log entry 19. -/
def Obligations.RecordReadEndsTheList : Prop :=
  ∀ (s : State) (a : Nat), s.porn = true → (s.loader.activity = .loading a ∨ s.loader.activity = .reloading a) →
    let ended (skipped : Nat) : State :=
      if s.loading then
        { s with
          su := { s.su with commissioning := if s.operators = 0 then .commissioning else .commissioned }
          loader := { s.loader with activity := .idle, skipped := skipped }
          up := { s.up with macEnabled := true } }
      else
        (s.putLoader { s.loader with activity := .idle, skipped := skipped }).raise none
          (.reloadDone s.loader.loaded s.loader.clamped skipped)
    let next := a + 2 + (memRead s.config (a + 1)).toNat
    (65535 < a → Completes .recordRead s (ended (satInc s.loader.skipped))) ∧
    (a ≤ 65535 → memRead s.config a = 0x00 ∨ memRead s.config a = 0xFF → Completes .recordRead s (ended s.loader.skipped)) ∧
    (a ≤ 65535 → memRead s.config a ≠ 0x00 → memRead s.config a ≠ 0xFF → 65535 < a + 1 + (memRead s.config (a + 1)).toNat →
      Completes .recordRead s (ended (satInc s.loader.skipped))) ∧
    (memRead s.config a ≠ 0x00 → memRead s.config a ≠ 0xFF → secOf (memRead s.config a) = none →
      a + 1 + (memRead s.config (a + 1)).toNat ≤ 65535 →
      Completes .recordRead s (s.putLoader { s.loader with
        activity := if s.loading then .loading next else .reloading next, skipped := satInc s.loader.skipped }))

/-! ## Frames at the Uplink Port and the Steering Unit -/

/-- Whatever row brings it, a frame that fails a receive check is dropped at the first check it fails, in the order address, VLAN,
ethertype, version, length, room, and counted under that cause alone; a frame that passes every check counts under none; and two
commands that bring the same frame do the same (R178). A frame that holds no version or no kind byte: log entry 42. -/
def Obligations.FirstFailingCheckDropsTheFrame : Prop :=
  ∀ (s : State) (c : Instr) (f : RawFrame), rawOf c = some f → s.porn = true → s.up.macEnabled = true →
    let broadcast : MacAddr := 0xFFFFFFFFFFFF
    let badAddress := (f.dst ≠ s.up.addr ∧ f.dst ≠ broadcast) ∨ (f.dst = broadcast ∧ f.payload[1]? ≠ some 0x01)
    let badVlan := if s.up.vlan = 0 then f.vlan ≠ none else f.vlan ≠ some s.up.vlan
    let badLength := f.payload.length < 8 ∨ 1480 < field f.payload 6 2 ∨ f.payload.length - 8 < field f.payload 6 2
    let d := s.up.drops
    let dropped (d : Drops) : Prop := Completes c s (s.putUp { s.up with drops := d })
    (badAddress → dropped { d with address := min (d.address + 1) 65535 }) ∧
    (¬badAddress → badVlan → dropped { d with vlan := min (d.vlan + 1) 65535 }) ∧
    (¬badAddress → ¬badVlan → f.ethertype ≠ 0x88B6 → dropped { d with ethertype := min (d.ethertype + 1) 65535 }) ∧
    (¬badAddress → ¬badVlan → f.ethertype = 0x88B6 → f.payload[0]? ≠ some 1 →
      dropped { d with version := min (d.version + 1) 65535 }) ∧
    (¬badAddress → ¬badVlan → f.ethertype = 0x88B6 → f.payload[0]? = some 1 → badLength →
      dropped { d with length := min (d.length + 1) 65535 }) ∧
    (¬badAddress → ¬badVlan → f.ethertype = 0x88B6 → f.payload[0]? = some 1 → ¬badLength → s.up.free ≤ s.up.promised →
      dropped { d with room := min (d.room + 1) 65535 }) ∧
    (¬badAddress → ¬badVlan → f.ethertype = 0x88B6 → f.payload[0]? = some 1 → ¬badLength → s.up.promised < s.up.free →
      (∃ t, exec c s = .next t ∧ t.up.drops = d) ∧
        ∀ h kind bytes, f = headRaw h kind bytes → s.dropCause (headView h kind bytes) = none) ∧
    ∀ b, rawOf b = some f → exec b s = exec c s

/-- A frame whose source address no IN_USE entry carries is discarded without an answer, and the unknown-source count rises by
one, saturating; while the part is not commissioned this holds of every frame that is no commissioning write (R6, R10). Of a known
station, a frame of a kind of 80h or above is discarded; a kind below that is none of the nineteen is answered BAD_REQUEST; a
request that names a place it may not name, or a table request that names no section, is answered BAD_REQUEST before its right is
decided (R7). While the part is not commissioned a known station's request is answered WRONG_STATE, and a commissioning write is
checked as a STATION write, stores its OPERATOR entry, and commissions the part with COMMISSIONED raised (R10, R11). Log entries:
22 for the node fields that name no place, 23 for how a commissioning write is known and its node field, 25 for a known station's
frames before commissioning, 26 for what an ANSWER echoes. -/
def Obligations.SteeringDecidesSourceKindAndState : Prop :=
  (∀ (s : State) (c : Instr) (h : Head) (kind : Byte) (body : List Byte), Arrives s c h kind body →
    s.findStation h.src = none →
    (s.su.commissioning = .commissioned ∨ isCommissioningWrite h kind body = false) →
    Completes c s (s.putSu { s.su with unknownSource := min (s.su.unknownSource + 1) 65535 })) ∧
  (∀ (s : State) (c : Instr) (h : Head) (kind : Byte) (body : List Byte) (i : StationIx) (k : RequestKind),
    Takes s c h kind body i →
    (0x80 ≤ kind.toNat → Completes c s s) ∧
    (kindClass kind = .undefined → Answers c s h kind s .badRequest []) ∧
    (kindClass kind = .request k → wellFormedFor k h.node body = none → Answers c s h kind s .badRequest [])) ∧
  ∀ (s : State) (c : Instr) (h : Head) (kind : Byte) (bytes body b : List Byte) (i j : StationIx) (k : RequestKind) (st : Station),
    s.su.commissioning ≠ .commissioned →
    (Arrives s c h kind body → s.findStation h.src = some i → kindClass kind = .request k →
      isCommissioningWrite h kind body = false → Answers c s h kind s .wrongState []) ∧
    (let w := Instr.tableWriteStation h bytes;
      let stations := s.su.stations.put j st
      Arrives s w h 0x02 (0x01 :: b) → s.saving = false → byteAt b 1 = 1 → byteAt b 2 = 1 → 12 ≤ b.length →
      BitVec.ofNat 48 (field b 6 6) = h.src →
      (h.node ≠ 15 ∨ decodeStation s.up.addr b = none → Answers w s h 0x02 s .badRequest []) ∧
      (h.node = 15 → decodeStation s.up.addr b = some (j, st) →
        (s.findStation h.src = some i → i ≠ j → Answers w s h 0x02 s .inUse []) ∧
        ((∀ q, q ≠ j → (s.station q).addr? ≠ some h.src) → ∃ t, exec w s = .next t ∧ st = .operator h.src ∧
          t.su = { s.su with stations := stations, commissioning := .commissioned } ∧
          UplinkSettled (s.withAnswer h 0x02 .ok (encodeStation j st)) t ∧
          ((∀ n, (s.port n).medium = .empty) → NoticesSettled ((s.putSu t.su).raise none .commissioned) t))))

/-- A well-formed request of a station that lacks the right it needs is answered NOT_PERMITTED, and nothing else changes; the
rights are those of the table (R8). A station holds a right by its class, and a TENANT by its node mask, its tenant and its rights
(R2); it may serve a node by its class, or by its tenant and SERVE (R3). That an ATTACH whose body names no mode needs the WATCH right
alone is log entry 21. -/
def Obligations.MissingRightAnswersNotPermitted : Prop :=
  (∀ (s : State) (i : StationIx) (n : NodeId) (x : Right) (a : MacAddr) (tenant : BitVec 4) (mask : BitVec 8) (rights : BitVec 6),
    let bit : Nat := match x with
      | .watch => 0
      | .typing => 1
      | .power => 2
      | .media => 3
      | .serve => 4
      | .notify => 5
    let st := s.station i
    (st = .empty → s.holds i n x = false ∧ s.mayServe i n = false ∧ st.isOperator = false) ∧
    (st = .operator a → s.holds i n x = true ∧ s.mayServe i n = true ∧ st.isOperator = true) ∧
    (st = .tenant a tenant mask rights → st.isOperator = false ∧
      (s.holds i n x = true ↔
        mask.getLsbD n.val = true ∧ s.su.tenants.get n = tenant ∧ tenant ≠ 0 ∧ rights.getLsbD bit = true) ∧
      (s.mayServe i n = true ↔ rights.getLsbD 4 = true ∧ s.su.tenants.get n = tenant))) ∧
  ∀ (s : State) (c : Instr) (h : Head) (kind : Byte) (body : List Byte) (i : StationIx) (k : RequestKind) (p : SetId) (n : NodeId),
    Takes s c h kind body i → kindClass kind = .request k → wellFormedFor k h.node body = some p →
    (s.permitted i k p body = false → Answers c s h kind s .notPermitted []) ∧
    (p = some n →
      (k = .detach ∨ k = .renew ∨ k = .replay → s.permitted i k p body = s.holds i n .watch) ∧
      (k = .attach → s.permitted i k p body = (s.holds i n .watch && (body ≠ [1] || s.holds i n .typing))) ∧
      (k = .consoleInput → s.permitted i k p body = s.holds i n .typing) ∧
      (k = .powerAction ∨ k = .clearHold ∨ k = .bootOk → s.permitted i k p body = s.holds i n .power) ∧
      (k = .mediaInsert ∨ k = .mediaEject → s.permitted i k p body = s.holds i n .media) ∧
      (k = .tableWrite ∨ k = .tableRead → s.permitted i k p body =
        if body.head? = some 0x03 then s.holds i n .typing else (s.station i).isOperator) ∧
      (k = .statusRead → (s.permitted i k p body = true ↔ ∃ x, s.holds i n x = true))) ∧
    (p = none → s.permitted i k p body = (decide (k = .statusRead) || (s.station i).isOperator))

/-- STATUS_READ is answered OK with the state of the node or of the part as it stands, and changes nothing; a node's status is 71
bytes long, and the part's 55 for a station without ADMIN (R185; that it holds the records in OPENING and in OPEN as two counts is log
entry 44). A body that is not empty is answered BAD_REQUEST. -/
def Obligations.StatusReadReportsTheState : Prop :=
  ∀ (s : State) (h : Head) (bytes body : List Byte) (i : StationIx) (p : SetId),
    Owned s (.statusRead h bytes) h 0x01 body i .statusRead p →
    (body ≠ [] → Answers (.statusRead h bytes) s h 0x01 s .badRequest []) ∧
    (body = [] → match p with
      | some n => Answers (.statusRead h bytes) s h 0x01 s .ok (s.statusNode n) ∧ (s.statusNode n).length = 71
      | none => Answers (.statusRead h bytes) s h 0x01 s .ok (s.statusPart (s.station i).isOperator) ∧
        ((s.station i).isOperator = false → (s.statusPart (s.station i).isOperator).length = 55))

/-! ## The tables -/

/-- A TABLE_READ of each section is answered OK with the content as stored, in the layout of R183, and changes nothing, a running
SAVE included; a body of another length, an index above 31 and a node byte other than the header's are answered BAD_REQUEST (R15,
R24, R66, R82, R101, R107, R141, R182, R183). While a SAVE runs, every TABLE_WRITE that passes the Steering Unit is refused BUSY and
changes nothing. While none runs, a write of a node section whose node byte is not the header's is refused BAD_REQUEST and changes
nothing (R11, R16, R22, R66, R81, R100, R107, R141, R182, R183). -/
def Obligations.TableReadsAnswerAndWritesAreChecked : Prop :=
  (∀ (s : State) (h : Head) (bytes : List Byte) (i : StationIx) (x : Byte) (j : Fin 32) (n : NodeId) (c : Instr)
    (body : List Byte) (p : SetId),
    (indexOfByte x = some j →
      (Owned s (.tableReadStation h bytes) h 0x03 [0x01, x] i .tableRead none →
        Answers (.tableReadStation h bytes) s h 0x03 s .ok (encodeStation j (s.station j))) ∧
      (Owned s (.tableReadPattern h bytes) h 0x03 [0x08, x] i .tableRead none →
        Answers (.tableReadPattern h bytes) s h 0x03 s .ok (encodePattern j (s.matcher.table.get j)))) ∧
    (Owned s (.tableReadPart h bytes) h 0x03 [0x09] i .tableRead none →
      Answers (.tableReadPart h bytes) s h 0x03 s .ok
        (encodePart ⟨s.up.addr, s.up.vlan.toNat, s.lease, s.notices.gapMs, s.images.timeout⟩)) ∧
    (Owned s (.tableReadNodeTenant h bytes) h 0x03 [0x02, nodeByte n] i .tableRead (some n) →
      Answers (.tableReadNodeTenant h bytes) s h 0x03 s .ok (encodeNodeTenant n (s.su.tenants.get n) (s.su.handovers.get n))) ∧
    (Owned s (.tableReadNodeLine h bytes) h 0x03 [0x03, nodeByte n] i .tableRead (some n) →
      Answers (.tableReadNodeLine h bytes) s h 0x03 s .ok (encodeLine n (s.lines.get n).settings)) ∧
    (Owned s (.tableReadNodePower h bytes) h 0x03 [0x04, nodeByte n] i .tableRead (some n) →
      Answers (.tableReadNodePower h bytes) s h 0x03 s .ok (encodePower n (s.pw n).settings)) ∧
    (Owned s (.tableReadNodeWatch h bytes) h 0x03 [0x05, nodeByte n] i .tableRead (some n) →
      Answers (.tableReadNodeWatch h bytes) s h 0x03 s .ok (encodeWatch n (s.wt n))) ∧
    (Owned s (.tableReadNodeStream h bytes) h 0x03 [0x06, nodeByte n] i .tableRead (some n) →
      Answers (.tableReadNodeStream h bytes) s h 0x03 s .ok (encodeStream n (s.streams.get n).settings)) ∧
    (Owned s (.tableReadNodeMedia h bytes) h 0x03 [0x07, nodeByte n] i .tableRead (some n) →
      Answers (.tableReadNodeMedia h bytes) s h 0x03 s .ok (encodeMedia n (s.port n).readAhead)) ∧
    (Owned s c h 0x03 body i .tableRead p →
      (if body.head? = some 0x09 then body.length ≠ 1
        else body.length ≠ 2 ∨ (if p = none then 32 ≤ byteAt body 1 else body[1]? ≠ some h.node)) →
      Answers c s h 0x03 s .badRequest [])) ∧
  ∀ (s : State) (c : Instr) (h : Head) (body : List Byte) (i : StationIx) (p : SetId), Owned s c h 0x02 body i .tableWrite p →
    (s.saving = true → Answers c s h 0x02 s .busy []) ∧
    (s.saving = false → p ≠ none → body[1]? ≠ some h.node → Answers c s h 0x02 s .badRequest [])

/-- A STATION write: a body that gives no entry is refused BAD_REQUEST, an address in use elsewhere IN_USE, the removal of the last
OPERATOR entry WRONG_STATE. Else the entry is replaced and answered as stored. Attachments of the index are removed where its
station is gone or holds WATCH no more, and put in WATCH mode where it lost TYPE alone; a medium it may serve no more is EMPTY,
with SERVER_LOST and its write abandoned, and leaves its image record; a record without users is removed with its fetches and needs,
an OPEN one's close queued or counted unsent (R145). Other records, writes and fetches stand; a need of them may be issued. Of an index
that is gone or given to another station no VALID extent is left, and every FILLING one is stale (R14, R170). Everything else stands
(R11 to R14, R138). Log entries: 59 for the order of the two tests, 61 for that within an eject, 7 for a close to an index that is
gone. -/
def Obligations.StationWriteReplacesTheEntry : Prop :=
  ∀ (s : State) (h : Head) (bytes b : List Byte) (i j : StationIx) (st : Station),
    let c := Instr.tableWriteStation h bytes
    Owned s c h 0x02 (0x01 :: b) i .tableWrite none → s.saving = false → AttachLaw s →
    (decodeStation s.up.addr b = none → Answers c s h 0x02 s .badRequest []) ∧
    (decodeStation s.up.addr b = some (j, st) →
      let taken := ∃ k, k ≠ j ∧ st.addr?.isSome ∧ (s.station k).addr? = st.addr?
      let last := (s.station j).isOperator = true ∧ st.isOperator = false ∧ ∀ k, k ≠ j → (s.station k).isOperator = false
      let gone : Bool := (s.station j).addr? ≠ st.addr?
      let unserved (n : NodeId) : Bool := s.servedBy j n && (gone || !st.mayServe (s.su.tenants.get n))
      let image (n : NodeId) : BitVec 32 :=
        ((((s.port n).medium.ref?).bind (fun m => s.image m.image)).map ImageRec.image).getD 0
      let e := allNodes.foldl (fun a n => if unserved n then a.raise (some n) (.serverLost j (image n)) else a)
        (s.putSu { s.su with stations := s.su.stations.put j st })
      let removed (n : NodeId) : Bool := gone || !st.holds (s.su.tenants.get n) n .watch
      let lowered (n : NodeId) (a : Attachment) : Prop := a.mode = .typing ∧ st.holds (s.su.tenants.get n) n .typing = false
      let reviewed (n : NodeId) : Stream := match (s.streams.get n).att j with
        | none => s.streams.get n
        | some a =>
          if removed n then (s.streams.get n).without j
          else if lowered n a then (s.streams.get n).putAtt { a with mode := .watch, escape := none }
          else s.streams.get n
      let left (x : ImageRec) : BitVec 8 := (allNodes.filter unserved).foldl (fun u n => u &&& ~~~(1#8 <<< n.val)) x.users
      let ends (x : ImageRec) : Prop := x.users ≠ 0 ∧ left x = 0
      (taken → Answers c s h 0x02 s .inUse []) ∧
      (¬taken → last → Answers c s h 0x02 s .wrongState []) ∧
      (¬taken → ¬last → ∃ t, exec c s = .next t ∧ t.su = { s.su with stations := s.su.stations.put j st } ∧
        UplinkSettled (s.withAnswer h 0x02 .ok (encodeStation j st)) t ∧
        t.lines = s.lines ∧ t.matcher = s.matcher ∧ t.power = s.power ∧ t.watches = s.watches ∧ t.lease = s.lease ∧
        t.loader = s.loader ∧ t.config = s.config ∧ t.now = s.now ∧ t.porn = s.porn ∧ t.straps = s.straps ∧
        t.blanks = s.blanks ∧ t.pending = s.pending ∧ t.images.late = s.images.late ∧ t.images.foreign = s.images.foreign ∧
        t.images.malformed = s.images.malformed ∧ t.images.timeout = s.images.timeout ∧ (ImageLaw s → NoticesSettled e t) ∧
        (gone = false → (∀ n, unserved n = false) → Settles
          ((allNodes.foldl (fun a n => a.putStream n (reviewed n)) e).withAnswer h 0x02 .ok (encodeStation j st)) t) ∧
        (ImageLaw s →
          (∀ r, s.image r = none → t.image r = none) ∧
          (∀ r x, s.image r = some x → if ends x then
              t.image r = none ∧ (∀ z ∈ t.images.needs, z.image ≠ r) ∧
                (x.isOpening = false → e.closeFrame x ∈ t.up.frames ∨ s.images.unsentClose < t.images.unsentClose ∨
                  t.images.unsentClose = 65535)
            else (t.image r).map ImageRec.unsent = some ({ x with users := left x } : ImageRec).unsent) ∧
          ((∀ r x, s.image r = some x → x.isOpening = false → ¬ends x) → t.images.unsentClose = s.images.unsentClose) ∧
          (FetchLaw s →
            (∀ f l, (t.images.fetches.get f).live = some l → (t.image l.image).isSome) ∧
            ∀ f l, (s.images.fetches.get f).live = some l → (∀ x, s.image l.image = some x → ¬ends x) →
              (t.images.fetches.get f).generation = (s.images.fetches.get f).generation ∧
              (t.images.fetches.get f).live.map Fetch.unsent = some l.unsent)) ∧
        (gone = true → ImageLaw s → (∀ r x, s.image r = some x → x.server = j → x.users ≠ 0) →
          ∀ q y, t.pool.extents.get q = some y → y.key.server = j → y.valid = false ∧ y.stale = true) ∧
        ∀ n, (t.streams.get n).atts = (s.streams.get n).atts.filterMap (fun a =>
            if a.station ≠ j then some a
            else if removed n then none
            else if lowered n a then some { a with mode := .watch, escape := none }
            else some a) ∧
          StreamSettled (reviewed n) (t.streams.get n) ∧
          (((s.streams.get n).att j).isSome → removed n = true → ∀ r, (s.streams.get n).replay = some r → r.requester = j →
            (t.streams.get n).replay = none) ∧
          (unserved n = true → ImageLaw s → t.port n = (s.port n).forced (s.outstanding n) ∧
            t.images.writes.get n = ⟨(s.images.writes.get n).generation, none⟩) ∧
          (unserved n = false → t.port n = s.port n ∧ WriteSettled n s t)))

/-- A NODE_TENANT write: a body of another length or a tenant above 15 is refused BAD_REQUEST, the present tenant is answered
NO_EFFECT, another is a handover: the record takes the tenant and counts it; the node's ring, history, offset, lost count, flags, replay,
tenants' attachments, pattern progress, medium, lock, changed-pending, failure count, hold and pending events are cleared, the
line-start flag is set, a running request ends NOT_READY, a running watch goes on, TENANT_CHANGED is pending alone, the node leaves
the image record of its medium, and the line, the power record and every other node stand (R16, R17, R68, R83, R119, R140, R145). That
the lock is clear whatever the medium is the model's reading: the table of R140 says so, while R124 and R138 clear it only where a
medium leaves (log entry 32, DEDUCED). Log entries 51 and 61: the order of the shares, and that within the eject. -/
def Obligations.TenantWriteHandsTheNodeOver : Prop :=
  ∀ (s : State) (h : Head) (bytes : List Byte) (i : StationIx) (n : NodeId) (b : List Byte) (x : Byte),
    let c := Instr.tableWriteNodeTenant h bytes
    let tenant := BitVec.ofNat 4 x.toNat
    Owned s c h 0x02 (0x02 :: b) i .tableWrite (some n) → s.saving = false → b.head? = some (nodeByte n) →
    (b.length ≠ 4 → Answers c s h 0x02 s .badRequest []) ∧ (b.length = 4 → b[1]? = some x →
    (15 < x.toNat → Answers c s h 0x02 s .badRequest []) ∧
    (x.toNat ≤ 15 → tenant = s.su.tenants.get n → Answers c s h 0x02 s .noEffect []) ∧
    (x.toNat ≤ 15 → tenant ≠ s.su.tenants.get n → ∃ t, exec c s = .next t ∧
      t.su = { s.su with
        tenants := s.su.tenants.put n tenant, handovers := s.su.handovers.put n (s.su.handovers.get n + 1) } ∧
      UplinkSettled (s.withAnswer h 0x02 .ok (encodeNodeTenant n tenant (s.su.handovers.get n + 1))) t ∧
      (t.streams.get n).atts = (s.streams.get n).atts.filter (fun a => (s.station a.station).isOperator) ∧
      (t.streams.get n).ring = [] ∧ (t.streams.get n).chain = [] ∧ (t.streams.get n).offset = 0 ∧ (t.streams.get n).oldest = 0 ∧
      (t.streams.get n).replay = none ∧ (t.streams.get n).settings = (s.streams.get n).settings ∧
      (t.streams.get n).lost = 0 ∧ (t.streams.get n).overrun = false ∧ (t.streams.get n).batchDue = false ∧
      (t.streams.get n).flush = (if (t.streams.get n).atts = [] then none else (s.streams.get n).flush) ∧
      (∀ p, (t.matcher.progress.get n).get p = 0) ∧ t.matcher.lineStart.get n = true ∧
      (t.port n).medium = .empty ∧ (t.port n).active = none ∧ (t.images.writes.get n).live = none ∧ Released n s t ∧
      (t.port n).attached = (s.port n).attached ∧ (t.port n).readAhead = (s.port n).readAhead ∧
      (t.port n).changed = false ∧ (t.port n).lock = false ∧
      (t.port n).sense = (if (s.port n).active.isSome then ⟨.notReady, none⟩ else (s.port n).sense) ∧
      (t.wt n).count = 0 ∧ (t.wt n).faultHeld = false ∧
      (if (s.wt n).state = .watching then (t.wt n).state = .watching ∧ (t.wt n).timer = (s.wt n).timer
        else (t.wt n).state = .idle) ∧
      (t.wt n).timeS = (s.wt n).timeS ∧ (t.wt n).limit = (s.wt n).limit ∧
      NoticesSettled ((s.putSu t.su).putSet (some n) ⟨[⟨.tenantChanged, 1⟩], (s.pendingSet (some n)).gap⟩) t ∧
      t.lines = s.lines ∧ t.power = s.power ∧ t.loader = s.loader ∧ t.config = s.config ∧
      ∀ m, m ≠ n → StreamSettled (s.streams.get m) (t.streams.get m) ∧ t.port m = s.port m ∧ t.wt m = s.wt m ∧
        t.matcher.progress.get m = s.matcher.progress.get m ∧ t.matcher.lineStart.get m = s.matcher.lineStart.get m ∧
        WriteSettled m s t))

/-- A NODE_LINE write: a body the layout refuses is answered BAD_REQUEST. Else the settings are clamped and stored, the line stands
LOCKED at its primary rate with its counts 0 and its flags clear, the receiver is QUIET, the transmit side goes on, and a SETTINGS
mark is offered to the ring. The answer is ADJUSTED if a field was clamped or a rate deviates by more than 30 parts per thousand,
and echoes the settings (R22, R23). What the part knows of RXD as the quiet wait starts is log entry 33. -/
def Obligations.LineWriteReturnsTheLineToPrimary : Prop :=
  ∀ (s : State) (h : Head) (bytes b : List Byte) (i : StationIx) (n : NodeId) (t : LineSettings),
    let c := Instr.tableWriteNodeLine h bytes
    Owned s c h 0x02 (0x03 :: b) i .tableWrite (some n) → s.saving = false → b.head? = some (nodeByte n) →
    (decodeLine b = none → Answers c s h 0x02 s .badRequest []) ∧
    (decodeLine b = some t →
      let l := s.lines.get n
      let stored := clampLine t
      let m : Line := { l with
        settings := stored, candidate := 0, hunting := false, errors := 0, goodRun := 0, laps := 0, discard := 0,
        noisy := false, suspended := false,
        receiver := .quiet (if l.rxd then some (s.now + charTime stored.framing stored.primary) else none) }
      Answers c s h 0x02 ((s.putLine n m).withEntry n (.mark .settings))
        (if stored ≠ t ∨ (stored.primary :: stored.further).any (fun r => 30 < deviation r) then .adjusted else .ok)
        (encodeLine n stored))

/-- A NODE_POWER write of a node with an action in flight is refused BUSY; else its clamped settings are stored and the PGOOD filter
takes a new polarity. A NODE_WATCH write is taken in every state: clamped settings are stored, a lower limit lowers the count, a
watch time restarts or stops the watch, lifts HELD or returns to it. Both answers echo what is stored, ADJUSTED if a value was
clamped (R85, R100, R107, R108). -/
def Obligations.PowerAndWatchWritesStoreSettings : Prop :=
  ∀ (s : State) (h : Head) (bytes b : List Byte) (i : StationIx) (n : NodeId) (t : PowerSettings) (w : WatchSettings),
    s.saving = false → b.head? = some (nodeByte n) →
    (let c := Instr.tableWriteNodePower h bytes;
      Owned s c h 0x02 (0x04 :: b) i .tableWrite (some n) →
      (decodePower b = none → Answers c s h 0x02 s .badRequest []) ∧
      (decodePower b = some t → (s.pw n).state.acting = true → Answers c s h 0x02 s .busy []) ∧
      (decodePower b = some t → (s.pw n).state.acting = false →
        let p := s.pw n
        let stored := clampPower t
        let level : Filtered := if p.raw = stored.pgoodHigh then .active else .inactive
        let wait :=
          if p.settings.pgoodHigh = stored.pgoodHigh then p.wait
          else if p.filtered ≠ .unacquired ∧ level = p.filtered then none
          else some (s.now / 1000 + stored.filterMs)
        Answers c s h 0x02 (s.putPower n { p with settings := stored, wait := wait })
          (if stored ≠ t then .adjusted else .ok) (encodePower n stored))) ∧
    (let c := Instr.tableWriteNodeWatch h bytes;
      Owned s c h 0x02 (0x05 :: b) i .tableWrite (some n) →
      (decodeWatch b = none → Answers c s h 0x02 s .badRequest []) ∧
      (decodeWatch b = some w →
        let r := s.wt n
        let stored := clampWatch w
        let q : Watch := { r with
          timeS := stored.timeS, limit := stored.limit, localStart := stored.localStart, faultReboot := stored.faultReboot,
          count := min r.count stored.limit,
          state :=
            if stored.timeS = 0 then .idle else if r.state = .idle ∧ r.faultHeld then .held else r.state,
          timer :=
            if r.state ≠ .watching then r.timer
            else if stored.timeS = 0 then none else some (s.now / 1000 + stored.timeS * 1000) }
        Answers c s h 0x02 (s.putWatch n q) (if stored ≠ w then .adjusted else .ok) (encodeWatch n q)))

/-- A NODE_STREAM write whose history limits the pool cannot cover is refused FULL and changes nothing: the reservation under the new
limits, the node's cells above the new maximum dropped, would exceed the free cells and those of VALID entries without a pin. Else
the clamped settings are stored, the node holds at most the new maximum of cells, and the free cells cover the reservation. A changed
escape byte returns every attachment of the node to IDLE, and each old escape byte held is offered to the transmit queue, or dropped
where the queue is full. The line's other state, the other nodes and everything but the pool stand (R63, R66, R175; log entry 34). -/
def Obligations.StreamWriteAppliesTheLimits : Prop :=
  ∀ (s : State) (h : Head) (bytes b : List Byte) (i : StationIx) (n : NodeId) (u : StreamSettings),
    let c := Instr.tableWriteNodeStream h bytes
    Owned s c h 0x02 (0x06 :: b) i .tableWrite (some n) → s.saving = false → b.head? = some (nodeByte n) → CellLaw s → LineLaw s →
    (decodeStream b = none → Answers c s h 0x02 s .badRequest []) ∧
    (decodeStream b = some u →
      let stored := clampStream u
      let r := s.streams.get n
      let l := s.lines.get n
      let held := min r.chain.length stored.histMax
      let reserved := (allNodes.map (fun k => if k = n then stored.histMin - held
        else (s.streams.get k).settings.histMin - (s.streams.get k).chain.length)).sum
      let spare := ((indices 128).filter (fun q => match s.pool.extents.get q with
        | some e => e.valid && e.pins = 0
        | none => false)).length
      let covered := reserved ≤ s.freeCells + (r.chain.length - held) + 8 * spare
      let old := r.settings.escapeByte
      let escapes := (r.atts.filter (fun a => a.escape.isSome)).length
      let sent := min escapes (256 - l.txQueue.length + (if l.transmitter = .idle then 1 else 0))
      (¬covered → Answers c s h 0x02 s .full []) ∧
      (covered → ∃ t, exec c s = .next t ∧ ElsewhereKept n s t ∧
        UplinkSettled (s.withAnswer h 0x02 (if stored ≠ u then .adjusted else .ok) (encodeStream n stored)) t ∧
        (t.streams.get n).settings = stored ∧ t.heldCells n ≤ stored.histMax ∧ t.reservation ≤ t.freeCells ∧
        (t.streams.get n).offset = (s.streams.get n).offset ∧
        (t.streams.get n).atts = (if stored.escapeByte = old then r.atts else r.atts.map (fun a => { a with escape := none })) ∧
        t.lines.get n = (if stored.escapeByte = old then l else l.given s.now (List.replicate sent (.byte old))) ∧
        t.pw n = s.pw n ∧ t.wt n = s.wt n ∧ t.port n = s.port n))

/-- A NODE_MEDIA write stores the read-ahead setting. A PATTERN write replaces one entry and returns its progress to 0 on every
node, and nothing else of the matcher changes. A PART write stores the address, the VLAN and the clamped lease, notice gap and
fetch timeout, and is refused IN_USE where a station has the address. Each is answered with what is stored (R81, R141, R183). -/
def Obligations.MediaPatternAndPartWritesStoreContent : Prop :=
  ∀ (s : State) (h : Head) (bytes b : List Byte) (i : StationIx) (n : NodeId) (on : Bool) (j : PatternIx) (x : Option Pattern)
    (p : PartSettings), s.saving = false →
    (let c := Instr.tableWriteNodeMedia h bytes;
      Owned s c h 0x02 (0x07 :: b) i .tableWrite (some n) → b = [nodeByte n, if on then 1 else 0] →
      Answers c s h 0x02 (s.putPort n { s.port n with readAhead := on }) .ok (encodeMedia n on)) ∧
    (let c := Instr.tableWriteNodeMedia h bytes;
      Owned s c h 0x02 (0x07 :: b) i .tableWrite (some n) → b ≠ [nodeByte n, 0] → b ≠ [nodeByte n, 1] →
      Answers c s h 0x02 s .badRequest []) ∧
    (let c := Instr.tableWritePattern h bytes;
      Owned s c h 0x02 (0x08 :: b) i .tableWrite none →
      (decodePattern b = none → Answers c s h 0x02 s .badRequest []) ∧
      (decodePattern b = some (j, x) →
        Answers c s h 0x02 { s with matcher := { s.matcher with
            table := s.matcher.table.put j x, progress := s.matcher.progress.map (fun counters => counters.put j 0) } }
          .ok (encodePattern j x))) ∧
    (let c := Instr.tableWritePart h bytes;
      Owned s c h 0x02 (0x09 :: b) i .tableWrite none →
      (decodePart b = none → Answers c s h 0x02 s .badRequest []) ∧
      (decodePart b = some p → (s.findStation p.addr).isSome → Answers c s h 0x02 s .inUse []) ∧
      (decodePart b = some p → s.findStation p.addr = none →
        let stored : PartSettings := ⟨p.addr, p.vlan, clamp 30 600 p.lease, clamp 10 1000 p.gapMs, clamp 50 5000 p.timeout⟩
        Answers c s h 0x02 { s with
            up := { s.up with addr := stored.addr, vlan := BitVec.ofNat 12 stored.vlan }, lease := stored.lease,
            notices := { s.notices with gapMs := stored.gapMs }, images := { s.images with timeout := stored.timeout } }
          (if stored ≠ p then .adjusted else .ok) (encodePart stored)))


/-! ## Console streams -/

/-- A taken entry passes to history whole (R52, R165): behind the newest entry where the newest cell has room; into a cell the pool
grants, to a node below its minimum always and below its maximum where a free cell outside the reservation exists; else the oldest
cell's entries are forgotten and the oldest offset advances by 256. A batch queues one CONSOLE_OUTPUT for each attachment with the
oldest entries of the ring, up to 512, which then leave the ring (R50, R51). A replay frame carries up to 512 entries of history from
the cursor to the last offset, with LAST on the frame that holds the last (R59); a replay whose entries are gone ends with an empty
frame (R60). Log entries: 18 for the order of a batch's frames, 52 for the oldest offset that this closing frame carries. -/
def Obligations.HistoryAndFramesCarryTheEntries : Prop :=
  (∀ (s : State) (n : NodeId) (o : Offset) (e : Entry) (x : HistCell) (rest : List HistCell),
    let t := s.streams.get n
    let u := (s.pass n o e).streams.get n
    (t.newestHasRoom = true → u.history = t.history ++ [e] ∧ u.oldest = t.oldest ∧ u.chain.length = t.chain.length) ∧
    (t.newestHasRoom = false → (s.grant n).isSome → u.history = t.history ++ [e] ∧ u.chain.length = t.chain.length + 1 ∧
      u.oldest = if t.chain = [] then o else t.oldest) ∧
    (t.newestHasRoom = false → s.grant n = none → t.chain = x :: rest →
      u.history = rest.flatMap HistCell.entries ++ [e] ∧ u.oldest = t.oldest + 256 ∧ u.chain.length = t.chain.length) ∧
    (CellLaw s → ((s.grant n).isSome ↔ t.chain.length < t.settings.histMin ∨
      (t.chain.length < t.settings.histMax ∧ s.reservation + 1 ≤ s.freeCells))) ∧
    u.ring = t.ring ∧ u.offset = t.offset ∧ u.atts = t.atts ∧ u.settings = t.settings ∧
    ∀ m, m ≠ n → (s.pass n o e).streams.get m = s.streams.get m) ∧
  ∀ (s : State) (n : NodeId) (r : Replay),
    let t := s.streams.get n
    let batch := t.ring.take 512
    let frame (a : MacAddr) (first : Offset) (es : List Entry) (flags : Byte) : TxFrame :=
      ⟨.console, a, 0xA0, nodeByte n, 0, 0, be 4 first.toNat ++ be 2 es.length ++ [flags, 0] ++ es.flatMap encodeEntry⟩
    (s.formBatch n).up.queue = s.up.queue ++ t.atts.map (fun a =>
      frame (s.addressOf a.station) (t.offset - BitVec.ofNat 32 t.ring.length) batch 0) ∧
    ((s.formBatch n).streams.get n).ring = t.ring.drop 512 ∧
    (t.replay = some r → r.ending = false →
      let left := (r.last - r.cursor).toNat + 1
      let es := (t.history.drop (r.cursor - t.oldest).toNat).take (min 512 left)
      let last : Bool := left ≤ es.length
      (s.replayFrame n).up.queue = s.up.queue ++
        [frame (s.addressOf r.requester) r.cursor es (1 + (if r.gap then 2 else 0) + (if last then 4 else 0))] ∧
      ((s.replayFrame n).streams.get n).replay =
        if last then none else some { r with cursor := r.cursor + BitVec.ofNat 32 es.length, gap := false }) ∧
    (t.replay = some r → r.ending = true →
      (s.replayFrame n).up.queue = s.up.queue ++ [frame (s.addressOf r.requester) t.oldest [] 7] ∧
      ((s.replayFrame n).streams.get n).replay = none)

/-- ATTACH: a mode code other than 0 and 1 is answered BAD_REQUEST. An attached station gets the mode named and a fresh lease,
losing a held escape byte where it leaves TYPE; a fifth attachment is answered FULL; else the attachment is added, IDLE, and an
ATTACH_GAP mark offered. An OK carries the console offset, the oldest offset and the history end after its own effects (R55,
R57). A BAD_REQUEST too renews the lease of an attached sender (R57). Log entries: 43 for the escape byte held through a repeated
ATTACH in TYPE, 60 for the offsets read with the mark accepted or dropped and before a batch that it makes due. -/
def Obligations.AttachAddsOrRenewsOneAttachment : Prop :=
  ∀ (s : State) (h : Head) (bytes body : List Byte) (i : StationIx) (n : NodeId) (m : Mode) (a : Attachment),
    let c := Instr.attach h bytes
    let t := s.streams.get n
    let lease := s.now / 1000 + s.lease * 1000
    let offsets (u : Stream) : List Byte := be 4 u.offset.toNat ++ be 4 u.oldest.toNat ++ be 4 u.historyEnd.toNat
    Owned s c h 0x04 body i .attach (some n) →
    (body ≠ [0] → body ≠ [1] →
      (t.att i = none → Answers c s h 0x04 s .badRequest []) ∧
      (t.att i = some a → Answers c s h 0x04 (s.putStream n (t.putAtt { a with lease := lease })) .badRequest [])) ∧
    (body = [if m = .watch then 0 else 1] →
      (t.att i = some a →
        Answers c s h 0x04 (s.putStream n (t.putAtt { a with
          mode := m, lease := lease, escape := if a.mode = .typing ∧ m = .watch then none else a.escape })) .ok (offsets t)) ∧
      (t.att i = none → 4 ≤ t.atts.length → Answers c s h 0x04 s .full []) ∧
      (t.att i = none → t.atts.length < 4 →
        let added := s.putStream n { t with atts := t.atts ++ [⟨i, m, lease, none⟩] }
        Answers c s h 0x04 (added.withEntry n (.mark .attachGap)) .ok
          (offsets ((added.withEntry n (.mark .attachGap)).streams.get n))))

/-- DETACH removes the sender's attachment, or answers NO_EFFECT; RENEW gives it a fresh lease and changes nothing else, or answers
NO_EFFECT; a body is answered BAD_REQUEST, a RENEW's with a fresh lease (R57). A lease's expiry removes the attachment and raises ATTACH_EXPIRED. A removal ends the
station's replay; the last one passes the ring to history and stops the flush timer (R49, R56, R57, R61). Log entries: 3 for the clock at an expiry, 3 and 49 for an expiry of a station not attached. -/
def Obligations.DetachRenewAndLeaseExpiryEndOrKeepIt : Prop :=
  ∀ (s : State) (h : Head) (bytes body : List Byte) (i : StationIx) (n : NodeId) (a : Attachment),
    let t := s.streams.get n
    let replayEnds (c : Instr) : Prop := ∀ u, exec c s = .next u →
      (∀ r, t.replay = some r → r.requester = i → (u.streams.get n).replay = none)
    (let c := Instr.detach h bytes;
      Owned s c h 0x05 body i .detach (some n) →
      (body ≠ [] → Answers c s h 0x05 s .badRequest []) ∧
      (body = [] → t.att i = none → Answers c s h 0x05 s .noEffect []) ∧
      (body = [] → t.att i = some a → Answers c s h 0x05 (s.putStream n (t.without i)) .ok [] ∧ replayEnds c)) ∧
    (let c := Instr.renew h bytes;
      Owned s c h 0x06 body i .renew (some n) →
      (t.att i = none → Answers c s h 0x06 s (if body = [] then .noEffect else .badRequest) []) ∧
      (t.att i = some a →
        Answers c s h 0x06 (s.putStream n (t.putAtt { a with lease := s.now / 1000 + s.lease * 1000 }))
          (if body = [] then .ok else .badRequest) [])) ∧
    (let c := Instr.leaseExpiry n i;
      s.porn = true →
      (t.att i = none → Completes c s s) ∧
      (t.att i = some a → replayEnds c ∧
        Completes c s ((({ s with now := max s.now (a.lease * 1000) }).putStream n (t.without i)).raise (some n)
          (.attachExpired i))))

/-- CONSOLE_INPUT: an empty body or one above 1,024 bytes is answered BAD_REQUEST; a station not attached, or attached in WATCH mode,
WRONG_STATE. An attached sender's lease is fresh whatever the result. Bytes other than the escape byte are offered to the transmit queue in order as far as
they fit; the answer counts them, OK or PARTIAL, with no escape result (R39, R40, R57, R62, R63, R65). Messages that hold the escape
byte are stated in EscapeCommandsAct. Log entry 34 for the one more byte that an IDLE transmitter takes. -/
def Obligations.ConsoleInputIsTypedInOrder : Prop :=
  ∀ (s : State) (h : Head) (bytes body : List Byte) (i : StationIx) (n : NodeId) (a : Attachment),
    let c := Instr.consoleInput h bytes
    let t := s.streams.get n
    let l := s.lines.get n
    let renewed := s.putStream n (t.putAtt { a with lease := s.now / 1000 + s.lease * 1000 })
    Owned s c h 0x07 body i .consoleInput (some n) →
    (body = [] ∨ 1024 < body.length →
      (t.att i = none → Answers c s h 0x07 s .badRequest []) ∧ (t.att i = some a → Answers c s h 0x07 renewed .badRequest [])) ∧
    (body ≠ [] → body.length ≤ 1024 →
      (t.att i = none → Answers c s h 0x07 s .wrongState []) ∧
      (t.att i = some a → a.mode = .watch → Answers c s h 0x07 renewed .wrongState []) ∧
      (t.att i = some a → a.mode = .typing → a.escape = none → t.settings.escapeByte ∉ body → LineLaw s →
        let taken := body.take (256 - l.txQueue.length + (if l.transmitter = .idle then 1 else 0))
        Answers c s h 0x07 (renewed.putLine n (l.given s.now (taken.map .byte)))
          (if taken.length = body.length then .ok else .partialTaken) (be 2 taken.length ++ [0, 0])))

/-- The escape recognizer (R62 to R65, R88). The escape byte is held for the escape window. The byte after it gives the escape byte
again, a BREAK, a RESET, a CYCLE, the removal of the attachment, or both bytes; it is not taken, and the answer is PARTIAL, where
its items do not fit. A RESET or CYCLE needs POWER and is refused as its availability gives. The window's expiry offers the held
byte, or drops it where the queue is full. A longer message acts byte by byte: what its bytes spell is offered in order, the answer
counts the bytes taken and names the last command decided; the bytes after a removal, and those from the first whose items do not
fit, are not taken, and the answer is PARTIAL. Log entries: 3 for the clock at an expiry, 3 and 49 for an expiry with no byte held, 53
for the flush deadline at the reboot mark of a RESET or CYCLE. -/
def Obligations.EscapeCommandsAct : Prop :=
  ∀ (s : State) (h : Head) (bytes : List Byte) (i : StationIx) (n : NodeId) (a : Attachment) (b : Byte) (d : Nat)
    (pre post : List Byte) (items more : List TxItem) (brk later : Bool),
    let c := Instr.consoleInput h bytes
    let t := s.streams.get n
    let l := s.lines.get n
    let lease := s.now / 1000 + s.lease * 1000
    let window := s.now / 1000 + t.settings.windowMs
    let withEscape (e : Option Nat) : State := s.putStream n (t.putAtt { a with lease := lease, escape := e })
    let esc := t.settings.escapeByte
    let command := esc :: [0x62, 0x72, 0x63, 0x64]
    let typed (items : List TxItem) (result : List Byte) : Prop :=
      if l.txQueue.length + items.length ≤ 256 then
        Answers c s h 0x07 ((withEscape none).putLine n (l.given s.now items)) .ok ([0, 1] ++ result)
      else Answers c s h 0x07 (withEscape a.escape) .partialTaken [0, 0, 0, 0]
    let acts (k : ActionKind) : Prop :=
      (s.holds i n .power = false → Answers c s h 0x07 (withEscape none) .ok [0, 1, 2, 7]) ∧
      (s.holds i n .power = true →
        ((s.pw n).state = .off → Answers c s h 0x07 (withEscape none) .ok [0, 1, 2, 6]) ∧
        ((s.pw n).state = .unknown ∨ (s.pw n).state.acting = true → Answers c s h 0x07 (withEscape none) .ok [0, 1, 2, 4]) ∧
        ((s.pw n).state = .on → ∃ u, exec c s = .next u ∧
          Begins n ⟨k, .escape i, false, none⟩ ((s.pw n).begun (s.now / 1000) ⟨k, .escape i, false, none⟩) (withEscape none) u ∧
          UplinkSettled (s.withAnswer h 0x07 .ok [0, 1, 1, 0]) u ∧ NoticesSettled s u))
    t.att i = some a →
    (Owned s c h 0x07 [b] i .consoleInput (some n) → a.mode = .typing → LineLaw s →
      (a.escape = none → b = esc → Answers c s h 0x07 (withEscape (some window)) .ok [0, 1, 0, 0]) ∧
      (a.escape.isSome → b = esc → typed [.byte b] [0, 0]) ∧
      (a.escape.isSome → b ≠ esc → b = 0x62 → typed [.brk] [1, 0]) ∧
      (a.escape.isSome → b ≠ esc → b = 0x72 → acts .reset) ∧
      (a.escape.isSome → b ≠ esc → b = 0x63 → acts .cycle) ∧
      (a.escape.isSome → b ≠ esc → b = 0x64 → Answers c s h 0x07 (s.putStream n (t.without i)) .ok [0, 1, 1, 0]) ∧
      (a.escape.isSome → b ∉ command → typed [.byte esc, .byte b] [0, 0])) ∧
    (a.mode = .typing → a.escape = none → LineLaw s → Spells esc pre items brk →
      let message (body : List Byte) : Prop := Owned s c h 0x07 body i .consoleInput (some n) ∧ body.length ≤ 1024
      let result (k : Bool) : List Byte := [if k then 1 else 0, 0]
      let count (k : Nat) : List Byte := be 2 (pre.length + k)
      let give (e : Option Nat) (xs : List TxItem) : State := (withEscape e).putLine n (l.given s.now xs)
      let acting := b ≠ esc ∧ (b = 0x72 ∨ b = 0x63)
      let act : Action := ⟨if b = 0x72 then .reset else .cycle, .escape i, false, none⟩
      let refusal : Byte := if s.holds i n .power = false then 7 else if (s.pw n).state = .off then 6 else 4
      (l.txQueue.length + items.length ≤ 256 →
        (message pre → pre ≠ [] → Answers c s h 0x07 (give none items) .ok (count 0 ++ result brk)) ∧
        (message (pre ++ [esc]) → Answers c s h 0x07 (give (some window) items) .ok (count 1 ++ result brk)) ∧
        (message (pre ++ esc :: 0x64 :: post) → esc ≠ 0x64 →
          Answers c s h 0x07 ((s.putStream n (t.without i)).putLine n (l.given s.now items))
            (if post = [] then .ok else .partialTaken) (count 2 ++ [1, 0])) ∧
        (message (pre ++ [esc, b]) → acting → s.holds i n .power = true → (s.pw n).state = .on →
          ∃ u, exec c s = .next u ∧ Begins n act ((s.pw n).begun (s.now / 1000) act) (give none items) u ∧
            UplinkSettled (s.withAnswer h 0x07 .ok (count 2 ++ [1, 0])) u ∧ NoticesSettled s u) ∧
        (l.transmitter ≠ .idle → l.txQueue.length + items.length = 256 →
          (message (pre ++ b :: post) → b ≠ esc →
            Answers c s h 0x07 (give none items) .partialTaken (count 0 ++ result brk)) ∧
          (message (pre ++ esc :: b :: post) → b = esc ∨ b ∉ [0x72, 0x63, 0x64] →
            Answers c s h 0x07 (give (some window) items) .partialTaken (count 1 ++ result brk)))) ∧
      (Spells esc post more later → l.txQueue.length + items.length + more.length ≤ 256 →
        message (pre ++ esc :: b :: post) → acting → (s.holds i n .power = true → (s.pw n).state ≠ .on) →
          Answers c s h 0x07 (give none (items ++ more)) .ok
            (count (2 + post.length) ++ if later then [1, 0] else [2, refusal]))) ∧
    (let c := Instr.escapeWindowExpiry n i;
      s.porn = true → LineLaw s →
      (a.escape = none → Completes c s s) ∧
      (a.escape = some d →
        let idle := ({ s with now := max s.now (d * 1000) }).putStream n (t.putAtt { a with escape := none })
        Completes c s (if l.txQueue.length < 256 then idle.putLine n (l.given idle.now [.byte esc]) else idle)))

/-- REPLAY: a body that is not 4 bytes is answered BAD_REQUEST, a station not attached WRONG_STATE; an attached one gets a fresh
lease whatever the result, and BUSY while a replay runs, NO_EFFECT with the history end twice where history is empty, and else a replay from the start
offset, or from the oldest where that does not lie in history, to the newest entry then in history; it runs until its LAST frame
is queued (R57 to R60). -/
def Obligations.ReplayStartsWithinHistory : Prop :=
  ∀ (s : State) (h : Head) (bytes body : List Byte) (i : StationIx) (n : NodeId) (a : Attachment) (start : Offset),
    let c := Instr.replay h bytes
    let t := s.streams.get n
    let renewed := s.putStream n (t.putAtt { a with lease := s.now / 1000 + s.lease * 1000 })
    Owned s c h 0x08 body i .replay (some n) →
    (body.length ≠ 4 →
      (t.att i = none → Answers c s h 0x08 s .badRequest []) ∧ (t.att i = some a → Answers c s h 0x08 renewed .badRequest [])) ∧
    (body = be 4 start.toNat → t.att i = none → Answers c s h 0x08 s .wrongState []) ∧
    (body = be 4 start.toNat → t.att i = some a →
      (t.replay.isSome → Answers c s h 0x08 renewed .busy []) ∧
      (t.replay = none → t.history = [] →
        Answers c s h 0x08 renewed .noEffect (be 4 t.historyEnd.toNat ++ be 4 t.historyEnd.toNat)) ∧
      (t.replay = none → t.history ≠ [] →
        let cursor := if (start - t.oldest).toNat < t.history.length then start else t.oldest
        let last := t.historyEnd - 1
        Answers c s h 0x08 renewed .ok (be 4 cursor.toNat ++ be 4 last.toNat) ∧
        ∀ u, exec c s = .next u →
          match (u.streams.get n).replay with
          | some r => r.requester = i ∧ r.last = last
          | none => ∃ f ∈ u.up.frames, f.cls = .console ∧ f.dst = s.addressOf i ∧ 5 ≤ byteAt f.body 6))

/-! ## Descriptors, notices and the transmit port -/

/-- FLUSH_TIMER_EXPIRY stops the timer and makes a batch due, until the ring is empty (R50). GAP_TIMER_EXPIRY stops a set's timer,
and what joined the set meanwhile may leave (R189). An expiry of a stopped timer changes nothing (log entries 3 and 49); the clock at an
expiry is log entry 3. -/
def Obligations.FlushAndGapTimersMakeTheirFramesDue : Prop :=
  ∀ (s : State) (n : NodeId) (id : SetId) (d : Nat), s.porn = true →
    let t := s.streams.get n
    (t.flush = none → Completes (.flushTimerExpiry n) s s) ∧
    (t.flush = some d →
      Completes (.flushTimerExpiry n) s (({ s with now := max s.now d }).putStream n { t with flush := none }) ∧
      ∀ u, exec (.flushTimerExpiry n) s = .next u → t.ring ≠ [] →
        (u.streams.get n).ring = [] ∨ (u.streams.get n).batchDue = true) ∧
    ((s.pendingSet id).gap = none → Completes (.gapTimerExpiry id) s s) ∧
    ((s.pendingSet id).gap = some d →
      Completes (.gapTimerExpiry id) s
        (({ s with now := max s.now (d * 1000) }).putSet id ⟨(s.pendingSet id).members, none⟩))

/-- At the end of a command that runs, no producer waits for a descriptor that is free to it, and the transmit port is not idle
while a frame waits (R186, R187, R189; that this is so at the end of each step is the model's choice, log entry 4). -/
def Obligations.WaitingProducersAreServed : Prop :=
  ∀ (s t : State) (c : Instr), s.porn = true → c ≠ .powerOnReset → c ≠ .pornRise → (∀ b, c ≠ .linkStateChange b) →
    exec c s = .next t → ImageLaw t → FetchLaw t →
    (∀ n, t.batchReady n = false ∧ t.replayReady n = false ∧ t.rewriteReady n = false) ∧ (∀ r, t.openReady r = false) ∧
      (∀ f, t.refetchReady f = false) ∧ t.noticeReady = false ∧
      (t.up.macEnabled = true → t.up.port = none → t.up.queue = [])

/-- An idle port takes the oldest ANSWER, and leaves the pointer; else the oldest frame of the first class, from the pointer through
MEDIA, CONSOLE and NOTICE, with a frame waiting, and the pointer moves behind that class. FRAME_TRANSMITTED sends the frame in the
port with the part's address and its VLAN at priority 0, and frees its descriptor; LINK_DISCARD, while the link is DOWN, discards and
counts it; producers that waited queue their frames, and the port takes the next frame by that rule. Each changes nothing where the
port is idle or the link stands the other way (log entry 11). LINK_STATE_CHANGE stores the PHY's report and changes no other state
(R179, R186, R187). -/
def Obligations.AnswersOvertakeAndThePortSends : Prop :=
  (∀ (u : Uplink) (f : TxFrame), u.port = none → u.macEnabled = true →
    let oldest (c : FrameClass) := u.queue.find? (fun g => g.cls = c)
    let order : List (FrameClass × Rotation) :=
      match u.rotation with
      | .media => [(.media, .console), (.console, .notice), (.notice, .media)]
      | .console => [(.console, .notice), (.notice, .media), (.media, .console)]
      | .notice => [(.notice, .media), (.media, .console), (.console, .notice)]
    (u.queue = [] → u.takeNext = u) ∧
    (oldest .answer = some f → u.takeNext = { u with port := some f, queue := u.queue.erase f }) ∧
    (∀ k, k < 3 → oldest .answer = none → (∀ j, j < k → ((order[j]?).bind (fun x => oldest x.1)) = none) →
      ((order[k]?).bind (fun x => oldest x.1)) = some f →
      u.takeNext = { u with
        port := some f, queue := u.queue.erase f, rotation := ((order[k]?).map Prod.snd).getD u.rotation })) ∧
  ∀ (s : State) (f : TxFrame) (b : Bool),
    let wire : WireFrame := ⟨f.dst, s.up.addr, if s.up.vlan = 0 then none else some ⟨0, s.up.vlan⟩, 0x88B6,
      [1, f.kind, f.node, f.result] ++ be 2 f.tag.toNat ++ be 2 f.body.length ++ f.body⟩
    let sends (e : State) (c : Instr) : Prop :=
      (∃ t, exec c s = .next t ∧ Delivers e t ∧ ∃ (u : Uplink) (new : List TxFrame), t.up = u.takeNext ∧ u.port = none ∧
        u.queue = s.up.queue ++ new ∧ u.rotation = s.up.rotation ∧ u.macEnabled = s.up.macEnabled) ∧
      (e.readyProducers true = [] → exec c s = .next (e.putUp e.up.takeNext))
    exec (.linkStateChange b) s = .next { s with up := { s.up with linkUp := b } } ∧
    (s.porn = true →
      (s.up.port = none ∨ s.up.linkUp = false → Completes .frameTransmitted s s) ∧
      (s.up.port = some f → s.up.linkUp = true →
        sends { s with up := { s.up with port := none, lastSent := some wire } } .frameTransmitted) ∧
      (s.up.port = none ∨ s.up.linkUp = true → Completes .linkDiscard s s) ∧
      (s.up.port = some f → s.up.linkUp = false →
        sends { s with up := { s.up with port := none, linkDiscards := min (s.up.linkDiscards + 1) 65535 } } .linkDiscard))

/-! ## Power and reset -/

/-- POWER_ON, SOFT_OFF, HARD_OFF, RESET and CYCLE are decided by the body and the availability table (R88). An undefined action code, which
comes as UNDEFINED_KIND, a body of another length and TO_MEDIA with the first three are answered BAD_REQUEST; a RESET or CYCLE with TO_MEDIA that the table takes is refused
NO_MEDIUM unless the medium is PRESENT. A taken action begins: its record, its first phase, the watch stopped, the reboot mark, the
port withdrawn (R90 to R93, R95, R96, R110); a HARD_OFF preempts the action in flight, and is done at once where the filtered level
is not ACTIVE (R89). Log entries: 53 for the flush deadline at the reboot mark, 54 for the released tick that OFF does not keep. -/
def Obligations.PowerActionsFollowTheAvailabilityTable : Prop :=
  ∀ (s : State) (h : Head) (bytes body : List Byte) (i : StationIx) (n : NodeId) (k : ActionKind) (flags : Byte),
    let c : Instr := match k with
      | .powerOn => .powerOn h bytes
      | .softOff => .softOff h bytes
      | .hardOff => .hardOff h bytes
      | .reset => .reset h bytes
      | .cycle => .cycle h bytes
    let a : Action := ⟨k, .station i, flags.getLsbD 0, none⟩
    let p := s.pw n
    let rebooting := k = .reset ∨ k = .cycle
    let refused (r : Result) : Prop := Answers c s h 0x09 s r []
    let ok (t : State) : Prop := UplinkSettled (s.withAnswer h 0x09 .ok []) t
    (let u := Instr.undefinedKind h 0x09 bytes;
      Owned s u h 0x09 body i .powerAction (some n) → (∀ x, body.head? = some x → 4 < x.toNat) → Answers u s h 0x09 s .badRequest []) ∧
    (Owned s c h 0x09 body i .powerAction (some n) →
    (body.length ≠ 2 → refused .badRequest) ∧
    (body = [BitVec.ofNat 8 k.code, flags] → a.toMedia = true → ¬rebooting → refused .badRequest) ∧
    (body = [BitVec.ofNat 8 k.code, flags] → (a.toMedia = true → rebooting) →
      (p.state = .unknown → refused .busy) ∧
      (p.state = .off → k = .softOff ∨ k = .hardOff → refused .noEffect) ∧
      (p.state = .off → rebooting → refused .wrongState) ∧
      (p.state = .on → k = .powerOn → refused .noEffect) ∧
      (p.state.acting = true → k ≠ .hardOff → refused .busy) ∧
      (p.state = .hardStopping → k = .hardOff → refused .noEffect) ∧
      (p.state = .on → rebooting → a.toMedia = true → (s.port n).medium.isPresent = false → refused .noMedium) ∧
      ((p.state = .off ∧ k = .powerOn) ∨
          (p.state = .on ∧ k ≠ .powerOn ∧ (a.toMedia = true → (s.port n).medium.isPresent = true)) →
        ∃ t, exec c s = .next t ∧ Begins n a (p.begun (s.now / 1000) a) s t ∧ ok t ∧ NoticesSettled s t) ∧
      (p.state.acting = true → p.state ≠ .hardStopping → k = .hardOff →
        ∃ t, exec c s = .next t ∧ Begins n a (p.preempted (s.now / 1000) a) s t ∧ ok t ∧
          NoticesSettled (if p.filtered = .active then s
            else s.raise (some n) (.power .hardOffDone .off (some { a with preempted := p.action.map Action.kind }))) t)))

/-- PGOOD_LEVEL_CHANGE starts the filter's wait afresh, or stops it where the level returns to the filtered one (R85).
PGOOD_FILTER_EXPIRY makes the read level the filtered level and delivers it: an acquisition takes UNKNOWN to ON or OFF (R87); a
rise ends STARTING and DWELLING, and takes OFF, to ON, with a reboot mark (R90, R93, R94, R95); a fall takes ON, SOFT_STOPPING,
HARD_STOPPING and RESETTING to OFF, and a CYCLE's HARD_STOPPING to DWELLING (R91 to R94); in any other state nothing more
changes. Log entries: 3 and 49 for a level report equal to the present level and an expiry with no wait, 3 for the clock at an
expiry, 24 for the boot-first indication that CYCLE_INTERRUPTED keeps, 53 for the flush deadline at the reboot mark. -/
def Obligations.FilteredPowerGoodMovesTheState : Prop :=
  ∀ (s : State) (n : NodeId) (high : Bool) (d : Nat), s.porn = true →
    let p := s.pw n
    let c := Instr.pgoodFilterExpiry n
    let read (x : Bool) : Filtered := if x = p.settings.pgoodHigh then .active else .inactive
    let e := ({ s with now := max s.now (d * 1000) }).putPower n { p with filtered := read p.raw, wait := none }
    let w := s.wt n
    let own : Bool := match p.action with
      | some a => a.byWatch
      | none => false
    let rises := p.filtered ≠ .unacquired ∧ read p.raw = .active
    let falls := p.filtered ≠ .unacquired ∧ read p.raw = .inactive
    let goesOn (ev : PowerEvent) (mark keep starts : Bool) : Prop := ∃ t, exec c s = .next t ∧ EntersOn n ev mark keep starts e t
    let goesOff (ev : PowerEvent) (act : Option Action) : Prop := ∃ t, exec c s = .next t ∧ EntersOff n ev act e t
    (p.raw = high → Completes (.pgoodLevelChange n high) s s) ∧
    (p.raw ≠ high → Completes (.pgoodLevelChange n high) s (s.putPower n { p with
      raw := high
      wait := if p.filtered ≠ .unacquired ∧ read high = p.filtered then none
        else some (s.now / 1000 + p.settings.filterMs) })) ∧
    (p.wait = none → Completes c s s) ∧
    (p.wait = some d →
      (p.filtered = .unacquired → p.state = .unknown →
        if read p.raw = .active then goesOn .acquired false false false else goesOff .acquired none) ∧
      (rises → p.state = .starting → goesOn .onDone true true true) ∧
      (rises → p.state = .dwelling → goesOn .cycleInterrupted true true (own || w.localStart)) ∧
      (rises → p.state = .off → goesOn .startedLocally true false w.localStart) ∧
      (falls → p.state = .on → goesOff .lost none) ∧
      (falls → p.state = .softStopping → goesOff .softOffDone p.action) ∧
      (falls → p.state = .hardStopping → p.cycling = false → goesOff .hardOffDone p.action) ∧
      (falls → p.state = .hardStopping → p.cycling = true → Completes c s (e.putPower n { e.pw n with
        state := .dwelling, button := false, tick := none, phase := some (e.now / 1000 + p.settings.dwellS * 1000) })) ∧
      (falls → p.state = .resetting → goesOff .lost p.action) ∧
      (p.filtered = .unacquired ∧ p.state ≠ .unknown ∨
        rises ∧ p.state ≠ .starting ∧ p.state ≠ .dwelling ∧ p.state ≠ .off ∨
        falls ∧ p.state ≠ .on ∧ p.state ≠ .softStopping ∧ p.state ≠ .hardStopping ∧ p.state ≠ .resetting →
          Completes c s e))

/-- The phase timers (R89 to R93). PRESS_WIDTH_EXPIRY releases PWRBTN and waits for PGOOD; ON_TIMEOUT_EXPIRY goes to OFF with
POWER_ON_FAILED; SOFT_OFF_TIMEOUT_EXPIRY returns to ON with SOFT_OFF_FAILED; HOLD_WIDTH_EXPIRY with HARD_OFF_FAILED;
RESET_WIDTH_EXPIRY with RESET_DONE; DWELL_EXPIRY presses PWRBTN in STARTING; RELEASED_TICK_END presses it for the hold width. In a
phase it does not end, and while the timer is stopped, each changes nothing (log entries 3 and 49); the clock at an expiry is log
entry 3. -/
def Obligations.PhaseTimersEndTheirPhases : Prop :=
  ∀ (s : State) (n : NodeId) (d : Nat), s.porn = true →
    let p := s.pw n
    let e := { s with now := max s.now (d * 1000) }
    let ms := e.now / 1000
    let own : Bool := match p.action with
      | some a => a.byWatch && a.kind == .cycle
      | none => false
    let pressing := p.button = true ∧ (p.state = .starting ∨ p.state = .softStopping)
    let starting := p.state = .starting ∧ p.button = false
    let stopping := p.state = .softStopping ∧ p.button = false
    let goesOn (c : Instr) (ev : PowerEvent) (keep starts : Bool) : Prop :=
      ∃ t, exec c s = .next t ∧ EntersOn n ev false keep starts e t
    (p.phase = some d →
      (pressing → Completes (.pressWidthExpiry n) s (e.putPower n { p with
        button := false
        phase := some (ms + (if p.state = .starting then p.settings.onTimeoutS else p.settings.softTimeoutS) * 1000) })) ∧
      (starting → ∃ t, exec (.onTimeoutExpiry n) s = .next t ∧ EntersOff n .onFailed p.action e t) ∧
      (stopping → goesOn (.softOffTimeoutExpiry n) .softOffFailed false false) ∧
      (p.state = .hardStopping → goesOn (.holdWidthExpiry n) .hardOffFailed false own) ∧
      (p.state = .resetting → goesOn (.resetWidthExpiry n) .resetDone true true) ∧
      (p.state = .dwelling → Completes (.dwellExpiry n) s (e.putPower n (p.pressed ms .starting p.action)))) ∧
    (p.phase = none ∨ ¬pressing → Completes (.pressWidthExpiry n) s s) ∧
    (p.phase = none ∨ ¬starting → Completes (.onTimeoutExpiry n) s s) ∧
    (p.phase = none ∨ ¬stopping → Completes (.softOffTimeoutExpiry n) s s) ∧
    (p.phase = none ∨ p.state ≠ .hardStopping → Completes (.holdWidthExpiry n) s s) ∧
    (p.phase = none ∨ p.state ≠ .resetting → Completes (.resetWidthExpiry n) s s) ∧
    (p.phase = none ∨ p.state ≠ .dwelling → Completes (.dwellExpiry n) s s) ∧
    (p.tick = none ∨ p.state ≠ .hardStopping → Completes (.releasedTickEnd n) s s) ∧
    (p.tick = some d → p.state = .hardStopping → Completes (.releasedTickEnd n) s (e.putPower n { p with
      button := true, tick := none, phase := some (ms + p.settings.holdS * 1000) }))

/-- A DETACHED port and one with an active request take no describing request; a block request that is none of the port's fails
BAD_REQUEST (R96, R121). REATTACH_TIMER_EXPIRY grants the permission, and attaches the port where the node supplies bus power, with the boot-first
indication where one was asked for and the medium is PRESENT at the grant (R96, R97, R120, R139). BUS_POWER_CHANGE attaches a permitted
port, with the indication that its grant carries, or detaches it: the request, the lock, the sense and the staged bytes are gone, the
medium stands (R120). NODE_ABORT ends an active request with sense ABORTED; without one it changes nothing (R121). Log entries: 24 for
the indication that waits with the grant for bus power, 3 for the clock at an expiry, 3 and 49 for a stopped reattach timer, 49 for a request that the port does not take. -/
def Obligations.PortAttachesDetachesAndAborts : Prop :=
  (∀ (s : State) (n : NodeId), s.porn = true →
    let p := s.port n
    let c : List Instr :=
      [.identify n, .ready n, .capacity n, .sense n, .prevent n, .allow n, .undefinedBlockRequest n]
    (p.attached = false ∨ p.active.isSome → ∀ x ∈ c, Completes x s s) ∧
    (p.attached = true → p.active = none → Completes (.undefinedBlockRequest n) s
      (s.putPort n { p with sense := ⟨.badRequest, none⟩, usb := .status .badRequest }))) ∧
  ∀ (s : State) (n : NodeId) (d : Nat), s.porn = true → PortLaw s →
    let p := s.pw n
    let q := s.port n
    let boot : Bool := p.armed && q.medium.isPresent
    let fresh (first : Bool) : MediaPort := { q with
      busPower := true, attached := true, grantBoot := false, bootFirst := first, lock := false,
      sense := ⟨.none, none⟩, active := none, usb := .nothing }
    let ends (c : Instr) (r : MediaPort) : Prop := ∃ t, exec c s = .next t ∧ t.port n = r ∧ t.pw n = p ∧ t.wt n = s.wt n ∧
      ConsoleKept n s t ∧ ElsewhereKept n s t ∧ UplinkSettled s t ∧ ImagesSettled s t ∧ NoticesSettled s t
    (p.reattach = none → Completes (.reattachTimerExpiry n) s s) ∧
    (p.reattach = some d → Completes (.reattachTimerExpiry n) s
      ((({ s with now := max s.now (d * 1000) }).putPower n { p with granted := true, reattach := none, armed := false }).putPort n
        (if q.busPower then fresh boot else { q with grantBoot := boot, bootFirst := false }))) ∧
    (Completes (.busPowerChange n true) s
      (s.putPort n (if p.granted = true ∧ q.attached = false then fresh q.grantBoot else { q with busPower := true }))) ∧
    (q.attached = false → Completes (.busPowerChange n false) s (s.putPort n { q with busPower := false })) ∧
    (q.attached = true →
      ends (.busPowerChange n false) { q.withdrawn (s.outstanding n) with busPower := false, grantBoot := q.grantBoot }) ∧
    (q.active = none → Completes (.nodeAbort n) s s) ∧
    (q.active.isSome → ends (.nodeAbort n) { q with
      active := none, sense := ⟨.aborted, none⟩, usb := .nothing, staging := if s.outstanding n then q.staging else [] })

/-- CLEAR_HOLD and BOOT_OK, whole (R112, R116). A node field above 7 (R7; of 8 to 14 and above 15, log entry 22) and a body are answered
BAD_REQUEST, a station without POWER NOT_PERMITTED (R8). CLEAR_HOLD takes a HELD watch to IDLE with its count 0 and its fault-held
flag clear, raises nothing and touches nothing else, and is answered NO_EFFECT otherwise. BOOT_OK satisfies a running watch, with
BOOT_CONFIRMED naming the sender, and is answered NO_EFFECT in IDLE and WRONG_STATE in HELD. -/
def Obligations.ClearHoldAndBootOkActOnTheWatch : Prop :=
  ∀ (s : State) (h : Head) (bytes body : List Byte) (i : StationIx) (n : NodeId),
    let w := s.wt n
    let idle := s.putWatch n { w with state := .idle, timer := none, count := 0 }
    let guarded (c : Instr) (kind : Byte) (effect : Prop) : Prop :=
      Takes s c h kind body i →
      (7 < h.node.toNat → Answers c s h kind s .badRequest []) ∧
      (h.node = nodeByte n → s.holds i n .power = false → Answers c s h kind s .notPermitted []) ∧
      (h.node = nodeByte n → s.holds i n .power = true →
        (body ≠ [] → Answers c s h kind s .badRequest []) ∧ (body = [] → effect))
    guarded (.clearHold h bytes) 0x0A
      (if w.state = .held then
        Answers (.clearHold h bytes) s h 0x0A (s.putWatch n { w with state := .idle, count := 0, faultHeld := false }) .ok []
      else Answers (.clearHold h bytes) s h 0x0A s .noEffect []) ∧
    guarded (.bootOk h bytes) 0x0B
      (match w.state with
      | .watching => Answers (.bootOk h bytes) s h 0x0B (idle.raise (some n) (.bootConfirmed 0 (.request i))) .ok []
      | .idle => Answers (.bootOk h bytes) s h 0x0B s .noEffect []
      | .held => Answers (.bootOk h bytes) s h 0x0B s .wrongState [])

/-- WATCH_TIMER_EXPIRY counts a failure of a running watch (R113, R114), and changes nothing else. A limit of 0 reports it only; a
count that is at the limit or reaches it brings the watch to HELD, with BOOT_FAILED and HELD raised; below it the watch is IDLE, and
a node in ON begins the watch's own RESET at the first failure, its CYCLE at a later one, named by BOOT_FAILED. Log entries: 3 for the
clock at an expiry, 3 and 49 for an expiry that meets no running watch, 53 for the flush deadline at the reboot mark of its action. -/
def Obligations.WatchExpiryEscalates : Prop :=
  ∀ (s : State) (n : NodeId) (d : Nat), s.porn = true →
    let c := Instr.watchTimerExpiry n
    let w := s.wt n
    let e := { s with now := max s.now (d * 1000) }
    let held (k : Nat) : State :=
      ((e.putWatch n { w with state := .held, timer := none, count := k, faultHeld := true }).raise (some n)
        (.bootFailed k .expiry none)).raise (some n) (.held k .expiry)
    let idle (k : Nat) : State := e.putWatch n { w with state := .idle, timer := none, count := k }
    let act : ActionKind := if w.count = 0 then .reset else .cycle
    let a : Action := ⟨act, .watch, false, none⟩
    let failed := (idle (w.count + 1)).raise (some n) (.bootFailed (w.count + 1) .expiry (some act))
    (w.timer = none ∨ w.state ≠ .watching → Completes c s s) ∧
    (w.timer = some d → w.state = .watching →
      (w.limit = 0 → Completes c s ((idle 0).raise (some n) (.bootFailed 0 .expiry none))) ∧
      (w.limit ≠ 0 → w.limit ≤ w.count → Completes c s (held w.count)) ∧
      (w.count + 1 = w.limit → Completes c s (held w.limit)) ∧
      (w.count + 1 < w.limit → (s.pw n).state ≠ .on → Completes c s failed) ∧
      (w.count + 1 < w.limit → (s.pw n).state = .on → ∃ t, exec c s = .next t ∧
        Begins n a ((s.pw n).begun (e.now / 1000) a) (idle (w.count + 1)) t ∧ UplinkSettled s t ∧ NoticesSettled failed t))

/-! ## Console lines and patterns -/

/-- The rate arithmetic (R25 to R27), for every rate of 50 to 1,843,200: the divisor is the integer nearest to 29,491,200 / (16 r), a
half rounding up, the achieved rate and the deviation are the largest integers not above their quotients, a rate is inexact above 30
parts per thousand, and the character time is b bit times rounded up. The line's views are those of its current candidate. -/
def Obligations.RateArithmeticRoundsAsStated : Prop :=
  ∀ (r : Nat) (f : Framing) (l : Line), 50 ≤ r → r ≤ 1843200 → 5 ≤ f.dataBits → f.dataBits ≤ 8 → 1 ≤ f.stopBits → f.stopBits ≤ 2 →
    let d := divisor r
    let a := achieved r
    let δ := deviation r
    let off := if a < r then r - a else a - r
    let c := charTime f r
    1 ≤ d ∧ d ≤ 36864 ∧ 16 * r * d ≤ 29491200 + 8 * r ∧ 29491200 + 8 * r < 16 * r * (d + 1) ∧
      16 * d * a ≤ 29491200 ∧ 29491200 < 16 * d * (a + 1) ∧
      2 * r * δ ≤ 2000 * off + r ∧ 2000 * off + r < 2 * r * (δ + 1) ∧ (inexact r = true ↔ 30 < δ) ∧
      7 ≤ f.bits ∧ f.bits ≤ 12 ∧ f.bits * 1000000 ≤ c * a ∧ c * a < f.bits * 1000000 + a ∧ 4 ≤ c ∧ c ≤ 240000 ∧
      l.charTime = charTime l.settings.framing l.rate ∧ l.inexact = inexact l.rate ∧
      (l.candidate < l.settings.rates.length → some l.rate = l.settings.rates[l.candidate]?)

/-- The receiver outside a stop sample (R28, R30, R31): START_BIT leaves READY, FALSE_START returns to it with no entry,
BREAK_DETECTED hands on a BREAK, BREAK_END starts the quiet wait, QUIET_ELAPSED ends it, and QUIET_WAIT_RESTART, RXD's fall or rise,
stops or restarts it. RXD's level is kept, for a quiet wait runs only while it is high. In any other state of the receiver each
changes nothing, but that an edge in CHARACTER, and a rise in READY, is kept (log entry 33). Log entries: 49 for the other states, 3
and 8 for the moments of the edges and of BREAK_DETECTED. -/
def Obligations.ReceiverFollowsTheLine : Prop :=
  ∀ (s : State) (n : NodeId) (high : Bool) (d : Nat), s.porn = true →
    let l := s.lines.get n
    let r := l.receiver
    let put (e : State) (level : Bool) (x : Receiver) : State := e.putLine n { l with rxd := level, receiver := x }
    let later := { s with now := max s.now d }
    let edge := Instr.quietWaitRestart n high
    (r = .ready → Completes (.startBit n) s (put s false (.character (s.now + 2 * l.charTime)))) ∧
    (r ≠ .ready → Completes (.startBit n) s s) ∧
    (r = .character d → Completes (.falseStart n) s (put s true .ready)) ∧
    ((∀ x, r ≠ .character x) → Completes (.falseStart n) s s) ∧
    (r = .lowHold d → Completes (.breakDetected n) s ((put later l.rxd .brk).withEntry n .brk)) ∧
    ((∀ x, r ≠ .lowHold x) → Completes (.breakDetected n) s s) ∧
    (r = .brk → Completes (.breakEnd n) s (put s true (.quiet (some (s.now + l.charTime))))) ∧
    (r ≠ .brk → Completes (.breakEnd n) s s) ∧
    (r = .quiet (some d) → Completes (.quietElapsed n) s (put later l.rxd .ready)) ∧
    ((∀ x, r ≠ .quiet (some x)) → Completes (.quietElapsed n) s s) ∧
    (r = .quiet none ∨ r = .quiet (some d) → if l.rxd = high then Completes edge s s
      else Completes edge s (put s high (.quiet (if high then some (s.now + l.charTime) else none)))) ∧
    (r = .character d → Completes edge s (put s high r)) ∧
    (r = .ready → Completes edge s (put s (l.rxd || high) r)) ∧
    (r = .lowHold d ∨ r = .brk → Completes edge s s)

/-- The stop sample (R29, R30, R32 to R37). CHARACTER_FRAMED with all sampled bits low enters LOW_HOLD; else, and at LOW_HOLD_RISE,
the character is framed and the receiver READY. A discard uses it up. Else it is offered to the ring; the actions of the patterns it
completes follow in index order (R77), each as CompletedPatternsAct states it; then the error counter, the noisy flag, the rate
switch with its RATE mark, the good run and the lock. The exact entry of the RATE mark is stated for a ring with room for both. Log
entries: 8 for the samples as one command, 49 for the other states of the receiver, 30 for the order of matching and actions. -/
def Obligations.FramedCharactersAreHandedOnAndJudged : Prop :=
  ∀ (s : State) (n : NodeId) (data : Byte) (parity stop : Bool) (d : Nat), s.porn = true →
    let l := s.lines.get n
    let f := l.settings.framing
    let rates := l.settings.rates
    let value : Byte := BitVec.ofNat 8 (data.toNat % 2 ^ f.dataBits)
    let odd (v : Byte) : Bool := ((List.range 8).filter v.getLsbD).length % 2 = 1
    let bad (v : Byte) (p : Bool) : Bool := match f.parity with
      | .none => false
      | .even => odd v != p
      | .odd => odd v == p
    let one (level : Bool) : Line := { l with rxd := level, receiver := .ready }
    let judged (flawed : Bool) (one : Line) : Line × Option Mark × Option Event :=
      let l := one
      let next := if l.candidate + 1 < rates.length then l.candidate + 1 else 0
      let laps := if next = 0 then l.laps + 1 else l.laps
      if flawed then
        if l.errors < l.settings.threshold then ({ one with errors := l.errors + 1, goodRun := 0 }, none, none)
        else if l.settings.autobaud = false ∨ rates.length ≤ 1 ∨ l.suspended = true then
          ({ one with errors := 0, noisy := true }, none, some (.lineNoisy l.rate))
        else if 4 ≤ laps then
          ({ one with
            candidate := 0, hunting := false, errors := 0, goodRun := 0, laps := 0, discard := 2, noisy := true,
            suspended := true }, some (.rate 0), some (.lineNoisy l.settings.primary))
        else
          ({ one with candidate := next, hunting := true, errors := 0, goodRun := 0, laps := laps, discard := 2 },
            some (.rate next), if l.hunting then none else some (.lineHunting (rates.getD next l.settings.primary)))
      else if l.hunting = false then ({ one with errors := l.errors - 1 }, none, none)
      else if l.goodRun + 1 < 32 then ({ one with errors := l.errors - 1, goodRun := l.goodRun + 1 }, none, none)
      else ({ one with errors := 0, hunting := false, goodRun := 0, laps := 0 }, none, some (.lineLocked l.rate))
    let effect (level : Bool) (k : EntryKind) (flawed : Bool) : State :=
      let j := judged flawed (one level)
      let a := ((s.putLine n (one level)).withEntry n k).putLine n j.1
      let b := match j.2.1 with
        | some m => a.withEntry n (.mark m)
        | none => a
      match j.2.2 with
      | some ev => b.raise (some n) ev
      | none => b
    let handed (c : Instr) (level : Bool) (k : EntryKind) (flawed : Bool) : Prop :=
      (0 < l.discard → Completes c s (s.putLine n { one level with discard := l.discard - 1 })) ∧
      (l.discard = 0 → s.completionsOf n k = [] →
        (∃ t, exec c s = .next t ∧ t.lines.get n = (judged flawed (one level)).1 ∧ ElsewhereKept n s t ∧ UplinkSettled s t) ∧
        ((judged flawed (one level)).2.1 = none ∨ (s.streams.get n).ring.length < 1023 → Completes c s (effect level k flawed))) ∧
      (l.discard = 0 → s.completionsOf n k ≠ [] →
        let u := s.streams.get n
        let offered := (s.putLine n (one level)).offerMatched n k
        let acted := (s.completionsOf n k).foldl (fun a i => match s.matcher.table.get i with
          | some p => a.patternAction n u.offset p.action i
          | none => a) offered
        let j := judged flawed (acted.lines.get n)
        Settles ((s.putLine n (one level)).withEntry n k) offered.finish ∧
          (s.completionsOf n k).Pairwise (· < ·) ∧
          (∀ i, i ∈ s.completionsOf n k ↔ u.ring.length < 1024 ∧ i ∈ s.matcher.completed n ⟨k, u.overrun⟩) ∧
          ∃ t, exec c s = .next t ∧ t.lines.get n = j.1 ∧ t.power = acted.power ∧ t.watches = acted.watches ∧
            t.ports = acted.ports ∧ ElsewhereKept n acted t ∧ ImagesSettled acted t ∧ UplinkSettled acted t ∧
            StreamSettled ((match j.2.1 with
              | some m => (acted.putLine n j.1).withEntry n (.mark m)
              | none => acted).streams.get n) (t.streams.get n) ∧
            t.matcher = (match j.2.1 with
              | some m => acted.matcherOffered n (.mark m)
              | none => acted.matcher) ∧
            NoticesSettled (match j.2.2 with
              | some ev => acted.raise (some n) ev
              | none => acted) t)
    (l.receiver = .character d →
      if value = 0 ∧ (f.parity = .none ∨ parity = false) ∧ stop = false then
        Completes (.characterFramed n data parity stop) s (s.putLine n { l with rxd := stop, receiver := .lowHold d })
      else handed (.characterFramed n data parity stop) stop (.char value (bad value parity) (!stop) l.hunting)
        (bad value parity || !stop)) ∧
    (l.receiver = .lowHold d → handed (.lowHoldRise n) true (.char 0 (bad 0 false) true l.hunting) true) ∧
    ((∀ x, l.receiver ≠ .character x) → Completes (.characterFramed n data parity stop) s s) ∧
    ((∀ x, l.receiver ≠ .lowHold x) → Completes (.lowHoldRise n) s s)

/-- The transmitter (R40, R41): at CHARACTER_SENT and BREAK_HIGH_END it takes the next item, under the framing, divisor and break
length then in force, or becomes IDLE; BREAK_LOW_END raises TXD for one character time. In any other state each changes nothing.
TXD is high in IDLE and BREAK_HIGH and low in BREAK_LOW; a character goes out as start bit, data bits from the lowest, parity bit,
stop bits. Log entries: 49 for the other states, 8 for CHARACTER_SENT at the present clock, 3 for the clock at an expiry. -/
def Obligations.TransmitterSendsItemsInOrder : Prop :=
  ∀ (s : State) (n : NodeId) (d v : Nat) (b : Byte) (f : Framing), s.porn = true →
    let l := s.lines.get n
    let x := l.transmitter
    let next (now : Nat) : Line := match l.txQueue with
      | [] => { l with transmitter := .idle }
      | .byte y :: rest => { l with transmitter := .sending y l.settings.framing (divisor l.rate), txQueue := rest }
      | .brk :: rest => { l with transmitter := .breakLow (now + l.settings.breakMs * 1000), txQueue := rest }
    let later := { s with now := max s.now d }
    (x = .sending b f v → Completes (.characterSent n) s (s.putLine n (next s.now))) ∧
    ((∀ y g w, x ≠ .sending y g w) → Completes (.characterSent n) s s) ∧
    (x = .breakLow d → Completes (.breakLowEnd n) s (later.putLine n { l with transmitter := .breakHigh (later.now + l.charTime) })) ∧
    ((∀ y, x ≠ .breakLow y) → Completes (.breakLowEnd n) s s) ∧
    (x = .breakHigh d → Completes (.breakHighEnd n) s (later.putLine n (next later.now))) ∧
    ((∀ y, x ≠ .breakHigh y) → Completes (.breakHighEnd n) s s) ∧
    (x = .idle ∨ x = .breakHigh d → x.txd = [true]) ∧ (x = .breakLow d → x.txd = [false]) ∧
    (x = .sending b f v → f.dataBits ≤ 8 →
      let data := (List.range f.dataBits).map b.getLsbD
      let ones := (data.filter id).length
      x.txd = [false] ++ data ++ (match f.parity with
        | .none => []
        | .even => [decide (ones % 2 = 1)]
        | .odd => [decide (ones % 2 = 0)]) ++ List.replicate f.stopBits true)

/-- The elements of a pattern (R72). An EXACT element matches a character that equals its value in every bit where its mask has a 0,
an ANY_OF element one that has a 1 where its value has one, so an ANY_OF of 00h none; the character compared is the framed value,
whose bits above the data width are zero. -/
def Obligations.ElementsMatchTheFramedValue : Prop :=
  ∀ (v m c data : Byte) (l : Line) (p q : Bool),
    ((⟨false, v, m⟩ : Element).accepts c = true ↔ ∀ j, j < 8 → m.getLsbD j = false → c.getLsbD j = v.getLsbD j) ∧
    ((⟨true, v, m⟩ : Element).accepts c = true ↔ ∃ j, j < 8 ∧ v.getLsbD j = true ∧ c.getLsbD j = true) ∧
    (⟨true, 0, m⟩ : Element).accepts c = false ∧ (⟨false, v, 0xFF⟩ : Element).accepts c = true ∧
    (∃ w x y z, l.frame data p q = .char w x y z ∧ (∀ j, j < l.settings.framing.dataBits → w.getLsbD j = data.getLsbD j) ∧
      ∀ j, l.settings.framing.dataBits ≤ j → w.getLsbD j = false)

/-- What an accepted entry does to the matcher (R74 to R77). A clean character advances the patterns that apply, by the element at
their progress or, after a mismatch, by the first element, an anchored one only at a line start; a pattern that reaches its length
completes and returns to 0; the line-start flag follows CR and LF. An entry that is no clean character returns every progress of the
node to 0. An overrun before the entry clears progress and flag first. Other nodes and the table stand. -/
def Obligations.PatternsAdvanceByCleanCharacters : Prop :=
  ∀ (m : Matcher) (n : NodeId) (e : Entry) (v : Byte) (p f u : Bool) (i : PatternIx) (x : Pattern),
    let t := m.take n e
    let k := if e.overrun then 0 else m.progressOf n i
    let start := !e.overrun && m.lineStart.get n
    let reached :=
      if 0 < k ∧ ((x.elements[k]?).map (fun y => y.accepts v)) = some true then k + 1
      else if x.anchored = true ∧ start = false then 0
      else if (x.elements.head?).map (fun y => y.accepts v) = some true then 1 else 0
    let flawed := p = true ∨ f = true ∨ u = true
    t.table = m.table ∧
    (∀ o, o ≠ n → t.progress.get o = m.progress.get o ∧ t.lineStart.get o = m.lineStart.get o) ∧
    (e.kind = .char v p f u → ¬flawed →
      (t.lineStart.get n = true ↔ v = 0x0D ∨ v = 0x0A) ∧
      (m.table.get i = some x → x.mask.getLsbD n.val = true →
        t.progressOf n i = (if reached = x.elements.length then 0 else reached) ∧
        (i ∈ m.completed n e ↔ reached = x.elements.length)) ∧
      (m.table.get i = none ∨ (m.table.get i = some x ∧ x.mask.getLsbD n.val = false) →
        t.progressOf n i = k ∧ i ∉ m.completed n e)) ∧
    ((e.kind = .char v p f u ∧ flawed) ∨ (∀ a b c d, e.kind ≠ .char a b c d) →
      t.progressOf n i = 0 ∧ m.completed n e = []) ∧
    (e.kind = .char v p f u → flawed → t.lineStart.get n = false) ∧
    (e.kind = .mark .reboot → t.lineStart.get n = true) ∧
    (e.kind = .brk ∨ e.kind = .mark .settings ∨ e.kind = .mark .attachGap ∨ (∃ r, e.kind = .mark (.rate r)) →
      t.lineStart.get n = start)

/-- The action of a completed pattern (R78 to R80, R111, R113): NOTIFY raises PATTERN; BOOT_SEEN satisfies a running watch, and is set
aside otherwise; FAULT_SEEN raises PATTERN while fault reboot is off or the report is set aside, and else counts a failure with the
pattern as its cause: below the limit the watch's own RESET or CYCLE begins, named by BOOT_FAILED; EJECT_MEDIA ejects an unlocked medium, raises EJECT_REFUSED for a locked one, and leaves an EMPTY or EJECTING
one. That a failure counted while a hold stands in IDLE goes to HELD below the limit too (R115) is log entry 56. -/
def Obligations.CompletedPatternsAct : Prop :=
  ∀ (s : State) (n : NodeId) (off : Offset) (i : PatternIx),
    let w := s.wt n
    let noted := s.raise (some n) (.pattern i off)
    let fault := s.patternAction n off .faultSeen i
    let stands := w.faultHeld = true ∧ w.state = .idle
    let counts := w.faultReboot = true ∧ (s.pw n).state = .on ∧ (s.pw n).action = none ∧ w.state ≠ .held
    let eject := s.patternAction n off .ejectMedia i
    let locked := s.raise (some n) (.ejectRefused i)
    s.patternAction n off .notify i = noted ∧
    s.patternAction n off .bootSeen i = (if w.state = .watching then
        (s.putWatch n { w with state := .idle, timer := none, count := 0 }).raise (some n) (.bootConfirmed 0 (.pattern i off))
      else s) ∧
    (¬counts → fault = noted) ∧
    (counts → w.limit = 0 → fault = (s.putWatch n { w with state := .idle, timer := none, count := 0 }).raise (some n)
      (.bootFailed 0 (.fault i off) none)) ∧
    (counts → w.limit ≠ 0 → w.limit ≤ w.count + 1 ∨ stands →
      let k := if w.limit ≤ w.count then w.count else w.count + 1
      fault = ((s.putWatch n { w with state := .held, timer := none, count := k, faultHeld := true }).raise (some n)
        (.bootFailed k (.fault i off) none)).raise (some n) (.held k (.fault i off))) ∧
    (counts → w.count + 1 < w.limit → ¬stands →
      let a : Action := ⟨if w.count = 0 then .reset else .cycle, .watch, false, none⟩
      let idle := s.putWatch n { w with state := .idle, timer := none, count := w.count + 1 }
      fault.wt n = { w with state := .idle, timer := none, count := w.count + 1 } ∧
        Begins n a ((s.pw n).begun (s.now / 1000) a) idle fault ∧ UplinkSettled s fault ∧
        fault.notices = (idle.raise (some n) (.bootFailed (w.count + 1) (.fault i off) (some a.kind))).notices) ∧
    (match (s.port n).medium with
      | .empty => eject = s
      | .ejecting _ _ _ => eject = s
      | .loading _ => eject = if (s.port n).lock then locked else s.eject n (.pattern i)
      | .present _ _ => eject = if (s.port n).lock then locked else s.eject n (.pattern i))

/-! ## Virtual media -/

/-- IDENTIFY, READY, CAPACITY, SENSE, PREVENT and ALLOW at a port that takes them, whole (R125, R126). Each ends at once with its
status and its outcome in the sense record; READY alone reports a changed medium, once, and a READ or WRITE leaves that flag; SENSE
returns the record and clears it. A port that takes no request, and a request that is none of the port's, are stated in
PortAttachesDetachesAndAborts. -/
def Obligations.DescribingRequestsEndAtOnce : Prop :=
  ∀ (s t : State) (n : NodeId) (m : MediumRef) (blocks : Nat) (lba : BitVec 32) (count : BitVec 16), s.porn = true →
    let p := s.port n
    let ended (p : MediaPort) (k : SenseKey) (r : UsbReply) : MediaPort := { p with sense := ⟨k, none⟩, usb := r }
    let does (c : Instr) (q : MediaPort) : Prop := Completes c s (s.putPort n q)
    (p.attached = true → p.active = none →
      does (.identify n) (ended p .none (.identify "Ancitra" "Vafrel Virtual Medium" true p.bootFirst)) ∧
      (p.medium.isPresent = false → does (.ready n) (ended p .notReady (.status .notReady)) ∧
        does (.capacity n) (ended p .notReady (.status .notReady))) ∧
      (p.medium = .present m blocks →
        (p.changed = true → does (.ready n) (ended { p with changed := false } .mediumChanged (.status .mediumChanged))) ∧
        (p.changed = false → does (.ready n) (ended p .none (.status .none))) ∧
        does (.capacity n) (ended p .none (.capacity blocks m.size))) ∧
      does (.sense n) (ended p .none (.senseData p.sense)) ∧
      does (.prevent n) (ended { p with lock := true } .none (.status .none)) ∧
      does (.allow n) (ended { p with lock := false } .none (.status .none))) ∧
    (exec (.read n lba count) s = .next t ∨ exec (.write n lba count) s = .next t → (t.port n).changed = p.changed)

/-- READ fails NOT_READY without a PRESENT medium, succeeds at once for no block, and fails OUT_OF_RANGE with its lba past the end
(R128). Else it begins at its first extent: delivering, with a pin, from a VALID one; waiting for one that is FILLING, and for an
absent one with a need handed over (R129). DATA_POLL is answered not-yet while the READ waits, and else takes bytes of the pinned
extent, as many as the poll, the request and the extent have; at the last byte the request succeeds (R122, R127, R129). Log entries:
31 for the room a poll has, 27 for the report before the next extent and a poll that takes nothing, 49 for a poll with no request. -/
def Obligations.ReadsDeliverTheirBlocks : Prop :=
  ∀ (s : State) (n : NodeId) (lba : BitVec 32) (count : BitVec 16) (m : MediumRef) (blocks : Nat) (x : ImageRec)
    (i : ExtentIx) (e : Extent) (a k d room : Nat), s.porn = true →
    let p := s.port n
    let c := Instr.read n lba count
    let poll := Instr.dataPoll n room
    let ended (key : SenseKey) (info : Option (BitVec 32)) : State :=
      s.putPort n { p with sense := ⟨key, info⟩, usb := .status key }
    let key : ExtentKey := ⟨x.server, x.image, BitVec.ofNat 32 (lba.toNat * m.size.bytes / 4096)⟩
    let begun (ph : ReadPhase) (u : UsbReply) : State :=
      s.putPort n { p with active := some (.read lba.toNat count.toNat 0 ph), usb := u }
    (p.attached = false ∨ p.active.isSome → Completes c s s) ∧
    (p.attached = true → p.active = none →
      (p.medium.isPresent = false → Completes c s (ended .notReady none)) ∧
      (p.medium = .present m blocks → count = 0 → Completes c s (ended .none none)) ∧
      (p.medium = .present m blocks → count ≠ 0 → blocks < lba.toNat + count.toNat →
        Completes c s (ended .outOfRange (some lba))) ∧
      (p.medium = .present m blocks → count ≠ 0 → lba.toNat + count.toNat ≤ blocks → s.image m.image = some x →
        (s.pool.lookup key = some (i, e) → e.valid = true →
          Completes c s ((begun (.delivering i) .accept).putPool
            ((s.pool.putExtent i { e with pins := e.pins + 1 }).touch i))) ∧
        (s.pool.lookup key = some (i, e) → e.valid = false → Completes c s (begun .waiting .notYet)) ∧
        (s.pool.lookup key = none → ∃ t, exec c s = .next t ∧ t.ports = (begun .waiting .notYet).ports ∧
          t.power = s.power ∧ t.watches = s.watches ∧ t.lines = s.lines ∧ StreamsSettled s t ∧ UplinkSettled s t ∧
          ((∃ y ∈ t.images.needs, y.image = m.image ∧ y.extent = key.extent ∧ y.waiting.getLsbD n.val = true) ∨
            ∃ f l, (t.images.fetches.get f).live = some l ∧ l.image = m.image ∧ l.extent = key.extent)))) ∧
    (p.active = none → Completes poll s s) ∧
    (p.active = some (.read a k d .waiting) → p.medium.ref?.isSome → Completes poll s (s.putPort n { p with usb := .notYet })) ∧
    (p.active = some (.read a k d (.delivering i)) → p.medium.ref? = some m → s.pool.extents.get i = some e →
      let pos := a * m.size.bytes + d
      let taken := min room (min (k * m.size.bytes - d) (4096 - pos % 4096))
      let data := (List.range taken).map (fun j => e.byteOf (pos % 4096 + j))
      let last : Bool := k * m.size.bytes ≤ d + taken
      (last = false → (pos + taken) % 4096 ≠ 0 ∨ taken = 0 → Completes poll s (s.putPort n { p with
        active := some (.read a k (d + taken) (.delivering i)), usb := .data data false })) ∧
      (last = false → (pos + taken) % 4096 = 0 → 0 < taken → ∃ t ph, exec poll s = .next t ∧
        t.port n = { p with active := some (.read a k (d + taken) ph), usb := .data data false } ∧ ElsewhereKept n s t) ∧
      (last = true → ∃ t, exec poll s = .next t ∧
        t.port n = { p with active := none, sense := ⟨.none, none⟩, usb := .data data true } ∧ ElsewhereKept n s t))

/-- WRITE fails NOT_READY, WRITE_PROTECTED and OUT_OF_RANGE, or succeeds for no block, in that order (R131); else its data phase
begins. A poll, and data offered while a BLOCK_WRITE is outstanding, are answered not-yet. Data is taken and staged up to two blocks,
or the last odd one; a full stage is handed over as one BLOCK_WRITE with the next write generation, and no VALID extent it overlaps
is left (R122, R132, R155). Log entries: 31 for data of any size, what is beyond the stage not taken, 49 for data with no WRITE. -/
def Obligations.WritesHandOverStagedBlocks : Prop :=
  ∀ (s : State) (n : NodeId) (lba : BitVec 32) (count : BitVec 16) (m : MediumRef) (blocks a k done : Nat) (mine : Bool)
    (data : List Byte) (room : Nat) (x : ImageRec), s.porn = true →
    let p := s.port n
    let c := Instr.write n lba count
    let offer := Instr.writeDataReceived n data
    let ended (key : SenseKey) (info : Option (BitVec 32)) : State :=
      s.putPort n { p with sense := ⟨key, info⟩, usb := .status key }
    (p.attached = false ∨ p.active.isSome → Completes c s s) ∧
    (p.attached = true → p.active = none →
      (p.medium.isPresent = false → Completes c s (ended .notReady none)) ∧
      (p.medium = .present m blocks → m.writable = false → Completes c s (ended .writeProtected (some lba))) ∧
      (p.medium = .present m blocks → m.writable = true → count = 0 → Completes c s (ended .none none)) ∧
      (p.medium = .present m blocks → m.writable = true → count ≠ 0 → blocks < lba.toNat + count.toNat →
        Completes c s (ended .outOfRange (some lba))) ∧
      (p.medium = .present m blocks → m.writable = true → count ≠ 0 → lba.toNat + count.toNat ≤ blocks →
        Completes c s (s.putPort n { p with
          active := some (.write lba.toNat count.toNat 0 false), usb := if s.outstanding n then .notYet else .accept }))) ∧
    ((∀ a k d b, p.active ≠ some (.write a k d b)) → Completes offer s s) ∧
    (p.active = some (.write a k done mine) → p.medium.ref? = some m →
      let target := min 1024 ((k - done) * 512)
      let staged := (p.staging ++ data).take target
      let bytes := staged.length
      let offset := (a + done) * 512
      Completes (.dataPoll n room) s (s.putPort n { p with usb := if s.outstanding n then .notYet else .accept }) ∧
      (s.outstanding n = true → Completes offer s (s.putPort n { p with usb := .notYet })) ∧
      (s.outstanding n = false → bytes < target →
        Completes offer s (s.putPort n { p with staging := staged, usb := .accept })) ∧
      (s.outstanding n = false → bytes = target → s.image m.image = some x → ∃ t, exec offer s = .next t ∧
        t.port n = { p with staging := staged, usb := .accept, active := some (.write a k (done + bytes / 512) true) } ∧
        (t.images.writes.get n).generation = (s.images.writes.get n).generation + 1 ∧
        (t.images.writes.get n).live.map WriteOp.unsent = some ⟨m.image, offset, bytes, false, .sending⟩ ∧
        (∀ i e, t.pool.extents.get i = some e → e.key.server = x.server → e.key.image = x.image →
          offset / 4096 ≤ e.key.extent.toNat → e.key.extent.toNat ≤ (offset + bytes - 1) / 4096 → e.valid = false) ∧
        ElsewhereKept n s t ∧ ConsoleKept n s t ∧ UplinkSettled s t))

/-- MEDIA_INSERT (R134, R135): a malformed body is answered BAD_REQUEST, a medium not EMPTY WRONG_STATE, a server that may not serve
the node NOT_PERMITTED, a pair in use where either insert is writable IN_USE, an OPEN image of too many blocks TOO_LARGE, a ninth
image FULL. Else the node joins the image's record: PRESENT at once on an OPEN one, LOADING on an OPENING one, or LOADING on a new
one, whose IMAGE_OPEN is sent and whose extents are owned again (R143 to R145). -/
def Obligations.InsertsLoadOrShareAnImage : Prop :=
  ∀ (s : State) (h : Head) (bytes body : List Byte) (i srv : StationIx) (n : NodeId) (img : BitVec 32) (size : BlockSize)
    (writable : Bool) (r : ImageIx) (x : ImageRec) (len : Nat) (handle : BitVec 32),
    let c := Instr.mediaInsert h bytes
    let p := s.port n
    let refused (z : Result) : Prop := Answers c s h 0x0C s z []
    let medium : MediumRef := ⟨r, size, writable⟩
    let blocks := (len + size.bytes - 1) / size.bytes
    let joined (m : Medium) (changed : Bool) : State :=
      (s.putImage r (some { x with users := x.users ||| (1#8 <<< n.val) })).putPort n { p with medium := m, changed := changed }
    let created : ImageRec := ⟨srv, img, writable, 1#8 <<< n.val, 0, .opening (s.now / 1000 + 2000) false⟩
    Owned s c h 0x0C body i .mediaInsert (some n) →
    (body.length ≠ 8 ∨ 31 < byteAt body 0 ∨ (field body 5 2 ≠ 512 ∧ field body 5 2 ≠ 2048) ∨ 1 < byteAt body 7 ∨
      (field body 5 2 = 2048 ∧ byteAt body 7 = 1) → refused .badRequest) ∧
    (body = be 1 srv.val ++ be 4 img.toNat ++ be 2 size.bytes ++ [if writable then 1 else 0] →
      (writable = true → size = .b512) →
      (p.medium ≠ .empty → refused .wrongState) ∧
      (p.medium = .empty → (s.station srv).mayServe (s.su.tenants.get n) = false → refused .notPermitted) ∧
      (p.medium = .empty → (s.station srv).mayServe (s.su.tenants.get n) = true → ImageLaw s →
        (s.image r = some x → x.server = srv → x.image = img →
          (x.writable = true ∨ writable = true → refused .inUse) ∧
          (x.writable = false → writable = false →
            (x.phase = .opened handle len → 4294967295 < blocks → refused .tooLarge) ∧
            (x.phase = .opened handle len → blocks ≤ 4294967295 →
              Answers c s h 0x0C ((joined (.present medium blocks) true).raise (some n) .mediumInserted) .ok []) ∧
            (x.isOpening = true → Answers c s h 0x0C (joined (.loading medium) p.changed) .ok []))) ∧
        ((∀ q y, s.image q = some y → y.server = srv → y.image ≠ img) →
          ((∀ q, (s.image q).isSome) → refused .full) ∧
          (s.image r = none → (∀ q, q.val < r.val → (s.image q).isSome) →
            Answers c s h 0x0C (((s.putImage r (some created)).putPort n { p with medium := .loading medium }).putPool
              (s.pool.setOwned srv img true)) .ok [] ∧
            ∀ t, exec c s = .next t →
              match (t.image r).map ImageRec.phase with
              | some (.opening _ true) => serverFrame (s.addressOf srv) 0xA2 (be 4 img.toNat ++ flagByte writable) ∈ t.up.frames
              | _ => True))))

/-- MEDIA_EJECT: a body that is no one flag byte is answered BAD_REQUEST, an EMPTY or EJECTING medium NO_EFFECT, a locked one without
FORCE LOCKED; else the eject is taken and answered OK (R136). EJECT_BY_NODE fails NOT_READY with no medium, succeeds in EJECTING
without change, and else takes the eject whatever the lock and succeeds (R137). -/
def Obligations.EjectsEmptyTheMedium : Prop :=
  ∀ (s : State) (h : Head) (bytes body : List Byte) (i : StationIx) (n : NodeId) (flags : Byte),
    let p := s.port n
    let gone := p.medium = .empty ∨ p.medium.code = 3
    let ended (k : SenseKey) (p : MediaPort) : MediaPort := { p with sense := ⟨k, none⟩, usb := .status k }
    (let c := Instr.mediaEject h bytes;
      Owned s c h 0x0D body i .mediaEject (some n) →
      (body.length ≠ 1 → Answers c s h 0x0D s .badRequest []) ∧
      (body = [flags] → gone → Answers c s h 0x0D s .noEffect []) ∧
      (body = [flags] → ¬gone → p.lock = true → flags.getLsbD 0 = false → Answers c s h 0x0D s .locked []) ∧
      (body = [flags] → ¬gone → p.lock = false ∨ flags.getLsbD 0 = true → ∃ t, exec c s = .next t ∧
        Ejected n (.station i (flags.getLsbD 0)) id s t ∧ UplinkSettled (s.withAnswer h 0x0D .ok []) t)) ∧
    (let c := Instr.ejectByNode n;
      s.porn = true →
      (p.attached = false ∨ p.active.isSome → Completes c s s) ∧
      (p.attached = true → p.active = none →
        (p.medium = .empty → Completes c s (s.putPort n (ended .notReady p))) ∧
        (p.medium.code = 3 → Completes c s (s.putPort n (ended .none p))) ∧
        (¬gone → ∃ t, exec c s = .next t ∧ Ejected n .node (ended .none) s t ∧ UplinkSettled s t)))

/-! ## The image service -/

/-- The screening of server replies (R146, R184): a malformed body, a sender that serves no record, and then, by kind, an OPEN_REPLY
no record waits for or with a length out of range, an EXTENT_DATA of no live fetch, of another server's fetch, or of a fragment the
fetch does not need, and a WRITE_REPLY of no write sent or of another server's, are discarded and counted, and nothing else
changes. That an EXTENT_DATA with bytes after its data is not malformed is log entry 39. -/
def Obligations.ServerRepliesAreScreened : Prop :=
  ∀ (s : State) (h : Head) (bytes body : List Byte) (i : StationIx) (f : FetchIx) (l : Fetch) (n : NodeId) (w : WriteOp)
    (x : ImageRec),
    let serves := ∃ r y, s.image r = some y ∧ y.server = i
    let late (c : Instr) : Prop := Completes c s (s.putImages { s.images with late := min (s.images.late + 1) 65535 })
    let foreign (c : Instr) : Prop := Completes c s (s.putImages { s.images with foreign := min (s.images.foreign + 1) 65535 })
    let malformed (c : Instr) : Prop :=
      Completes c s (s.putImages { s.images with malformed := min (s.images.malformed + 1) 65535 })
    let length := field body 8 6
    let count := field body 4 2
    (let c := Instr.openReply h bytes;
      Takes s c h 0x20 body i →
      (body.length < 14 → malformed c) ∧
      (14 ≤ body.length → ¬serves → foreign c) ∧
      (14 ≤ body.length → serves →
        length = 0 ∨ 2 ^ 41 ≤ length ∨
          (∀ r y, s.image r = some y → y.server = i → y.image = BitVec.ofNat 32 (field body 0 4) →
            y.isOpening = true → ∃ d, y.phase = .opening d false) → late c)) ∧
    (let c := Instr.extentData h bytes;
      let bad := body.length < 6 ∨ 3 < byteAt body 2 ∨ 1024 < count ∨ body.length < 6 + count
      let e := s.images.fetches.get f
      Takes s c h 0x21 body i →
      (bad → malformed c) ∧
      (¬bad → ¬serves → foreign c) ∧
      (¬bad → serves → 32 ≤ byteAt body 0 → late c) ∧
      (¬bad → serves → byteAt body 0 = f.val →
        (e.live = none ∨ e.generation.toNat ≠ byteAt body 1 → late c) ∧
        (e.live = some l → e.generation.toNat = byteAt body 1 → s.image l.image = some x →
          (x.server ≠ i → foreign c) ∧ (x.server = i → l.needed ≤ byteAt body 2 → malformed c)))) ∧
    (let c := Instr.writeReply h bytes;
      let bad := body.length < 3 ∨ 1 < byteAt body 2
      let e := s.images.writes.get n
      Takes s c h 0x22 body i →
      (bad → malformed c) ∧
      (¬bad → ¬serves → foreign c) ∧
      (¬bad → serves → 8 ≤ byteAt body 0 → late c) ∧
      (¬bad → serves → byteAt body 0 = n.val →
        (e.live = none ∨ e.generation.toNat ≠ byteAt body 1 → late c) ∧
        (e.live = some w → w.phase = .sending → late c) ∧
        (e.live = some w → w.phase ≠ .sending → e.generation.toNat = byteAt body 1 → s.image w.image = some x → x.server ≠ i →
          foreign c)))

/-- The end of an open (R123, R135, R144). A taken OPEN_REPLY stores handle and length: every node LOADING on the record enters PRESENT
with MEDIUM_INSERTED, or EMPTY with INSERT_FAILED where its blocks would be more than 4,294,967,295. OPEN_TIMER_EXPIRY of an OPENING
record takes them all to EMPTY with INSERT_FAILED, and of any other record changes nothing. A record left without users is removed.
Bytes after the fields of an OPEN_REPLY are ignored (R184). Log entries: 49 for the other records, 3 for the clock at an expiry. -/
def Obligations.OpensEndInEveryWaitingMedium : Prop :=
  ∀ (s : State) (h : Head) (bytes body : List Byte) (i : StationIx) (r : ImageIx) (x : ImageRec) (d : Nat) (sent : Bool),
    let length := field body 8 6
    let handle := BitVec.ofNat 32 (field body 4 4)
    let blocks (m : MediumRef) : Nat := (length + m.size.bytes - 1) / m.size.bytes
    let emptied (p : MediaPort) : MediaPort := { p with medium := .empty, bootFirst := false, grantBoot := false }
    let waiting (n : NodeId) : Option MediumRef :=
      match (s.port n).medium with
      | .loading m => if m.image = r then some m else none
      | _ => none
    let replied (n : NodeId) : Option (MediaPort × Event) := (waiting n).map (fun m =>
      if 4294967295 < blocks m then (emptied (s.port n), .insertFailed true)
      else ({ s.port n with medium := .present m (blocks m), changed := true }, .mediumInserted))
    let expired (n : NodeId) : Option (MediaPort × Event) := (waiting n).map (fun _ => (emptied (s.port n), .insertFailed false))
    let ends (c : Instr) (e : State) (y : ImageRec) (after : NodeId → Option (MediaPort × Event)) : Prop :=
      ∃ t, exec c s = .next t ∧
        MediaOnly e t ∧ (∀ q, q ≠ r → (t.image q).map ImageRec.unsent = (e.image q).map ImageRec.unsent) ∧ WritesSettled e t ∧
        (∀ n, t.port n = (match after n with
          | some a => a.1
          | none => e.port n)) ∧
        NoticesSettled (allNodes.foldl (fun a n => match after n with
          | some b => a.raise (some n) b.2
          | none => a) e) t ∧
        match t.image r with
        | some z => z.unsent = ({ y with users := z.users } : ImageRec).unsent ∧ z.users ≠ 0 ∧
          t.images.unsentClose = e.images.unsentClose
        | none => (∀ n, y.users.getLsbD n.val = true → (t.port n).medium = .empty) ∧
          (y.isOpening = false → s.closeFrame y ∈ t.up.frames ∨ t.images.unsentClose = min (e.images.unsentClose + 1) 65535)
    ImageLaw s → s.image r = some x → x.users ≠ 0 →
    (let c := Instr.openReply h bytes;
      Takes s c h 0x20 body i → 14 ≤ body.length → 1 ≤ length → length < 2 ^ 41 → x.server = i →
      x.image = BitVec.ofNat 32 (field body 0 4) → x.phase = .opening d true →
      ends c s { x with phase := .opened handle length } replied) ∧
    (s.porn = true → x.phase = .opening d sent →
      ends (.openTimerExpiry r) { s with now := max s.now (d * 1000) } x expired) ∧
    (s.porn = true → x.isOpening = false → Completes (.openTimerExpiry r) s s)

/-- A taken EXTENT_DATA (R151, R152). Bytes after its data are ignored (R184; that R146 does not make the body malformed for them is
the model's reading, log entry 39). A fragment already received changes nothing; another is written with zeros behind its bytes, and
joins the received set. The fragment that completes the fill sets the record's failures to 0; on a target that is not stale it makes
the extent VALID, zero beyond the image length, pinned once for each READ that waited and now delivers from it; on a stale one the
waiting READs wait on with a new need. -/
def Obligations.FragmentsFillTheirExtent : Prop :=
  ∀ (s : State) (h : Head) (bytes body : List Byte) (i : StationIx) (f : FetchIx) (l : Fetch) (x : ImageRec) (e : Extent) (j : Nat),
    let c := Instr.extentData h bytes
    let entry := s.images.fetches.get f
    let frag := byteAt body 2
    let count := field body 4 2
    let data := (body.drop 6).take count
    let got := l.received ||| (1#4 <<< frag)
    let written : Extent := { e with frags := e.frags.set frag (data ++ List.replicate (1024 - count) 0) }
    let complete := ∀ q, q < l.needed → got.getLsbD q = true
    let waiting := s.waiters (x.key l.extent)
    let cleared := s.putImage l.image (some { x with failures := 0 })
    Takes s c h 0x21 body i → 6 + count ≤ body.length → frag ≤ 3 → count ≤ 1024 → byteAt body 0 = f.val → byteAt body 1 = entry.generation.toNat →
    entry.live = some l → s.image l.image = some x → x.server = i → frag < l.needed → s.pool.extents.get l.target = some e →
    (l.received.getLsbD frag = true → Completes c s s) ∧
    (l.received.getLsbD frag = false → ¬complete →
      Completes c s ((s.putFetch f { entry with live := some { l with received := got } }).putPool
        (s.pool.putExtent l.target written))) ∧
    (l.received.getLsbD frag = false → complete → ∃ t, exec c s = .next t ∧ MediaOnly s t ∧ ImagesSettled cleared t ∧
      NoticesSettled s t ∧
      ((t.images.fetches.get f).live = none ∨ (t.images.fetches.get f).generation = entry.generation + 1) ∧
      (e.stale = false →
        (∀ n, t.port n = match (s.port n).active with
          | some (.read a k d .waiting) =>
            if n ∈ waiting then { s.port n with active := some (.read a k d (.delivering l.target)), usb := .accept } else s.port n
          | _ => s.port n) ∧
        (waiting ≠ [] ∧ 1 ≤ e.pins ∨ s.images.needs = [] → ∃ y, t.pool.extents.get l.target = some y ∧ y.key = e.key ∧ y.valid = true ∧
          y.cells = e.cells ∧ y.pins = e.pins + waiting.length - 1 ∧ (s.images.needs = [] → t.pool.recency.getLast? = some l.target) ∧
          (j < 4096 → y.byteOf j = if x.length ≤ 4096 * l.extent.toNat + j then 0 else written.byteOf j))) ∧
      (e.stale = true → e.key = x.key l.extent →
        (∀ p y, s.pool.extents.get p = some y → y.key = x.key l.extent → p = l.target) →
        ∀ n ∈ waiting, ∀ a k d m, (s.port n).active = some (.read a k d .waiting) → (s.port n).medium.ref? = some m →
          d < k * m.size.bytes → t.port n = s.port n ∧
          ((∃ z ∈ t.images.needs, z.extent = l.extent ∧ z.waiting.getLsbD n.val = true) ∨
            ∃ g z, (t.images.fetches.get g).live = some z ∧ z.extent = l.extent)))

/-- FETCH_TIMER_EXPIRY (R153, R158). At the first expiry the EXTENT_READ is sent again with its tag, at once where a descriptor is free,
else when one is; at the second the fetch fails: every waiting READ ends MEDIUM_ERROR with the first block not received, and the
failure is counted on the record, the third in a row losing the server. Its entry is FREE, its generation kept, and its target freed,
unless a need is issued into them at once; the other fetches stand, but those of a record that is removed. An expiry of a timer that
does not run changes nothing (log entries 3 and 49). Log entries: 3 for the clock at an expiry, 57 for the moment at which a need is
tried. -/
def Obligations.FetchesAreRetriedOnceThenFail : Prop :=
  ∀ (s : State) (f : FetchIx) (l : Fetch) (x : ImageRec) (d : Nat), s.porn = true →
    let c := Instr.fetchTimerExpiry f
    let entry := s.images.fetches.get f
    let later := { s with now := max s.now (d * 1000) }
    let failed (n : NodeId) : MediaPort :=
      match (s.port n).active, (s.port n).medium.ref? with
      | some (.read a _ k .waiting), some m => { s.port n with
          active := none, sense := ⟨.mediumError, some (BitVec.ofNat 32 (a + k / m.size.bytes))⟩, usb := .status .mediumError,
          staging := if s.outstanding n then (s.port n).staging else [] }
      | _, _ => s.port n
    (entry.live = none ∨ entry.live.bind Fetch.timer = none → Completes c s s) ∧
    (entry.live = some l → l.timer = some d → s.image l.image = some x →
      (l.second = false → Completes c s (later.putFetch f { entry with live := some { l with second := true } }) ∧
        (1 ≤ s.up.outside → ∀ t, exec c s = .next t → s.readFrame x l.extent l.needed f entry.generation ∈ t.up.frames ∧
          (t.images.fetches.get f).live = some { l with second := true, timer := some (later.now / 1000 + s.images.timeout) })) ∧
      (l.second = true → ImageLaw s → ∃ t, exec c s = .next t ∧
        FailureCounted l.image
          ((s.waiters (x.key l.extent)).foldl (fun a n => a.putPort n (failed n)) later) t ∧
        (s.images.needs = [] → t.images.fetches.get f = ⟨entry.generation, none⟩ ∧ t.pool.extents.get l.target = none) ∧
        (x.failures < 2 → t.images.fetches.get f = ⟨entry.generation, none⟩ ∨
          (t.images.fetches.get f).generation = entry.generation + 1) ∧
        (2 ≤ x.failures → x.users ≠ 0 → ∀ q, (t.images.fetches.get f).live = some q → q.image ≠ l.image) ∧
        (t.pool.extents.get l.target = none ∨ ∃ g q, (t.images.fetches.get g).live = some q ∧ q.target = l.target) ∧
        ∀ g, g ≠ f → ∀ q, (s.images.fetches.get g).live = some q → x.failures < 2 ∨ q.image ≠ l.image →
          (t.images.fetches.get g).generation = (s.images.fetches.get g).generation ∧
          (t.images.fetches.get g).live.map Fetch.unsent = some q.unsent))

/-- The end of a BLOCK_WRITE (R132, R133, R136, R155, R156, R158). A WRITE_REPLY taken for a sent write ends it with its status;
WRITE_TIMER_EXPIRY sends it again at the first expiry, with its tag, and at the second ends it as failed; while no write waits it
changes nothing. The staged bytes are freed. A WRITE that owns it goes on, or ends, or ends MEDIUM_ERROR; an EJECTING medium is EMPTY
with MEDIUM_EJECTED; then an OK makes the record's failures 0, and a failure is counted, the third in a row losing the server. Bytes
after the fields of a WRITE_REPLY are ignored (R184). Log entries: 3 and 49 for an expiry with no write waiting, 3 for the clock at an
expiry. -/
def Obligations.WritesEndOnceWithAnOutcome : Prop :=
  ∀ (s : State) (h : Head) (bytes body : List Byte) (i : StationIx) (n : NodeId) (w : WriteOp) (x : ImageRec) (d : Nat),
    let entry := s.images.writes.get n
    let later := { s with now := max s.now (d * 1000) }
    (let c := Instr.writeReply h bytes;
      Takes s c h 0x22 body i → 3 ≤ body.length → byteAt body 0 = n.val → byteAt body 1 = entry.generation.toNat → byteAt body 2 ≤ 1 →
      entry.live = some w → w.phase ≠ .sending → s.image w.image = some x → x.server = i → ImageLaw s → FetchLaw s →
      ∃ t, exec c s = .next t ∧ WriteEnds n w x (byteAt body 2 = 0) s t) ∧
    (let c := Instr.writeTimerExpiry n;
      s.porn = true →
      ((∀ w d, entry.live = some w → w.phase ≠ .waiting d) → Completes c s s) ∧
      (entry.live = some w → w.phase = .waiting d → s.image w.image = some x →
        (w.second = false → Completes c s (later.putWrite n { entry with live := some { w with second := true } }) ∧
          (1 ≤ s.up.outside → ∀ t, exec c s = .next t →
            s.writeFrame x w n entry.generation (s.port n).staging ∈ t.up.frames)) ∧
        (w.second = true → ImageLaw s → FetchLaw s → ∃ t, exec c s = .next t ∧ WriteEnds n w x false later t)))

/-! ## The Settings Loader and restart -/

/-- SAVE and RELOAD are answered BUSY unless the loader is IDLE. A SAVE forms the list from the tables and sends the single byte 00h; as
each write is reported finished its bytes stand in the memory and the next page is sent, the one at address 0 last, and with it
SAVE_DONE is raised. A write not reported within 50 ms ends the SAVE with SAVE_FAILED, its bytes alone open. A RELOAD clears the counts
and reads from address 0 (R191, R195, R196). Log entries: 6 for the bytes stored at the report and those left open, 36 for the moments
of the writes and their 50 ms, 20 for BUSY before the body's length, 49 for reports outside a SAVE, 3 for the clock at an expiry. -/
def Obligations.SaveWritesPagesAndReloadReads : Prop :=
  ∀ (s : State) (h : Head) (bytes body : List Byte) (i : StationIx) (list : List Byte) (step : SaveStep) (d a : Nat),
    (let c := Instr.save h bytes;
      Owned s c h 0x0E body i .save none →
      (s.loader.activity ≠ .idle → Answers c s h 0x0E s .busy []) ∧
      (s.loader.activity = .idle → body ≠ [] → Answers c s h 0x0E s .badRequest []) ∧
      (s.loader.activity = .idle → body = [] → Answers c s h 0x0E
        (s.putLoader { s.loader with activity := .saving s.saveList .blank (s.now / 1000 + 50) }) .ok [])) ∧
    (let c := Instr.reload h bytes;
      Owned s c h 0x0F body i .reload none →
      (s.loader.activity ≠ .idle → Answers c s h 0x0F s .busy []) ∧
      (s.loader.activity = .idle → body ≠ [] → Answers c s h 0x0F s .badRequest []) ∧
      (s.loader.activity = .idle → body = [] → Answers c s h 0x0F (s.putLoader ⟨.reloading 0, 0, 0, 0⟩) .ok [])) ∧
    (s.porn = true →
      let first := match step with
        | .page k => 256 * k
        | _ => 0
      let past := match step with
        | .blank => 1
        | _ => first + 256
      let outside := a < first ∨ past ≤ a
      let after (e : State) : State := match step with
        | .blank => e.putLoader { s.loader with
            activity := .saving list (if 256 < list.length then .page 1 else .final) (s.now / 1000 + 50) }
        | .page k => e.putLoader { s.loader with
            activity := .saving list (if 256 * (k + 1) < list.length then .page (k + 1) else .final) (s.now / 1000 + 50) }
        | .final => (e.putLoader { s.loader with activity := .idle }).raise none .saveDone
      let later := { s with now := max s.now (d * 1000) }
      (s.saving = false → Completes .pageWriteFinished s s ∧ Completes .pageWriteTimeout s s) ∧
      (s.loader.activity = .saving list step d →
        (∃ t, exec .pageWriteFinished s = .next t ∧
          Settles (after { s with config := t.config, blanks := s.blanks + 1 }) t ∧
          (ConfigLaw s → (outside → memRead t.config a = memRead s.config a) ∧ (step = .blank → memRead t.config 0 = 0) ∧
            (step ≠ .blank → ¬outside → a < list.length → a ≤ 65535 → some (memRead t.config a) = list[a]?))) ∧
        (∃ t, exec .pageWriteTimeout s = .next t ∧
          Settles ((({ later with config := t.config, blanks := s.blanks + 1 }).putLoader { s.loader with activity := .idle }).raise
            none (.saveFailed first)) t ∧
          (ConfigLaw s → outside → memRead t.config a = memRead s.config a))))

/-- RESTART puts every block in its restart state in one event, and its answer OK is the one frame left (R197): settings, tables,
counts, generations, history and a hold stand; rings pass to history; ports, media, images, fetches, writes, extents, pending sets,
attachments, actions and a running SAVE or RELOAD are gone, with no event raised (R43, R67, R83, R104, R119, R140, R161, R176). Log
entries: 47 for the frame in the port, dropped with the queue, 33 for what the part knows of RXD as the quiet wait starts, 6 for the
page write under way, stored at once with its tail bytes left open. -/
def Obligations.RestartResetsEveryBlock : Prop :=
  ∀ (s : State) (h : Head) (bytes body : List Byte) (i : StationIx),
    let c := Instr.restart h bytes
    Owned s c h 0x10 body i .restart none →
    (body ≠ [] → Answers c s h 0x10 s .badRequest []) ∧
    (body = [] → ∃ t, exec c s = .next t ∧
      t.up = { s.up with queue := [], port := some (answerFrame h 0x10 .ok []), rotation := .media, promised := 0 } ∧
      t.now = s.now ∧ t.porn = s.porn ∧ t.straps = s.straps ∧ t.su = s.su ∧ t.lease = s.lease ∧ t.pending = s.pending ∧
      t.matcher = { s.matcher with progress := Tab.fill 8 (Tab.fill 32 0) } ∧
      t.images = { s.images with
        images := Tab.fill 8 none, fetches := s.images.fetches.map (fun f => ⟨f.generation, none⟩), needs := [],
        writes := s.images.writes.map (fun w => ⟨w.generation, none⟩) } ∧
      t.pool = { s.pool with extents := Tab.fill 128 none, recency := [], waiting := false } ∧
      t.notices = ⟨Tab.fill 8 ⟨[], none⟩, ⟨[], none⟩, s.notices.gapMs⟩ ∧ t.loader = { s.loader with activity := .idle } ∧
      (match s.loader.activity with
        | .saving list step _ => t.config = memWriteAll s.config step.address (pageBytes list step s.blanks)
        | _ => t.config = s.config) ∧
      ∀ n,
        let l := s.lines.get n
        let u := s.streams.get n
        let v := t.streams.get n
        let p := s.pw n
        let q := s.port n
        t.lines.get n = { l with
          candidate := 0, hunting := false, errors := 0, goodRun := 0, laps := 0, discard := 0, noisy := false,
          suspended := false, txQueue := [], transmitter := .idle,
          receiver := .quiet (if l.rxd then some (s.now + charTime l.settings.framing l.settings.primary) else none) } ∧
        v = { u with
          ring := [], overrun := false, flush := none, batchDue := false, atts := [], replay := none,
          chain := v.chain, oldest := v.oldest } ∧
        v.history <:+ u.history ++ u.ring ∧
        (CellLaw s → 1 ≤ u.settings.histMin → u.ring ≠ [] → v.history.getLast? = u.ring.getLast?) ∧
        t.pw n = { p with
          state := .unknown, action := none, phase := none, tick := none, button := false, reset := false, granted := false,
          reattach := none, armed := false, filtered := .unacquired, wait := some (s.now / 1000 + p.settings.filterMs) } ∧
        t.wt n = (if (s.wt n).state = .watching then { s.wt n with state := .idle, timer := none } else s.wt n) ∧
        t.port n = ⟨q.busPower, false, false, false, .empty, false, q.changed || decide (q.medium ≠ .empty), none, ⟨.none, none⟩, [],
          q.readAhead, .nothing⟩)
end

