-- ==== Sys2Proof/Laws/State.lean ====
section
/-! SUPPORT. What each update of the state leaves in each field, and the laws of the fixed-size tables. -/
namespace Sys2Proof

/-! ## Tables -/

@[simp] theorem Tab.get_put_same {α : Type} {n : Nat} (t : Tab α n) (i : Fin n) (x : α) : (t.put i x).get i = x := by
  simp [Tab.get, Tab.put]

theorem Tab.get_put {α : Type} {n : Nat} (t : Tab α n) (i j : Fin n) (x : α) :
    (t.put i x).get j = if j = i then x else t.get j := by
  by_cases h : j = i
  · subst h; simp
  · have h' : i.val ≠ j.val := fun e => h (Fin.ext e.symm)
    simp [Tab.get, Tab.put, h, h']

@[simp] theorem Tab.get_put_ne {α : Type} {n : Nat} (t : Tab α n) {i j : Fin n} (x : α) (h : j ≠ i) :
    (t.put i x).get j = t.get j := by simp [Tab.get_put, h]

@[simp] theorem Tab.get_map {α β : Type} {n : Nat} (f : α → β) (t : Tab α n) (i : Fin n) : (t.map f).get i = f (t.get i) := by
  simp [Tab.get, Tab.map]

@[simp] theorem Tab.get_fill {α : Type} {n : Nat} (x : α) (i : Fin n) : (Tab.fill n x).get i = x := by
  simp [Tab.get, Tab.fill]

theorem Tab.ext {α : Type} {n : Nat} {t u : Tab α n} (h : ∀ i, t.get i = u.get i) : t = u :=
  Vector.ext (fun i hi => h ⟨i, hi⟩)

@[simp] theorem mem_allNodes (n : NodeId) : n ∈ allNodes := by revert n; decide

@[simp] theorem mem_indices {k : Nat} (i : Fin k) : i ∈ indices k := List.mem_finRange i

end Sys2Proof

namespace Sys2Proof.Machine
variable (s : State)


/-! ## reachUs -/

@[simp] theorem State.reachUs_now (us : Nat) : (s.reachUs us).now = max s.now us := rfl
@[simp] theorem State.reachUs_porn (us : Nat) : (s.reachUs us).porn = s.porn := rfl
@[simp] theorem State.reachUs_straps (us : Nat) : (s.reachUs us).straps = s.straps := rfl
@[simp] theorem State.reachUs_su (us : Nat) : (s.reachUs us).su = s.su := rfl
@[simp] theorem State.reachUs_up (us : Nat) : (s.reachUs us).up = s.up := rfl
@[simp] theorem State.reachUs_lines (us : Nat) : (s.reachUs us).lines = s.lines := rfl
@[simp] theorem State.reachUs_streams (us : Nat) : (s.reachUs us).streams = s.streams := rfl
@[simp] theorem State.reachUs_lease (us : Nat) : (s.reachUs us).lease = s.lease := rfl
@[simp] theorem State.reachUs_matcher (us : Nat) : (s.reachUs us).matcher = s.matcher := rfl
@[simp] theorem State.reachUs_power (us : Nat) : (s.reachUs us).power = s.power := rfl
@[simp] theorem State.reachUs_watches (us : Nat) : (s.reachUs us).watches = s.watches := rfl
@[simp] theorem State.reachUs_ports (us : Nat) : (s.reachUs us).ports = s.ports := rfl
@[simp] theorem State.reachUs_images (us : Nat) : (s.reachUs us).images = s.images := rfl
@[simp] theorem State.reachUs_pool (us : Nat) : (s.reachUs us).pool = s.pool := rfl
@[simp] theorem State.reachUs_notices (us : Nat) : (s.reachUs us).notices = s.notices := rfl
@[simp] theorem State.reachUs_loader (us : Nat) : (s.reachUs us).loader = s.loader := rfl
@[simp] theorem State.reachUs_config (us : Nat) : (s.reachUs us).config = s.config := rfl
@[simp] theorem State.reachUs_picks (us : Nat) : (s.reachUs us).picks = s.picks := rfl
@[simp] theorem State.reachUs_blanks (us : Nat) : (s.reachUs us).blanks = s.blanks := rfl
@[simp] theorem State.reachUs_pending (us : Nat) : (s.reachUs us).pending = s.pending := rfl

/-! ## reachMs -/

@[simp] theorem State.reachMs_now (ms : Nat) : (s.reachMs ms).now = max s.now (ms * 1000) := rfl
@[simp] theorem State.reachMs_porn (ms : Nat) : (s.reachMs ms).porn = s.porn := rfl
@[simp] theorem State.reachMs_straps (ms : Nat) : (s.reachMs ms).straps = s.straps := rfl
@[simp] theorem State.reachMs_su (ms : Nat) : (s.reachMs ms).su = s.su := rfl
@[simp] theorem State.reachMs_up (ms : Nat) : (s.reachMs ms).up = s.up := rfl
@[simp] theorem State.reachMs_lines (ms : Nat) : (s.reachMs ms).lines = s.lines := rfl
@[simp] theorem State.reachMs_streams (ms : Nat) : (s.reachMs ms).streams = s.streams := rfl
@[simp] theorem State.reachMs_lease (ms : Nat) : (s.reachMs ms).lease = s.lease := rfl
@[simp] theorem State.reachMs_matcher (ms : Nat) : (s.reachMs ms).matcher = s.matcher := rfl
@[simp] theorem State.reachMs_power (ms : Nat) : (s.reachMs ms).power = s.power := rfl
@[simp] theorem State.reachMs_watches (ms : Nat) : (s.reachMs ms).watches = s.watches := rfl
@[simp] theorem State.reachMs_ports (ms : Nat) : (s.reachMs ms).ports = s.ports := rfl
@[simp] theorem State.reachMs_images (ms : Nat) : (s.reachMs ms).images = s.images := rfl
@[simp] theorem State.reachMs_pool (ms : Nat) : (s.reachMs ms).pool = s.pool := rfl
@[simp] theorem State.reachMs_notices (ms : Nat) : (s.reachMs ms).notices = s.notices := rfl
@[simp] theorem State.reachMs_loader (ms : Nat) : (s.reachMs ms).loader = s.loader := rfl
@[simp] theorem State.reachMs_config (ms : Nat) : (s.reachMs ms).config = s.config := rfl
@[simp] theorem State.reachMs_picks (ms : Nat) : (s.reachMs ms).picks = s.picks := rfl
@[simp] theorem State.reachMs_blanks (ms : Nat) : (s.reachMs ms).blanks = s.blanks := rfl
@[simp] theorem State.reachMs_pending (ms : Nat) : (s.reachMs ms).pending = s.pending := rfl

/-! ## putLine -/

@[simp] theorem State.putLine_now (n : NodeId) (x : Line) : (s.putLine n x).now = s.now := rfl
@[simp] theorem State.putLine_porn (n : NodeId) (x : Line) : (s.putLine n x).porn = s.porn := rfl
@[simp] theorem State.putLine_straps (n : NodeId) (x : Line) : (s.putLine n x).straps = s.straps := rfl
@[simp] theorem State.putLine_su (n : NodeId) (x : Line) : (s.putLine n x).su = s.su := rfl
@[simp] theorem State.putLine_up (n : NodeId) (x : Line) : (s.putLine n x).up = s.up := rfl
@[simp] theorem State.putLine_lines (n : NodeId) (x : Line) : (s.putLine n x).lines = s.lines.put n x := rfl
@[simp] theorem State.putLine_streams (n : NodeId) (x : Line) : (s.putLine n x).streams = s.streams := rfl
@[simp] theorem State.putLine_lease (n : NodeId) (x : Line) : (s.putLine n x).lease = s.lease := rfl
@[simp] theorem State.putLine_matcher (n : NodeId) (x : Line) : (s.putLine n x).matcher = s.matcher := rfl
@[simp] theorem State.putLine_power (n : NodeId) (x : Line) : (s.putLine n x).power = s.power := rfl
@[simp] theorem State.putLine_watches (n : NodeId) (x : Line) : (s.putLine n x).watches = s.watches := rfl
@[simp] theorem State.putLine_ports (n : NodeId) (x : Line) : (s.putLine n x).ports = s.ports := rfl
@[simp] theorem State.putLine_images (n : NodeId) (x : Line) : (s.putLine n x).images = s.images := rfl
@[simp] theorem State.putLine_pool (n : NodeId) (x : Line) : (s.putLine n x).pool = s.pool := rfl
@[simp] theorem State.putLine_notices (n : NodeId) (x : Line) : (s.putLine n x).notices = s.notices := rfl
@[simp] theorem State.putLine_loader (n : NodeId) (x : Line) : (s.putLine n x).loader = s.loader := rfl
@[simp] theorem State.putLine_config (n : NodeId) (x : Line) : (s.putLine n x).config = s.config := rfl
@[simp] theorem State.putLine_picks (n : NodeId) (x : Line) : (s.putLine n x).picks = s.picks := rfl
@[simp] theorem State.putLine_blanks (n : NodeId) (x : Line) : (s.putLine n x).blanks = s.blanks := rfl
@[simp] theorem State.putLine_pending (n : NodeId) (x : Line) : (s.putLine n x).pending = s.pending := rfl

/-! ## putStream -/

@[simp] theorem State.putStream_now (n : NodeId) (x : Stream) : (s.putStream n x).now = s.now := rfl
@[simp] theorem State.putStream_porn (n : NodeId) (x : Stream) : (s.putStream n x).porn = s.porn := rfl
@[simp] theorem State.putStream_straps (n : NodeId) (x : Stream) : (s.putStream n x).straps = s.straps := rfl
@[simp] theorem State.putStream_su (n : NodeId) (x : Stream) : (s.putStream n x).su = s.su := rfl
@[simp] theorem State.putStream_up (n : NodeId) (x : Stream) : (s.putStream n x).up = s.up := rfl
@[simp] theorem State.putStream_lines (n : NodeId) (x : Stream) : (s.putStream n x).lines = s.lines := rfl
@[simp] theorem State.putStream_streams (n : NodeId) (x : Stream) : (s.putStream n x).streams = s.streams.put n x := rfl
@[simp] theorem State.putStream_lease (n : NodeId) (x : Stream) : (s.putStream n x).lease = s.lease := rfl
@[simp] theorem State.putStream_matcher (n : NodeId) (x : Stream) : (s.putStream n x).matcher = s.matcher := rfl
@[simp] theorem State.putStream_power (n : NodeId) (x : Stream) : (s.putStream n x).power = s.power := rfl
@[simp] theorem State.putStream_watches (n : NodeId) (x : Stream) : (s.putStream n x).watches = s.watches := rfl
@[simp] theorem State.putStream_ports (n : NodeId) (x : Stream) : (s.putStream n x).ports = s.ports := rfl
@[simp] theorem State.putStream_images (n : NodeId) (x : Stream) : (s.putStream n x).images = s.images := rfl
@[simp] theorem State.putStream_pool (n : NodeId) (x : Stream) : (s.putStream n x).pool = s.pool := rfl
@[simp] theorem State.putStream_notices (n : NodeId) (x : Stream) : (s.putStream n x).notices = s.notices := rfl
@[simp] theorem State.putStream_loader (n : NodeId) (x : Stream) : (s.putStream n x).loader = s.loader := rfl
@[simp] theorem State.putStream_config (n : NodeId) (x : Stream) : (s.putStream n x).config = s.config := rfl
@[simp] theorem State.putStream_picks (n : NodeId) (x : Stream) : (s.putStream n x).picks = s.picks := rfl
@[simp] theorem State.putStream_blanks (n : NodeId) (x : Stream) : (s.putStream n x).blanks = s.blanks := rfl
@[simp] theorem State.putStream_pending (n : NodeId) (x : Stream) : (s.putStream n x).pending = s.pending := rfl

/-! ## putPower -/

@[simp] theorem State.putPower_now (n : NodeId) (x : Power) : (s.putPower n x).now = s.now := rfl
@[simp] theorem State.putPower_porn (n : NodeId) (x : Power) : (s.putPower n x).porn = s.porn := rfl
@[simp] theorem State.putPower_straps (n : NodeId) (x : Power) : (s.putPower n x).straps = s.straps := rfl
@[simp] theorem State.putPower_su (n : NodeId) (x : Power) : (s.putPower n x).su = s.su := rfl
@[simp] theorem State.putPower_up (n : NodeId) (x : Power) : (s.putPower n x).up = s.up := rfl
@[simp] theorem State.putPower_lines (n : NodeId) (x : Power) : (s.putPower n x).lines = s.lines := rfl
@[simp] theorem State.putPower_streams (n : NodeId) (x : Power) : (s.putPower n x).streams = s.streams := rfl
@[simp] theorem State.putPower_lease (n : NodeId) (x : Power) : (s.putPower n x).lease = s.lease := rfl
@[simp] theorem State.putPower_matcher (n : NodeId) (x : Power) : (s.putPower n x).matcher = s.matcher := rfl
@[simp] theorem State.putPower_power (n : NodeId) (x : Power) : (s.putPower n x).power = s.power.put n x := rfl
@[simp] theorem State.putPower_watches (n : NodeId) (x : Power) : (s.putPower n x).watches = s.watches := rfl
@[simp] theorem State.putPower_ports (n : NodeId) (x : Power) : (s.putPower n x).ports = s.ports := rfl
@[simp] theorem State.putPower_images (n : NodeId) (x : Power) : (s.putPower n x).images = s.images := rfl
@[simp] theorem State.putPower_pool (n : NodeId) (x : Power) : (s.putPower n x).pool = s.pool := rfl
@[simp] theorem State.putPower_notices (n : NodeId) (x : Power) : (s.putPower n x).notices = s.notices := rfl
@[simp] theorem State.putPower_loader (n : NodeId) (x : Power) : (s.putPower n x).loader = s.loader := rfl
@[simp] theorem State.putPower_config (n : NodeId) (x : Power) : (s.putPower n x).config = s.config := rfl
@[simp] theorem State.putPower_picks (n : NodeId) (x : Power) : (s.putPower n x).picks = s.picks := rfl
@[simp] theorem State.putPower_blanks (n : NodeId) (x : Power) : (s.putPower n x).blanks = s.blanks := rfl
@[simp] theorem State.putPower_pending (n : NodeId) (x : Power) : (s.putPower n x).pending = s.pending := rfl

/-! ## putWatch -/

@[simp] theorem State.putWatch_now (n : NodeId) (x : Watch) : (s.putWatch n x).now = s.now := rfl
@[simp] theorem State.putWatch_porn (n : NodeId) (x : Watch) : (s.putWatch n x).porn = s.porn := rfl
@[simp] theorem State.putWatch_straps (n : NodeId) (x : Watch) : (s.putWatch n x).straps = s.straps := rfl
@[simp] theorem State.putWatch_su (n : NodeId) (x : Watch) : (s.putWatch n x).su = s.su := rfl
@[simp] theorem State.putWatch_up (n : NodeId) (x : Watch) : (s.putWatch n x).up = s.up := rfl
@[simp] theorem State.putWatch_lines (n : NodeId) (x : Watch) : (s.putWatch n x).lines = s.lines := rfl
@[simp] theorem State.putWatch_streams (n : NodeId) (x : Watch) : (s.putWatch n x).streams = s.streams := rfl
@[simp] theorem State.putWatch_lease (n : NodeId) (x : Watch) : (s.putWatch n x).lease = s.lease := rfl
@[simp] theorem State.putWatch_matcher (n : NodeId) (x : Watch) : (s.putWatch n x).matcher = s.matcher := rfl
@[simp] theorem State.putWatch_power (n : NodeId) (x : Watch) : (s.putWatch n x).power = s.power := rfl
@[simp] theorem State.putWatch_watches (n : NodeId) (x : Watch) : (s.putWatch n x).watches = s.watches.put n x := rfl
@[simp] theorem State.putWatch_ports (n : NodeId) (x : Watch) : (s.putWatch n x).ports = s.ports := rfl
@[simp] theorem State.putWatch_images (n : NodeId) (x : Watch) : (s.putWatch n x).images = s.images := rfl
@[simp] theorem State.putWatch_pool (n : NodeId) (x : Watch) : (s.putWatch n x).pool = s.pool := rfl
@[simp] theorem State.putWatch_notices (n : NodeId) (x : Watch) : (s.putWatch n x).notices = s.notices := rfl
@[simp] theorem State.putWatch_loader (n : NodeId) (x : Watch) : (s.putWatch n x).loader = s.loader := rfl
@[simp] theorem State.putWatch_config (n : NodeId) (x : Watch) : (s.putWatch n x).config = s.config := rfl
@[simp] theorem State.putWatch_picks (n : NodeId) (x : Watch) : (s.putWatch n x).picks = s.picks := rfl
@[simp] theorem State.putWatch_blanks (n : NodeId) (x : Watch) : (s.putWatch n x).blanks = s.blanks := rfl
@[simp] theorem State.putWatch_pending (n : NodeId) (x : Watch) : (s.putWatch n x).pending = s.pending := rfl

/-! ## putPort -/

@[simp] theorem State.putPort_now (n : NodeId) (x : MediaPort) : (s.putPort n x).now = s.now := rfl
@[simp] theorem State.putPort_porn (n : NodeId) (x : MediaPort) : (s.putPort n x).porn = s.porn := rfl
@[simp] theorem State.putPort_straps (n : NodeId) (x : MediaPort) : (s.putPort n x).straps = s.straps := rfl
@[simp] theorem State.putPort_su (n : NodeId) (x : MediaPort) : (s.putPort n x).su = s.su := rfl
@[simp] theorem State.putPort_up (n : NodeId) (x : MediaPort) : (s.putPort n x).up = s.up := rfl
@[simp] theorem State.putPort_lines (n : NodeId) (x : MediaPort) : (s.putPort n x).lines = s.lines := rfl
@[simp] theorem State.putPort_streams (n : NodeId) (x : MediaPort) : (s.putPort n x).streams = s.streams := rfl
@[simp] theorem State.putPort_lease (n : NodeId) (x : MediaPort) : (s.putPort n x).lease = s.lease := rfl
@[simp] theorem State.putPort_matcher (n : NodeId) (x : MediaPort) : (s.putPort n x).matcher = s.matcher := rfl
@[simp] theorem State.putPort_power (n : NodeId) (x : MediaPort) : (s.putPort n x).power = s.power := rfl
@[simp] theorem State.putPort_watches (n : NodeId) (x : MediaPort) : (s.putPort n x).watches = s.watches := rfl
@[simp] theorem State.putPort_ports (n : NodeId) (x : MediaPort) : (s.putPort n x).ports = s.ports.put n x := rfl
@[simp] theorem State.putPort_images (n : NodeId) (x : MediaPort) : (s.putPort n x).images = s.images := rfl
@[simp] theorem State.putPort_pool (n : NodeId) (x : MediaPort) : (s.putPort n x).pool = s.pool := rfl
@[simp] theorem State.putPort_notices (n : NodeId) (x : MediaPort) : (s.putPort n x).notices = s.notices := rfl
@[simp] theorem State.putPort_loader (n : NodeId) (x : MediaPort) : (s.putPort n x).loader = s.loader := rfl
@[simp] theorem State.putPort_config (n : NodeId) (x : MediaPort) : (s.putPort n x).config = s.config := rfl
@[simp] theorem State.putPort_picks (n : NodeId) (x : MediaPort) : (s.putPort n x).picks = s.picks := rfl
@[simp] theorem State.putPort_blanks (n : NodeId) (x : MediaPort) : (s.putPort n x).blanks = s.blanks := rfl
@[simp] theorem State.putPort_pending (n : NodeId) (x : MediaPort) : (s.putPort n x).pending = s.pending := rfl

/-! ## putMatcher -/

@[simp] theorem State.putMatcher_now (x : Matcher) : (s.putMatcher x).now = s.now := rfl
@[simp] theorem State.putMatcher_porn (x : Matcher) : (s.putMatcher x).porn = s.porn := rfl
@[simp] theorem State.putMatcher_straps (x : Matcher) : (s.putMatcher x).straps = s.straps := rfl
@[simp] theorem State.putMatcher_su (x : Matcher) : (s.putMatcher x).su = s.su := rfl
@[simp] theorem State.putMatcher_up (x : Matcher) : (s.putMatcher x).up = s.up := rfl
@[simp] theorem State.putMatcher_lines (x : Matcher) : (s.putMatcher x).lines = s.lines := rfl
@[simp] theorem State.putMatcher_streams (x : Matcher) : (s.putMatcher x).streams = s.streams := rfl
@[simp] theorem State.putMatcher_lease (x : Matcher) : (s.putMatcher x).lease = s.lease := rfl
@[simp] theorem State.putMatcher_matcher (x : Matcher) : (s.putMatcher x).matcher = x := rfl
@[simp] theorem State.putMatcher_power (x : Matcher) : (s.putMatcher x).power = s.power := rfl
@[simp] theorem State.putMatcher_watches (x : Matcher) : (s.putMatcher x).watches = s.watches := rfl
@[simp] theorem State.putMatcher_ports (x : Matcher) : (s.putMatcher x).ports = s.ports := rfl
@[simp] theorem State.putMatcher_images (x : Matcher) : (s.putMatcher x).images = s.images := rfl
@[simp] theorem State.putMatcher_pool (x : Matcher) : (s.putMatcher x).pool = s.pool := rfl
@[simp] theorem State.putMatcher_notices (x : Matcher) : (s.putMatcher x).notices = s.notices := rfl
@[simp] theorem State.putMatcher_loader (x : Matcher) : (s.putMatcher x).loader = s.loader := rfl
@[simp] theorem State.putMatcher_config (x : Matcher) : (s.putMatcher x).config = s.config := rfl
@[simp] theorem State.putMatcher_picks (x : Matcher) : (s.putMatcher x).picks = s.picks := rfl
@[simp] theorem State.putMatcher_blanks (x : Matcher) : (s.putMatcher x).blanks = s.blanks := rfl
@[simp] theorem State.putMatcher_pending (x : Matcher) : (s.putMatcher x).pending = s.pending := rfl

/-! ## putImages -/

@[simp] theorem State.putImages_now (x : ImageUnit) : (s.putImages x).now = s.now := rfl
@[simp] theorem State.putImages_porn (x : ImageUnit) : (s.putImages x).porn = s.porn := rfl
@[simp] theorem State.putImages_straps (x : ImageUnit) : (s.putImages x).straps = s.straps := rfl
@[simp] theorem State.putImages_su (x : ImageUnit) : (s.putImages x).su = s.su := rfl
@[simp] theorem State.putImages_up (x : ImageUnit) : (s.putImages x).up = s.up := rfl
@[simp] theorem State.putImages_lines (x : ImageUnit) : (s.putImages x).lines = s.lines := rfl
@[simp] theorem State.putImages_streams (x : ImageUnit) : (s.putImages x).streams = s.streams := rfl
@[simp] theorem State.putImages_lease (x : ImageUnit) : (s.putImages x).lease = s.lease := rfl
@[simp] theorem State.putImages_matcher (x : ImageUnit) : (s.putImages x).matcher = s.matcher := rfl
@[simp] theorem State.putImages_power (x : ImageUnit) : (s.putImages x).power = s.power := rfl
@[simp] theorem State.putImages_watches (x : ImageUnit) : (s.putImages x).watches = s.watches := rfl
@[simp] theorem State.putImages_ports (x : ImageUnit) : (s.putImages x).ports = s.ports := rfl
@[simp] theorem State.putImages_images (x : ImageUnit) : (s.putImages x).images = x := rfl
@[simp] theorem State.putImages_pool (x : ImageUnit) : (s.putImages x).pool = s.pool := rfl
@[simp] theorem State.putImages_notices (x : ImageUnit) : (s.putImages x).notices = s.notices := rfl
@[simp] theorem State.putImages_loader (x : ImageUnit) : (s.putImages x).loader = s.loader := rfl
@[simp] theorem State.putImages_config (x : ImageUnit) : (s.putImages x).config = s.config := rfl
@[simp] theorem State.putImages_picks (x : ImageUnit) : (s.putImages x).picks = s.picks := rfl
@[simp] theorem State.putImages_blanks (x : ImageUnit) : (s.putImages x).blanks = s.blanks := rfl
@[simp] theorem State.putImages_pending (x : ImageUnit) : (s.putImages x).pending = s.pending := rfl

/-! ## putPool -/

@[simp] theorem State.putPool_now (x : Pool) : (s.putPool x).now = s.now := rfl
@[simp] theorem State.putPool_porn (x : Pool) : (s.putPool x).porn = s.porn := rfl
@[simp] theorem State.putPool_straps (x : Pool) : (s.putPool x).straps = s.straps := rfl
@[simp] theorem State.putPool_su (x : Pool) : (s.putPool x).su = s.su := rfl
@[simp] theorem State.putPool_up (x : Pool) : (s.putPool x).up = s.up := rfl
@[simp] theorem State.putPool_lines (x : Pool) : (s.putPool x).lines = s.lines := rfl
@[simp] theorem State.putPool_streams (x : Pool) : (s.putPool x).streams = s.streams := rfl
@[simp] theorem State.putPool_lease (x : Pool) : (s.putPool x).lease = s.lease := rfl
@[simp] theorem State.putPool_matcher (x : Pool) : (s.putPool x).matcher = s.matcher := rfl
@[simp] theorem State.putPool_power (x : Pool) : (s.putPool x).power = s.power := rfl
@[simp] theorem State.putPool_watches (x : Pool) : (s.putPool x).watches = s.watches := rfl
@[simp] theorem State.putPool_ports (x : Pool) : (s.putPool x).ports = s.ports := rfl
@[simp] theorem State.putPool_images (x : Pool) : (s.putPool x).images = s.images := rfl
@[simp] theorem State.putPool_pool (x : Pool) : (s.putPool x).pool = x := rfl
@[simp] theorem State.putPool_notices (x : Pool) : (s.putPool x).notices = s.notices := rfl
@[simp] theorem State.putPool_loader (x : Pool) : (s.putPool x).loader = s.loader := rfl
@[simp] theorem State.putPool_config (x : Pool) : (s.putPool x).config = s.config := rfl
@[simp] theorem State.putPool_picks (x : Pool) : (s.putPool x).picks = s.picks := rfl
@[simp] theorem State.putPool_blanks (x : Pool) : (s.putPool x).blanks = s.blanks := rfl
@[simp] theorem State.putPool_pending (x : Pool) : (s.putPool x).pending = s.pending := rfl

/-! ## putUp -/

@[simp] theorem State.putUp_now (x : Uplink) : (s.putUp x).now = s.now := rfl
@[simp] theorem State.putUp_porn (x : Uplink) : (s.putUp x).porn = s.porn := rfl
@[simp] theorem State.putUp_straps (x : Uplink) : (s.putUp x).straps = s.straps := rfl
@[simp] theorem State.putUp_su (x : Uplink) : (s.putUp x).su = s.su := rfl
@[simp] theorem State.putUp_up (x : Uplink) : (s.putUp x).up = x := rfl
@[simp] theorem State.putUp_lines (x : Uplink) : (s.putUp x).lines = s.lines := rfl
@[simp] theorem State.putUp_streams (x : Uplink) : (s.putUp x).streams = s.streams := rfl
@[simp] theorem State.putUp_lease (x : Uplink) : (s.putUp x).lease = s.lease := rfl
@[simp] theorem State.putUp_matcher (x : Uplink) : (s.putUp x).matcher = s.matcher := rfl
@[simp] theorem State.putUp_power (x : Uplink) : (s.putUp x).power = s.power := rfl
@[simp] theorem State.putUp_watches (x : Uplink) : (s.putUp x).watches = s.watches := rfl
@[simp] theorem State.putUp_ports (x : Uplink) : (s.putUp x).ports = s.ports := rfl
@[simp] theorem State.putUp_images (x : Uplink) : (s.putUp x).images = s.images := rfl
@[simp] theorem State.putUp_pool (x : Uplink) : (s.putUp x).pool = s.pool := rfl
@[simp] theorem State.putUp_notices (x : Uplink) : (s.putUp x).notices = s.notices := rfl
@[simp] theorem State.putUp_loader (x : Uplink) : (s.putUp x).loader = s.loader := rfl
@[simp] theorem State.putUp_config (x : Uplink) : (s.putUp x).config = s.config := rfl
@[simp] theorem State.putUp_picks (x : Uplink) : (s.putUp x).picks = s.picks := rfl
@[simp] theorem State.putUp_blanks (x : Uplink) : (s.putUp x).blanks = s.blanks := rfl
@[simp] theorem State.putUp_pending (x : Uplink) : (s.putUp x).pending = s.pending := rfl

/-! ## putSu -/

@[simp] theorem State.putSu_now (x : Steering) : (s.putSu x).now = s.now := rfl
@[simp] theorem State.putSu_porn (x : Steering) : (s.putSu x).porn = s.porn := rfl
@[simp] theorem State.putSu_straps (x : Steering) : (s.putSu x).straps = s.straps := rfl
@[simp] theorem State.putSu_su (x : Steering) : (s.putSu x).su = x := rfl
@[simp] theorem State.putSu_up (x : Steering) : (s.putSu x).up = s.up := rfl
@[simp] theorem State.putSu_lines (x : Steering) : (s.putSu x).lines = s.lines := rfl
@[simp] theorem State.putSu_streams (x : Steering) : (s.putSu x).streams = s.streams := rfl
@[simp] theorem State.putSu_lease (x : Steering) : (s.putSu x).lease = s.lease := rfl
@[simp] theorem State.putSu_matcher (x : Steering) : (s.putSu x).matcher = s.matcher := rfl
@[simp] theorem State.putSu_power (x : Steering) : (s.putSu x).power = s.power := rfl
@[simp] theorem State.putSu_watches (x : Steering) : (s.putSu x).watches = s.watches := rfl
@[simp] theorem State.putSu_ports (x : Steering) : (s.putSu x).ports = s.ports := rfl
@[simp] theorem State.putSu_images (x : Steering) : (s.putSu x).images = s.images := rfl
@[simp] theorem State.putSu_pool (x : Steering) : (s.putSu x).pool = s.pool := rfl
@[simp] theorem State.putSu_notices (x : Steering) : (s.putSu x).notices = s.notices := rfl
@[simp] theorem State.putSu_loader (x : Steering) : (s.putSu x).loader = s.loader := rfl
@[simp] theorem State.putSu_config (x : Steering) : (s.putSu x).config = s.config := rfl
@[simp] theorem State.putSu_picks (x : Steering) : (s.putSu x).picks = s.picks := rfl
@[simp] theorem State.putSu_blanks (x : Steering) : (s.putSu x).blanks = s.blanks := rfl
@[simp] theorem State.putSu_pending (x : Steering) : (s.putSu x).pending = s.pending := rfl

/-! ## putNotices -/

@[simp] theorem State.putNotices_now (x : Notices) : (s.putNotices x).now = s.now := rfl
@[simp] theorem State.putNotices_porn (x : Notices) : (s.putNotices x).porn = s.porn := rfl
@[simp] theorem State.putNotices_straps (x : Notices) : (s.putNotices x).straps = s.straps := rfl
@[simp] theorem State.putNotices_su (x : Notices) : (s.putNotices x).su = s.su := rfl
@[simp] theorem State.putNotices_up (x : Notices) : (s.putNotices x).up = s.up := rfl
@[simp] theorem State.putNotices_lines (x : Notices) : (s.putNotices x).lines = s.lines := rfl
@[simp] theorem State.putNotices_streams (x : Notices) : (s.putNotices x).streams = s.streams := rfl
@[simp] theorem State.putNotices_lease (x : Notices) : (s.putNotices x).lease = s.lease := rfl
@[simp] theorem State.putNotices_matcher (x : Notices) : (s.putNotices x).matcher = s.matcher := rfl
@[simp] theorem State.putNotices_power (x : Notices) : (s.putNotices x).power = s.power := rfl
@[simp] theorem State.putNotices_watches (x : Notices) : (s.putNotices x).watches = s.watches := rfl
@[simp] theorem State.putNotices_ports (x : Notices) : (s.putNotices x).ports = s.ports := rfl
@[simp] theorem State.putNotices_images (x : Notices) : (s.putNotices x).images = s.images := rfl
@[simp] theorem State.putNotices_pool (x : Notices) : (s.putNotices x).pool = s.pool := rfl
@[simp] theorem State.putNotices_notices (x : Notices) : (s.putNotices x).notices = x := rfl
@[simp] theorem State.putNotices_loader (x : Notices) : (s.putNotices x).loader = s.loader := rfl
@[simp] theorem State.putNotices_config (x : Notices) : (s.putNotices x).config = s.config := rfl
@[simp] theorem State.putNotices_picks (x : Notices) : (s.putNotices x).picks = s.picks := rfl
@[simp] theorem State.putNotices_blanks (x : Notices) : (s.putNotices x).blanks = s.blanks := rfl
@[simp] theorem State.putNotices_pending (x : Notices) : (s.putNotices x).pending = s.pending := rfl

/-! ## putLoader -/

@[simp] theorem State.putLoader_now (x : Loader) : (s.putLoader x).now = s.now := rfl
@[simp] theorem State.putLoader_porn (x : Loader) : (s.putLoader x).porn = s.porn := rfl
@[simp] theorem State.putLoader_straps (x : Loader) : (s.putLoader x).straps = s.straps := rfl
@[simp] theorem State.putLoader_su (x : Loader) : (s.putLoader x).su = s.su := rfl
@[simp] theorem State.putLoader_up (x : Loader) : (s.putLoader x).up = s.up := rfl
@[simp] theorem State.putLoader_lines (x : Loader) : (s.putLoader x).lines = s.lines := rfl
@[simp] theorem State.putLoader_streams (x : Loader) : (s.putLoader x).streams = s.streams := rfl
@[simp] theorem State.putLoader_lease (x : Loader) : (s.putLoader x).lease = s.lease := rfl
@[simp] theorem State.putLoader_matcher (x : Loader) : (s.putLoader x).matcher = s.matcher := rfl
@[simp] theorem State.putLoader_power (x : Loader) : (s.putLoader x).power = s.power := rfl
@[simp] theorem State.putLoader_watches (x : Loader) : (s.putLoader x).watches = s.watches := rfl
@[simp] theorem State.putLoader_ports (x : Loader) : (s.putLoader x).ports = s.ports := rfl
@[simp] theorem State.putLoader_images (x : Loader) : (s.putLoader x).images = s.images := rfl
@[simp] theorem State.putLoader_pool (x : Loader) : (s.putLoader x).pool = s.pool := rfl
@[simp] theorem State.putLoader_notices (x : Loader) : (s.putLoader x).notices = s.notices := rfl
@[simp] theorem State.putLoader_loader (x : Loader) : (s.putLoader x).loader = x := rfl
@[simp] theorem State.putLoader_config (x : Loader) : (s.putLoader x).config = s.config := rfl
@[simp] theorem State.putLoader_picks (x : Loader) : (s.putLoader x).picks = s.picks := rfl
@[simp] theorem State.putLoader_blanks (x : Loader) : (s.putLoader x).blanks = s.blanks := rfl
@[simp] theorem State.putLoader_pending (x : Loader) : (s.putLoader x).pending = s.pending := rfl

/-! ## putLease -/

@[simp] theorem State.putLease_now (x : Nat) : (s.putLease x).now = s.now := rfl
@[simp] theorem State.putLease_porn (x : Nat) : (s.putLease x).porn = s.porn := rfl
@[simp] theorem State.putLease_straps (x : Nat) : (s.putLease x).straps = s.straps := rfl
@[simp] theorem State.putLease_su (x : Nat) : (s.putLease x).su = s.su := rfl
@[simp] theorem State.putLease_up (x : Nat) : (s.putLease x).up = s.up := rfl
@[simp] theorem State.putLease_lines (x : Nat) : (s.putLease x).lines = s.lines := rfl
@[simp] theorem State.putLease_streams (x : Nat) : (s.putLease x).streams = s.streams := rfl
@[simp] theorem State.putLease_lease (x : Nat) : (s.putLease x).lease = x := rfl
@[simp] theorem State.putLease_matcher (x : Nat) : (s.putLease x).matcher = s.matcher := rfl
@[simp] theorem State.putLease_power (x : Nat) : (s.putLease x).power = s.power := rfl
@[simp] theorem State.putLease_watches (x : Nat) : (s.putLease x).watches = s.watches := rfl
@[simp] theorem State.putLease_ports (x : Nat) : (s.putLease x).ports = s.ports := rfl
@[simp] theorem State.putLease_images (x : Nat) : (s.putLease x).images = s.images := rfl
@[simp] theorem State.putLease_pool (x : Nat) : (s.putLease x).pool = s.pool := rfl
@[simp] theorem State.putLease_notices (x : Nat) : (s.putLease x).notices = s.notices := rfl
@[simp] theorem State.putLease_loader (x : Nat) : (s.putLease x).loader = s.loader := rfl
@[simp] theorem State.putLease_config (x : Nat) : (s.putLease x).config = s.config := rfl
@[simp] theorem State.putLease_picks (x : Nat) : (s.putLease x).picks = s.picks := rfl
@[simp] theorem State.putLease_blanks (x : Nat) : (s.putLease x).blanks = s.blanks := rfl
@[simp] theorem State.putLease_pending (x : Nat) : (s.putLease x).pending = s.pending := rfl

/-! ## putConfig -/

@[simp] theorem State.putConfig_now (x : List Host.Cell) : (s.putConfig x).now = s.now := rfl
@[simp] theorem State.putConfig_porn (x : List Host.Cell) : (s.putConfig x).porn = s.porn := rfl
@[simp] theorem State.putConfig_straps (x : List Host.Cell) : (s.putConfig x).straps = s.straps := rfl
@[simp] theorem State.putConfig_su (x : List Host.Cell) : (s.putConfig x).su = s.su := rfl
@[simp] theorem State.putConfig_up (x : List Host.Cell) : (s.putConfig x).up = s.up := rfl
@[simp] theorem State.putConfig_lines (x : List Host.Cell) : (s.putConfig x).lines = s.lines := rfl
@[simp] theorem State.putConfig_streams (x : List Host.Cell) : (s.putConfig x).streams = s.streams := rfl
@[simp] theorem State.putConfig_lease (x : List Host.Cell) : (s.putConfig x).lease = s.lease := rfl
@[simp] theorem State.putConfig_matcher (x : List Host.Cell) : (s.putConfig x).matcher = s.matcher := rfl
@[simp] theorem State.putConfig_power (x : List Host.Cell) : (s.putConfig x).power = s.power := rfl
@[simp] theorem State.putConfig_watches (x : List Host.Cell) : (s.putConfig x).watches = s.watches := rfl
@[simp] theorem State.putConfig_ports (x : List Host.Cell) : (s.putConfig x).ports = s.ports := rfl
@[simp] theorem State.putConfig_images (x : List Host.Cell) : (s.putConfig x).images = s.images := rfl
@[simp] theorem State.putConfig_pool (x : List Host.Cell) : (s.putConfig x).pool = s.pool := rfl
@[simp] theorem State.putConfig_notices (x : List Host.Cell) : (s.putConfig x).notices = s.notices := rfl
@[simp] theorem State.putConfig_loader (x : List Host.Cell) : (s.putConfig x).loader = s.loader := rfl
@[simp] theorem State.putConfig_config (x : List Host.Cell) : (s.putConfig x).config = x := rfl
@[simp] theorem State.putConfig_picks (x : List Host.Cell) : (s.putConfig x).picks = s.picks := rfl
@[simp] theorem State.putConfig_blanks (x : List Host.Cell) : (s.putConfig x).blanks = s.blanks := rfl
@[simp] theorem State.putConfig_pending (x : List Host.Cell) : (s.putConfig x).pending = s.pending := rfl

/-! ## putPending -/

@[simp] theorem State.putPending_now (x : List Instr) : (s.putPending x).now = s.now := rfl
@[simp] theorem State.putPending_porn (x : List Instr) : (s.putPending x).porn = s.porn := rfl
@[simp] theorem State.putPending_straps (x : List Instr) : (s.putPending x).straps = s.straps := rfl
@[simp] theorem State.putPending_su (x : List Instr) : (s.putPending x).su = s.su := rfl
@[simp] theorem State.putPending_up (x : List Instr) : (s.putPending x).up = s.up := rfl
@[simp] theorem State.putPending_lines (x : List Instr) : (s.putPending x).lines = s.lines := rfl
@[simp] theorem State.putPending_streams (x : List Instr) : (s.putPending x).streams = s.streams := rfl
@[simp] theorem State.putPending_lease (x : List Instr) : (s.putPending x).lease = s.lease := rfl
@[simp] theorem State.putPending_matcher (x : List Instr) : (s.putPending x).matcher = s.matcher := rfl
@[simp] theorem State.putPending_power (x : List Instr) : (s.putPending x).power = s.power := rfl
@[simp] theorem State.putPending_watches (x : List Instr) : (s.putPending x).watches = s.watches := rfl
@[simp] theorem State.putPending_ports (x : List Instr) : (s.putPending x).ports = s.ports := rfl
@[simp] theorem State.putPending_images (x : List Instr) : (s.putPending x).images = s.images := rfl
@[simp] theorem State.putPending_pool (x : List Instr) : (s.putPending x).pool = s.pool := rfl
@[simp] theorem State.putPending_notices (x : List Instr) : (s.putPending x).notices = s.notices := rfl
@[simp] theorem State.putPending_loader (x : List Instr) : (s.putPending x).loader = s.loader := rfl
@[simp] theorem State.putPending_config (x : List Instr) : (s.putPending x).config = s.config := rfl
@[simp] theorem State.putPending_picks (x : List Instr) : (s.putPending x).picks = s.picks := rfl
@[simp] theorem State.putPending_blanks (x : List Instr) : (s.putPending x).blanks = s.blanks := rfl
@[simp] theorem State.putPending_pending (x : List Instr) : (s.putPending x).pending = x := rfl

/-! ## enqueue -/

@[simp] theorem State.enqueue_now (f : TxFrame) : (s.enqueue f).now = s.now := rfl
@[simp] theorem State.enqueue_porn (f : TxFrame) : (s.enqueue f).porn = s.porn := rfl
@[simp] theorem State.enqueue_straps (f : TxFrame) : (s.enqueue f).straps = s.straps := rfl
@[simp] theorem State.enqueue_su (f : TxFrame) : (s.enqueue f).su = s.su := rfl
@[simp] theorem State.enqueue_up (f : TxFrame) : (s.enqueue f).up = { s.up with queue := s.up.queue ++ [f] } := rfl
@[simp] theorem State.enqueue_lines (f : TxFrame) : (s.enqueue f).lines = s.lines := rfl
@[simp] theorem State.enqueue_streams (f : TxFrame) : (s.enqueue f).streams = s.streams := rfl
@[simp] theorem State.enqueue_lease (f : TxFrame) : (s.enqueue f).lease = s.lease := rfl
@[simp] theorem State.enqueue_matcher (f : TxFrame) : (s.enqueue f).matcher = s.matcher := rfl
@[simp] theorem State.enqueue_power (f : TxFrame) : (s.enqueue f).power = s.power := rfl
@[simp] theorem State.enqueue_watches (f : TxFrame) : (s.enqueue f).watches = s.watches := rfl
@[simp] theorem State.enqueue_ports (f : TxFrame) : (s.enqueue f).ports = s.ports := rfl
@[simp] theorem State.enqueue_images (f : TxFrame) : (s.enqueue f).images = s.images := rfl
@[simp] theorem State.enqueue_pool (f : TxFrame) : (s.enqueue f).pool = s.pool := rfl
@[simp] theorem State.enqueue_notices (f : TxFrame) : (s.enqueue f).notices = s.notices := rfl
@[simp] theorem State.enqueue_loader (f : TxFrame) : (s.enqueue f).loader = s.loader := rfl
@[simp] theorem State.enqueue_config (f : TxFrame) : (s.enqueue f).config = s.config := rfl
@[simp] theorem State.enqueue_picks (f : TxFrame) : (s.enqueue f).picks = s.picks := rfl
@[simp] theorem State.enqueue_blanks (f : TxFrame) : (s.enqueue f).blanks = s.blanks := rfl
@[simp] theorem State.enqueue_pending (f : TxFrame) : (s.enqueue f).pending = s.pending := rfl

/-! ## enqueueAll -/

@[simp] theorem State.enqueueAll_now (f : List TxFrame) : (s.enqueueAll f).now = s.now := rfl
@[simp] theorem State.enqueueAll_porn (f : List TxFrame) : (s.enqueueAll f).porn = s.porn := rfl
@[simp] theorem State.enqueueAll_straps (f : List TxFrame) : (s.enqueueAll f).straps = s.straps := rfl
@[simp] theorem State.enqueueAll_su (f : List TxFrame) : (s.enqueueAll f).su = s.su := rfl
@[simp] theorem State.enqueueAll_up (f : List TxFrame) : (s.enqueueAll f).up = { s.up with queue := s.up.queue ++ f } := rfl
@[simp] theorem State.enqueueAll_lines (f : List TxFrame) : (s.enqueueAll f).lines = s.lines := rfl
@[simp] theorem State.enqueueAll_streams (f : List TxFrame) : (s.enqueueAll f).streams = s.streams := rfl
@[simp] theorem State.enqueueAll_lease (f : List TxFrame) : (s.enqueueAll f).lease = s.lease := rfl
@[simp] theorem State.enqueueAll_matcher (f : List TxFrame) : (s.enqueueAll f).matcher = s.matcher := rfl
@[simp] theorem State.enqueueAll_power (f : List TxFrame) : (s.enqueueAll f).power = s.power := rfl
@[simp] theorem State.enqueueAll_watches (f : List TxFrame) : (s.enqueueAll f).watches = s.watches := rfl
@[simp] theorem State.enqueueAll_ports (f : List TxFrame) : (s.enqueueAll f).ports = s.ports := rfl
@[simp] theorem State.enqueueAll_images (f : List TxFrame) : (s.enqueueAll f).images = s.images := rfl
@[simp] theorem State.enqueueAll_pool (f : List TxFrame) : (s.enqueueAll f).pool = s.pool := rfl
@[simp] theorem State.enqueueAll_notices (f : List TxFrame) : (s.enqueueAll f).notices = s.notices := rfl
@[simp] theorem State.enqueueAll_loader (f : List TxFrame) : (s.enqueueAll f).loader = s.loader := rfl
@[simp] theorem State.enqueueAll_config (f : List TxFrame) : (s.enqueueAll f).config = s.config := rfl
@[simp] theorem State.enqueueAll_picks (f : List TxFrame) : (s.enqueueAll f).picks = s.picks := rfl
@[simp] theorem State.enqueueAll_blanks (f : List TxFrame) : (s.enqueueAll f).blanks = s.blanks := rfl
@[simp] theorem State.enqueueAll_pending (f : List TxFrame) : (s.enqueueAll f).pending = s.pending := rfl

/-! ## promise -/

@[simp] theorem State.promise_now : (s.promise).now = s.now := rfl
@[simp] theorem State.promise_porn : (s.promise).porn = s.porn := rfl
@[simp] theorem State.promise_straps : (s.promise).straps = s.straps := rfl
@[simp] theorem State.promise_su : (s.promise).su = s.su := rfl
@[simp] theorem State.promise_up : (s.promise).up = { s.up with promised := s.up.promised + 1 } := rfl
@[simp] theorem State.promise_lines : (s.promise).lines = s.lines := rfl
@[simp] theorem State.promise_streams : (s.promise).streams = s.streams := rfl
@[simp] theorem State.promise_lease : (s.promise).lease = s.lease := rfl
@[simp] theorem State.promise_matcher : (s.promise).matcher = s.matcher := rfl
@[simp] theorem State.promise_power : (s.promise).power = s.power := rfl
@[simp] theorem State.promise_watches : (s.promise).watches = s.watches := rfl
@[simp] theorem State.promise_ports : (s.promise).ports = s.ports := rfl
@[simp] theorem State.promise_images : (s.promise).images = s.images := rfl
@[simp] theorem State.promise_pool : (s.promise).pool = s.pool := rfl
@[simp] theorem State.promise_notices : (s.promise).notices = s.notices := rfl
@[simp] theorem State.promise_loader : (s.promise).loader = s.loader := rfl
@[simp] theorem State.promise_config : (s.promise).config = s.config := rfl
@[simp] theorem State.promise_picks : (s.promise).picks = s.picks := rfl
@[simp] theorem State.promise_blanks : (s.promise).blanks = s.blanks := rfl
@[simp] theorem State.promise_pending : (s.promise).pending = s.pending := rfl

/-! ## release -/

@[simp] theorem State.release_now : (s.release).now = s.now := rfl
@[simp] theorem State.release_porn : (s.release).porn = s.porn := rfl
@[simp] theorem State.release_straps : (s.release).straps = s.straps := rfl
@[simp] theorem State.release_su : (s.release).su = s.su := rfl
@[simp] theorem State.release_up : (s.release).up = { s.up with promised := s.up.promised - 1 } := rfl
@[simp] theorem State.release_lines : (s.release).lines = s.lines := rfl
@[simp] theorem State.release_streams : (s.release).streams = s.streams := rfl
@[simp] theorem State.release_lease : (s.release).lease = s.lease := rfl
@[simp] theorem State.release_matcher : (s.release).matcher = s.matcher := rfl
@[simp] theorem State.release_power : (s.release).power = s.power := rfl
@[simp] theorem State.release_watches : (s.release).watches = s.watches := rfl
@[simp] theorem State.release_ports : (s.release).ports = s.ports := rfl
@[simp] theorem State.release_images : (s.release).images = s.images := rfl
@[simp] theorem State.release_pool : (s.release).pool = s.pool := rfl
@[simp] theorem State.release_notices : (s.release).notices = s.notices := rfl
@[simp] theorem State.release_loader : (s.release).loader = s.loader := rfl
@[simp] theorem State.release_config : (s.release).config = s.config := rfl
@[simp] theorem State.release_picks : (s.release).picks = s.picks := rfl
@[simp] theorem State.release_blanks : (s.release).blanks = s.blanks := rfl
@[simp] theorem State.release_pending : (s.release).pending = s.pending := rfl

/-! ## putSet and raise -/

@[simp] theorem State.putSet_now (id : SetId) (p : PendingSet) : (s.putSet id p).now = s.now := by cases id <;> rfl
@[simp] theorem State.putSet_porn (id : SetId) (p : PendingSet) : (s.putSet id p).porn = s.porn := by cases id <;> rfl
@[simp] theorem State.putSet_straps (id : SetId) (p : PendingSet) : (s.putSet id p).straps = s.straps := by cases id <;> rfl
@[simp] theorem State.putSet_su (id : SetId) (p : PendingSet) : (s.putSet id p).su = s.su := by cases id <;> rfl
@[simp] theorem State.putSet_up (id : SetId) (p : PendingSet) : (s.putSet id p).up = s.up := by cases id <;> rfl
@[simp] theorem State.putSet_lines (id : SetId) (p : PendingSet) : (s.putSet id p).lines = s.lines := by cases id <;> rfl
@[simp] theorem State.putSet_streams (id : SetId) (p : PendingSet) : (s.putSet id p).streams = s.streams := by cases id <;> rfl
@[simp] theorem State.putSet_lease (id : SetId) (p : PendingSet) : (s.putSet id p).lease = s.lease := by cases id <;> rfl
@[simp] theorem State.putSet_matcher (id : SetId) (p : PendingSet) : (s.putSet id p).matcher = s.matcher := by cases id <;> rfl
@[simp] theorem State.putSet_power (id : SetId) (p : PendingSet) : (s.putSet id p).power = s.power := by cases id <;> rfl
@[simp] theorem State.putSet_watches (id : SetId) (p : PendingSet) : (s.putSet id p).watches = s.watches := by cases id <;> rfl
@[simp] theorem State.putSet_ports (id : SetId) (p : PendingSet) : (s.putSet id p).ports = s.ports := by cases id <;> rfl
@[simp] theorem State.putSet_images (id : SetId) (p : PendingSet) : (s.putSet id p).images = s.images := by cases id <;> rfl
@[simp] theorem State.putSet_pool (id : SetId) (p : PendingSet) : (s.putSet id p).pool = s.pool := by cases id <;> rfl
@[simp] theorem State.putSet_loader (id : SetId) (p : PendingSet) : (s.putSet id p).loader = s.loader := by cases id <;> rfl
@[simp] theorem State.putSet_config (id : SetId) (p : PendingSet) : (s.putSet id p).config = s.config := by cases id <;> rfl
@[simp] theorem State.putSet_picks (id : SetId) (p : PendingSet) : (s.putSet id p).picks = s.picks := by cases id <;> rfl
@[simp] theorem State.putSet_blanks (id : SetId) (p : PendingSet) : (s.putSet id p).blanks = s.blanks := by cases id <;> rfl
@[simp] theorem State.putSet_pending (id : SetId) (p : PendingSet) : (s.putSet id p).pending = s.pending := by cases id <;> rfl
@[simp] theorem State.raise_now (id : SetId) (e : Event) : (s.raise id e).now = s.now := by simp [State.raise]
@[simp] theorem State.raise_porn (id : SetId) (e : Event) : (s.raise id e).porn = s.porn := by simp [State.raise]
@[simp] theorem State.raise_straps (id : SetId) (e : Event) : (s.raise id e).straps = s.straps := by simp [State.raise]
@[simp] theorem State.raise_su (id : SetId) (e : Event) : (s.raise id e).su = s.su := by simp [State.raise]
@[simp] theorem State.raise_up (id : SetId) (e : Event) : (s.raise id e).up = s.up := by simp [State.raise]
@[simp] theorem State.raise_lines (id : SetId) (e : Event) : (s.raise id e).lines = s.lines := by simp [State.raise]
@[simp] theorem State.raise_streams (id : SetId) (e : Event) : (s.raise id e).streams = s.streams := by simp [State.raise]
@[simp] theorem State.raise_lease (id : SetId) (e : Event) : (s.raise id e).lease = s.lease := by simp [State.raise]
@[simp] theorem State.raise_matcher (id : SetId) (e : Event) : (s.raise id e).matcher = s.matcher := by simp [State.raise]
@[simp] theorem State.raise_power (id : SetId) (e : Event) : (s.raise id e).power = s.power := by simp [State.raise]
@[simp] theorem State.raise_watches (id : SetId) (e : Event) : (s.raise id e).watches = s.watches := by simp [State.raise]
@[simp] theorem State.raise_ports (id : SetId) (e : Event) : (s.raise id e).ports = s.ports := by simp [State.raise]
@[simp] theorem State.raise_images (id : SetId) (e : Event) : (s.raise id e).images = s.images := by simp [State.raise]
@[simp] theorem State.raise_pool (id : SetId) (e : Event) : (s.raise id e).pool = s.pool := by simp [State.raise]
@[simp] theorem State.raise_loader (id : SetId) (e : Event) : (s.raise id e).loader = s.loader := by simp [State.raise]
@[simp] theorem State.raise_config (id : SetId) (e : Event) : (s.raise id e).config = s.config := by simp [State.raise]
@[simp] theorem State.raise_picks (id : SetId) (e : Event) : (s.raise id e).picks = s.picks := by simp [State.raise]
@[simp] theorem State.raise_blanks (id : SetId) (e : Event) : (s.raise id e).blanks = s.blanks := by simp [State.raise]
@[simp] theorem State.raise_pending (id : SetId) (e : Event) : (s.raise id e).pending = s.pending := by simp [State.raise]

@[simp] theorem State.pendingSet_putSet_same (id : SetId) (p : PendingSet) : (s.putSet id p).pendingSet id = p := by
  cases id <;> simp [State.putSet, State.pendingSet]

@[simp] theorem State.pendingSet_putSet_ne {id id' : SetId} (p : PendingSet) (h : id' ≠ id) :
    (s.putSet id p).pendingSet id' = s.pendingSet id' := by
  cases id <;> cases id' <;> simp_all [State.putSet, State.pendingSet]

@[simp] theorem State.putSet_gapMs (id : SetId) (p : PendingSet) : (s.putSet id p).notices.gapMs = s.notices.gapMs := by
  cases id <;> rfl

@[simp] theorem State.pendingSet_raise_same (id : SetId) (e : Event) :
    (s.raise id e).pendingSet id = (s.pendingSet id).raise e := by simp [State.raise]

@[simp] theorem State.pendingSet_raise_ne {id id' : SetId} (e : Event) (h : id' ≠ id) :
    (s.raise id e).pendingSet id' = s.pendingSet id' := by simp [State.raise, h]

/-! ## The records of a node -/

@[simp] theorem State.port_putPort_same (n : NodeId) (x : MediaPort) : (s.putPort n x).port n = x := by simp [State.port]

@[simp] theorem State.port_putPort_ne {n k : NodeId} (x : MediaPort) (h : k ≠ n) : (s.putPort n x).port k = s.port k := by
  simp [State.port, h]

@[simp] theorem State.image_putImage_same (r : ImageIx) (x : Option ImageRec) : (s.putImage r x).image r = x := by
  simp [State.image, State.putImage]

@[simp] theorem State.image_putImage_ne {r q : ImageIx} (x : Option ImageRec) (h : q ≠ r) :
    (s.putImage r x).image q = s.image q := by simp [State.image, State.putImage, h]

end Sys2Proof.Machine
end

