-- ==== Sys2Proof/Laws/Streams.lean ====
section
/-! SUPPORT. What each operation of the history chains, the ring and the batches can change, said once for each. -/
namespace Sys2Proof

@[simp] theorem Tab.put_put {α : Type} {n : Nat} (t : Tab α n) (i : Fin n) (x y : α) : (t.put i x).put i y = t.put i y := by
  apply Tab.ext; intro j; by_cases h : j = i <;> simp [h]

@[simp] theorem Tab.put_get {α : Type} {n : Nat} (t : Tab α n) (i : Fin n) : t.put i (t.get i) = t := by
  apply Tab.ext; intro j; by_cases h : j = i <;> simp [h]

end Sys2Proof

namespace Sys2Proof.Machine
variable (s : State) (n : NodeId)

/-! ## History (R52, R53, R60) -/

/-- A stream with another history and replay, and all else kept: what the operations on a chain can make of it. -/
def Stream.withHistory (t : Stream) (c : List HistCell) (a : Offset) (r : Option Replay) : Stream :=
  { t with chain := c, oldest := a, replay := r }

section
variable (t : Stream) (c c' : List HistCell) (a a' : Offset) (r r' : Option Replay)

@[simp] theorem Stream.withHistory_ring : (t.withHistory c a r).ring = t.ring := rfl
@[simp] theorem Stream.withHistory_offset : (t.withHistory c a r).offset = t.offset := rfl
@[simp] theorem Stream.withHistory_overrun : (t.withHistory c a r).overrun = t.overrun := rfl
@[simp] theorem Stream.withHistory_lost : (t.withHistory c a r).lost = t.lost := rfl
@[simp] theorem Stream.withHistory_flush : (t.withHistory c a r).flush = t.flush := rfl
@[simp] theorem Stream.withHistory_batchDue : (t.withHistory c a r).batchDue = t.batchDue := rfl
@[simp] theorem Stream.withHistory_atts : (t.withHistory c a r).atts = t.atts := rfl
@[simp] theorem Stream.withHistory_settings : (t.withHistory c a r).settings = t.settings := rfl
@[simp] theorem Stream.withHistory_chain : (t.withHistory c a r).chain = c := rfl
@[simp] theorem Stream.withHistory_oldest : (t.withHistory c a r).oldest = a := rfl
@[simp] theorem Stream.withHistory_replay : (t.withHistory c a r).replay = r := rfl
@[simp] theorem Stream.withHistory_twice : (t.withHistory c a r).withHistory c' a' r' = t.withHistory c' a' r' := rfl

theorem Stream.withHistory_self : t.withHistory t.chain t.oldest t.replay = t := rfl
end

theorem Stream.adjustReplay_eq (t : Stream) : ∃ r, t.adjustReplay = t.withHistory t.chain t.oldest r := by
  unfold Stream.adjustReplay
  split
  · exact ⟨t.replay, rfl⟩
  · repeat' split
    · exact ⟨t.replay, rfl⟩
    · exact ⟨_, rfl⟩
    · exact ⟨_, rfl⟩

theorem Stream.dropOldest_eq (t : Stream) : ∃ r, t.dropOldest = t.withHistory (t.chain.drop 1) (t.oldest + 256) r :=
  Stream.adjustReplay_eq _

theorem Stream.recycle_eq (t : Stream) : ∃ c a r, t.recycle = t.withHistory c a r := by
  unfold Stream.recycle
  split
  · exact ⟨t.chain, t.oldest, t.replay, rfl⟩
  · next c rest _ =>
    obtain ⟨r, h⟩ := Stream.adjustReplay_eq { t with chain := rest ++ [{ c with entries := [] }], oldest := t.oldest + 256 }
    exact ⟨_, _, r, h⟩

theorem Stream.append_eq (t : Stream) (e : Entry) : ∃ c, t.append e = t.withHistory c t.oldest t.replay := by
  unfold Stream.append
  split
  · exact ⟨t.chain, rfl⟩
  · exact ⟨_, rfl⟩

theorem State.makeRoom_eq : ∃ c a r, s.makeRoom n = (s.streams.get n).withHistory c a r := by
  simp only [State.makeRoom]
  split
  · exact ⟨_, _, _, (Stream.withHistory_self _).symm⟩
  · split
    · exact ⟨_, _, _, rfl⟩
    · exact Stream.recycle_eq _

/-- An entry that passes to history changes the node's chain, its oldest offset and its replay, and nothing else (R52). -/
theorem State.pass_eq (o : Offset) (e : Entry) :
    ∃ c a r, s.pass n o e = s.putStream n ((s.streams.get n).withHistory c a r) := by
  obtain ⟨c, a, r, h⟩ := s.makeRoom_eq n
  obtain ⟨d, h'⟩ := Stream.append_eq
    ((s.makeRoom n).withHistory (s.makeRoom n).chain (if (s.streams.get n).chain = [] then o else (s.makeRoom n).oldest)
      (s.makeRoom n).replay) e
  refine ⟨d, (if (s.streams.get n).chain = [] then o else (s.makeRoom n).oldest), r, ?_⟩
  show s.putStream n (((s.makeRoom n).withHistory _ _ _).append e) = _
  rw [h', h]; rfl

@[simp] theorem State.putStream_putStream (t u : Stream) : (s.putStream n t).putStream n u = s.putStream n u := by
  simp [State.putStream]

@[simp] theorem State.putStream_self : s.putStream n (s.streams.get n) = s := by simp [State.putStream]

/-- Entries that pass to history change the node's chain, its oldest offset and its replay, and nothing else (R52). -/
theorem State.passAll_eq (o : Offset) (es : List Entry) :
    ∃ c a r, s.passAll n o es = s.putStream n ((s.streams.get n).withHistory c a r) := by
  induction es generalizing s o with
  | nil => exact ⟨_, _, _, (s.putStream_self n).symm⟩
  | cons e es ih =>
    obtain ⟨c, a, r, h⟩ := s.pass_eq n o e
    obtain ⟨c', a', r', h'⟩ := ih (s.pass n o e) (o + 1)
    exact ⟨c', a', r', by rw [State.passAll, h', h]; simp⟩

/-! ## Batches and the ring (R49 to R51) -/

/-- A stream after batches: the first `d` entries of the ring are gone to history. -/
def Stream.batched (t : Stream) (d : Nat) (due : Bool) : Stream := { t with ring := t.ring.drop d, batchDue := due }

/-- A stream whose ring has drained (R49). -/
def Stream.drained (t : Stream) : Stream := { t with ring := [], flush := none, batchDue := false }

/-- A batch takes the first entries of the ring and queues frames; the stream keeps all else but its history (R51). -/
theorem State.formBatch_eq :
    ∃ fs b c a r, s.formBatch n =
      (s.enqueueAll fs).putStream n (((s.streams.get n).batched 512 b).withHistory c a r) := by
  let t := s.streams.get n
  let fs := t.atts.map (fun x =>
    consoleFrame (s.addressOf x.station) n (encodeOutput t.ringStart (t.ring.take 512) false false false))
  let b := t.batchDue && !(t.ring.drop 512).isEmpty
  obtain ⟨c, a, r, h⟩ := State.passAll_eq ((s.enqueueAll fs).putStream n (t.batched 512 b)) n t.ringStart (t.ring.take 512)
  exact ⟨fs, b, c, a, r, h.trans (by simp [t])⟩

/-- A ring that drains goes to history (R49). -/
theorem State.drainRing_eq :
    ∃ c a r, s.drainRing n = s.putStream n ((s.streams.get n).drained.withHistory c a r) := by
  obtain ⟨c, a, r, h⟩ := State.passAll_eq (s.putStream n (s.streams.get n).drained) n
    (s.streams.get n).ringStart (s.streams.get n).ring
  exact ⟨c, a, r, h.trans (by simp)⟩

/-- What testing the batch conditions can change: the transmit queue grows, and the node's ring loses its first entries to
history; nothing while no station is attached (R50, R51). -/
theorem State.formBatches_eq (k : Nat) :
    ∃ fs d b c a r, State.formBatches n k s =
      (s.enqueueAll fs).putStream n (((s.streams.get n).batched d b).withHistory c a r) ∧
      ((s.streams.get n).atts = [] → State.formBatches n k s = s) := by
  have same (x : State) : ∃ fs d b c a r,
      x = (x.enqueueAll fs).putStream n (((x.streams.get n).batched d b).withHistory c a r) :=
    ⟨[], 0, (x.streams.get n).batchDue, (x.streams.get n).chain, (x.streams.get n).oldest, (x.streams.get n).replay, by
      show x = (x.enqueueAll []).putStream n (x.streams.get n)
      simp [State.enqueueAll, State.putStream]⟩
  induction k generalizing s with
  | zero =>
    obtain ⟨fs, d, b, c, a, r, h⟩ := same s
    exact ⟨fs, d, b, c, a, r, h, fun _ => rfl⟩
  | succ k ih =>
    unfold State.formBatches
    split
    · next hr =>
      obtain ⟨fs, b, c, a, r, h⟩ := s.formBatch_eq n
      obtain ⟨fs', d, b', c', a', r', h', -⟩ := ih (s.formBatch n)
      refine ⟨fs ++ fs', 512 + d, b', c', a', r', ?_, ?_⟩
      · rw [h', h]
        simp [State.putStream, State.enqueueAll, Stream.batched, Stream.withHistory, List.drop_drop]
      · intro h0
        simp [State.batchReady, h0] at hr
    · obtain ⟨fs, d, b, c, a, r, h⟩ := same s
      exact ⟨fs, d, b, c, a, r, h, fun _ => rfl⟩

/-- `State.formBatches_eq` for the test a command makes (R50). -/
theorem State.testBatch_eq :
    ∃ fs d b c a r, s.testBatch n =
      (s.enqueueAll fs).putStream n (((s.streams.get n).batched d b).withHistory c a r) ∧
      ((s.streams.get n).atts = [] → s.testBatch n = s) :=
  s.formBatches_eq n 1024

/-! ## Offers, attachments and replay frames (R47, R49, R56, R57, R59) -/

/-- What an offered entry can change: the node's stream, but for its attachments and settings, and frames that join the transmit
queue (R47, R49, R50). -/
theorem State.offer_eq (k : EntryKind) :
    ∃ fs u, s.offer n k = (s.enqueueAll fs).putStream n u ∧ u.atts = (s.streams.get n).atts ∧
      u.settings = (s.streams.get n).settings := by
  have nofs (u : Stream) : s.putStream n u = (s.enqueueAll []).putStream n u := by simp [State.enqueueAll]
  simp only [State.offer]
  split
  · split
    · obtain ⟨c, a, r, h⟩ := State.drainRing_eq (s.putStream n ((s.streams.get n).join k (s.streams.get n).flush)) n
      refine ⟨[], ((s.streams.get n).join k (s.streams.get n).flush).drained.withHistory c a r, ?_, rfl, rfl⟩
      rw [h, ← nofs]; simp
    · obtain ⟨fs, d, b, c, a, r, h, -⟩ := State.testBatch_eq (s.putStream n ((s.streams.get n).join k (some (s.flushDeadline n)))) n
      refine ⟨fs, (((s.streams.get n).join k (some (s.flushDeadline n))).batched d b).withHistory c a r, ?_, rfl, rfl⟩
      rw [h]; simp [State.putStream, State.enqueueAll]
  · exact ⟨[], (s.streams.get n).lose, nofs _, rfl, rfl⟩

/-- What a detachment can change: the node's stream, but for its settings, and frames that join the transmit queue (R56). -/
theorem State.detach_eq (i : StationIx) :
    ∃ fs u, s.detach n i = (s.enqueueAll fs).putStream n u ∧
      u.atts = (s.streams.get n).atts.filter (fun a => a.station ≠ i) ∧ u.settings = (s.streams.get n).settings := by
  have nofs (u : Stream) : s.putStream n u = (s.enqueueAll []).putStream n u := by simp [State.enqueueAll]
  simp only [State.detach]
  split
  · next h =>
    refine ⟨[], s.streams.get n, by rw [← nofs, State.putStream_self], ?_, rfl⟩
    simp only [Stream.att, Option.isNone_iff_eq_none, List.find?_eq_none] at h
    exact (List.filter_eq_self.mpr (fun a ha => by simpa using h a ha)).symm
  · split
    · obtain ⟨c, a, r, h⟩ := State.drainRing_eq (s.putStream n ((s.streams.get n).dropAtt i)) n
      refine ⟨[], ((s.streams.get n).dropAtt i).drained.withHistory c a r, ?_, rfl, rfl⟩
      rw [h, ← nofs]; simp
    · obtain ⟨fs, d, b, c, a, r, h, -⟩ := State.testBatch_eq (s.putStream n ((s.streams.get n).dropAtt i)) n
      refine ⟨fs, (((s.streams.get n).dropAtt i).batched d b).withHistory c a r, ?_, rfl, rfl⟩
      rw [h]; simp [State.putStream, State.enqueueAll]

/-- A renewed lease changes the node's attachments and nothing else (R57). -/
theorem State.renewLease_eq (i : StationIx) : ∃ as, s.renewLease n i = s.putStream n { s.streams.get n with atts := as } := by
  unfold State.renewLease
  split
  · exact ⟨(s.streams.get n).atts, (s.putStream_self n).symm⟩
  · exact ⟨_, rfl⟩

@[simp] theorem State.putLine_self : s.putLine n (s.lines.get n) = s := by simp [State.putLine]

/-- Items offered to a line change its transmit queue and transmitter and nothing else (R39, R40). -/
theorem State.sendItems_eq (xs : List TxItem) :
    ∃ q t, s.sendItems n xs = s.putLine n { s.lines.get n with txQueue := q, transmitter := t } := by
  have wake (l : Line) (k : Nat) : ∃ q t, l.wake k = { l with txQueue := q, transmitter := t } := by
    unfold Line.wake
    split
    · exact ⟨_, _, rfl⟩
    · exact ⟨l.txQueue, l.transmitter, rfl⟩
  induction xs generalizing s with
  | nil => exact ⟨(s.lines.get n).txQueue, (s.lines.get n).transmitter, (s.putLine_self n).symm⟩
  | cons x xs ih =>
    simp only [State.sendItems]
    obtain ⟨q, t, h⟩ := wake { s.lines.get n with txQueue := (s.lines.get n).txQueue ++ [x] } s.now
    obtain ⟨q', t', h'⟩ := ih (s.putLine n (({ s.lines.get n with txQueue := (s.lines.get n).txQueue ++ [x] } : Line).wake s.now))
    exact ⟨q', t', by rw [h', h]; simp [State.putLine]⟩

/-- A held byte released changes the line's transmit queue and transmitter and nothing else (R63). -/
theorem State.releaseByte_eq (b : Byte) :
    ∃ q t, s.releaseByte n b = s.putLine n { s.lines.get n with txQueue := q, transmitter := t } := by
  unfold State.releaseByte
  split
  · exact s.sendItems_eq n _
  · exact ⟨(s.lines.get n).txQueue, (s.lines.get n).transmitter, (s.putLine_self n).symm⟩

end Sys2Proof.Machine
end

