-- ==== Sys2Proof/Laws/Delivery.lean ====
section
/-! SUPPORT. What the end of a step can change: the producers that wait for descriptors, the notice slot and the transmit port
(R186 to R190). -/
namespace Sys2Proof.Machine

/-! ## The relations are reflexive and transitive -/

theorem StreamSettled.refl (x : Stream) : StreamSettled x x :=
  ⟨rfl, rfl, rfl, rfl, rfl, rfl, List.suffix_refl _, fun _ => rfl⟩

theorem StreamSettled.trans {x y z : Stream} (h : StreamSettled x y) (k : StreamSettled y z) : StreamSettled x z := by
  obtain ⟨h1, h2, h3, h4, h5, h6, h7, h8⟩ := h
  obtain ⟨k1, k2, k3, k4, k5, k6, k7, k8⟩ := k
  exact ⟨k1.trans h1, k2.trans h2, k3.trans h3, k4.trans h4, k5.trans h5, k6.trans h6, k7.trans h7,
    fun e => (k8 (h5.trans e)).trans (h8 e)⟩

theorem StreamsSettled.refl (s : State) : StreamsSettled s s := fun _ => .refl _

theorem StreamsSettled.trans {a b c : State} (h : StreamsSettled a b) (k : StreamsSettled b c) : StreamsSettled a c :=
  fun n => (h n).trans (k n)

theorem FramesKept.count_le {a b : State} (h : FramesKept a b) (f : TxFrame) : a.up.frames.count f ≤ b.up.frames.count f := by
  by_cases hf : f ∈ a.up.frames
  · exact h f hf
  · rw [List.count_eq_zero_of_not_mem hf]; exact Nat.zero_le _

/-- An uplink but for what free descriptors change. -/
def Uplink.still (u : Uplink) : Uplink := { u with queue := [], port := none, rotation := .media }

theorem uplinkSettled_iff {e t : State} : UplinkSettled e t ↔ t.up.still = e.up.still ∧ FramesKept e t := by
  unfold UplinkSettled Uplink.still
  constructor <;> intro h <;> simp_all

theorem UplinkSettled.kept {e t : State} (h : UplinkSettled e t) : FramesKept e t := (uplinkSettled_iff.mp h).2

theorem UplinkSettled.refl (s : State) : UplinkSettled s s := uplinkSettled_iff.mpr ⟨rfl, fun _ _ => Nat.le_refl _⟩

theorem UplinkSettled.trans {a b c : State} (h : UplinkSettled a b) (k : UplinkSettled b c) : UplinkSettled a c := by
  rw [uplinkSettled_iff] at *
  exact ⟨k.1.trans h.1, fun f _ => Nat.le_trans (h.2.count_le f) (k.2.count_le f)⟩

theorem ImagesSettled.refl (s : State) : ImagesSettled s s := ⟨fun _ => rfl, fun _ => ⟨rfl, rfl⟩, rfl, rfl, rfl, rfl, rfl⟩

theorem ImagesSettled.trans {a b c : State} (h : ImagesSettled a b) (k : ImagesSettled b c) : ImagesSettled a c := by
  obtain ⟨h1, h2, h3, h4, h5, h6, h7⟩ := h
  obtain ⟨k1, k2, k3, k4, k5, k6, k7⟩ := k
  exact ⟨fun r => (k1 r).trans (h1 r), fun n => ⟨(k2 n).1.trans (h2 n).1, (k2 n).2.trans (h2 n).2⟩, k3.trans h3, k4.trans h4,
    k5.trans h5, k6.trans h6, k7.trans h7⟩

theorem FetchesSettled.refl (s : State) : FetchesSettled s s := ⟨rfl, fun _ => ⟨rfl, rfl⟩⟩

theorem FetchesSettled.trans {a b c : State} (h : FetchesSettled a b) (k : FetchesSettled b c) : FetchesSettled a c :=
  ⟨k.1.trans h.1, fun f => ⟨(k.2 f).1.trans (h.2 f).1, (k.2 f).2.trans (h.2 f).2⟩⟩

theorem NoticesSettled.refl (s : State) : NoticesSettled s s := ⟨rfl, fun _ => .inl rfl⟩

theorem NoticesSettled.of_eq {a b : State} (h : b.notices = a.notices) : NoticesSettled a b :=
  ⟨by rw [h], fun id => .inl (by cases id <;> simp [State.pendingSet, h])⟩

/-- The notices a set needs depend on the stations and the set alone. -/
theorem noticeFrames_congr {a b : State} (h : b.su = a.su) (id : SetId) (k : b.pendingSet id = a.pendingSet id) :
    b.noticeFrames id = a.noticeFrames id := by
  have h1 : b.station = a.station := by funext i; simp [State.station, h]
  have h2 : b.addressOf = a.addressOf := by funext i; simp [State.addressOf, h1]
  have h3 : b.entitled = a.entitled := by
    funext id i m
    cases id <;> simp [State.entitled, State.holds, h1, h]
  simp only [State.noticeFrames, k, h2, h3]

theorem FramesKept.mem {a b : State} (h : FramesKept a b) (f : TxFrame) (hf : f ∈ a.up.frames) : f ∈ b.up.frames :=
  List.count_pos_iff.mp (Nat.lt_of_lt_of_le (List.count_pos_iff.mpr hf) (h f hf))

theorem NoticesSettled.trans {a b c : State} (hu : b.su = a.su) (hn : b.now = a.now) (hf : FramesKept b c)
    (h : NoticesSettled a b) (k : NoticesSettled b c) : NoticesSettled a c := by
  refine ⟨k.1.trans h.1, fun id => ?_⟩
  rcases h.2 id with h2 | h2
  · rcases k.2 id with k2 | ⟨k3, k4, k5, k6⟩
    · exact .inl (k2.trans h2)
    · rw [noticeFrames_congr hu id h2] at k5 k6
      exact .inr ⟨h2 ▸ k3, h2 ▸ k4, by rw [k5, h.1, State.ms, hn, State.ms], k6⟩
  · rcases k.2 id with k2 | k2
    · exact .inr ⟨h2.1, h2.2.1, k2.trans h2.2.2.1, fun f m => hf.mem f (h2.2.2.2 f m)⟩
    · exact absurd (by rw [h2.2.2.1]) k2.1

/-- A state but for what free descriptors and the need list change. -/
def State.still (s : State) : State :=
  { s with
    streams := State.reset.streams, up := State.reset.up, images := State.reset.images
    notices := State.reset.notices, pool := State.reset.pool, picks := State.reset.picks }

theorem delivers_iff {e t : State} : Delivers e t ↔
    t.still = e.still ∧ StreamsSettled e t ∧ UplinkSettled e t ∧ ImagesSettled e t ∧ NoticesSettled e t := by
  unfold Delivers State.still
  constructor <;> intro h <;> simp_all

theorem Delivers.refl (s : State) : Delivers s s := delivers_iff.mpr ⟨rfl, .refl s, .refl s, .refl s, .refl s⟩

theorem Delivers.trans {a b c : State} (h : Delivers a b) (k : Delivers b c) : Delivers a c := by
  rw [delivers_iff] at *
  obtain ⟨h, hs, hu, hi, hn⟩ := h
  obtain ⟨k, ks, ku, ki, kn⟩ := k
  have su : b.su = a.su := (congrArg State.su h :)
  have now : b.now = a.now := (congrArg State.now h :)
  exact ⟨k.trans h, hs.trans ks, hu.trans ku, hi.trans ki,
    .trans su now ku.kept hn kn⟩

theorem Settles.refl (s : State) : Settles s s := ⟨.refl s, rfl, .refl s⟩

theorem Settles.trans {a b c : State} (h : Settles a b) (k : Settles b c) : Settles a c :=
  ⟨h.1.trans k.1, k.2.1.trans h.2.1, h.2.2.trans k.2.2⟩

/-! ## Building blocks -/

variable (s : State)

theorem framesKept_append (fs : List TxFrame) : FramesKept s (s.enqueueAll fs) := by
  intro f _
  simp only [Uplink.frames, State.enqueueAll, List.count_append]
  omega

theorem enqueueAll_settles (fs : List TxFrame) : Settles s (s.enqueueAll fs) :=
  ⟨delivers_iff.mpr ⟨rfl, .refl s, uplinkSettled_iff.mpr ⟨rfl, framesKept_append s fs⟩, .refl s, .of_eq rfl⟩, rfl, .refl s⟩

theorem enqueue_settles (f : TxFrame) : Settles s (s.enqueue f) := enqueueAll_settles s [f]

/-- A stream replaced by one that differs in the entries batches have taken and in its history. -/
theorem putStream_settles (n : NodeId) (u : Stream) (h1 : u.offset = (s.streams.get n).offset)
    (h2 : u.overrun = (s.streams.get n).overrun) (h3 : u.lost = (s.streams.get n).lost)
    (h4 : u.flush = (s.streams.get n).flush) (h5 : u.atts = (s.streams.get n).atts)
    (h6 : u.settings = (s.streams.get n).settings) (h7 : u.ring <:+ (s.streams.get n).ring)
    (h8 : (s.streams.get n).atts = [] → u.ring = (s.streams.get n).ring) : Settles s (s.putStream n u) := by
  refine ⟨delivers_iff.mpr ⟨rfl, ?_, .refl s, .refl s, .refl s⟩, rfl, .refl s⟩
  intro m
  by_cases h : m = n
  · subst h
    show StreamSettled _ ((s.streams.put m u).get m)
    rw [Tab.get_put_same]
    exact ⟨h1, h2, h3, h4, h5, h6, h7, h8⟩
  · simpa [h] using StreamSettled.refl _

/-- A stream whose history and replay alone differ. -/
theorem withHistory_settles (n : NodeId) (c : List HistCell) (a : Offset) (r : Option Replay) :
    Settles s (s.putStream n ((s.streams.get n).withHistory c a r)) :=
  putStream_settles s n _ rfl rfl rfl rfl rfl rfl (List.suffix_refl _) fun _ => rfl

theorem putImage_settles (r : ImageIx) (x : Option ImageRec) (h : x.map ImageRec.unsent = (s.image r).map ImageRec.unsent) :
    Settles s (s.putImage r x) := by
  refine ⟨delivers_iff.mpr ⟨rfl, .refl s, .refl s,
    ⟨?_, fun _ => ⟨rfl, rfl⟩, rfl, rfl, rfl, rfl, rfl⟩, .refl s⟩, rfl, .refl s⟩
  intro q
  by_cases e : q = r
  · subst e; simpa [State.image, State.putImage, State.putImages] using h
  · simp [State.image, State.putImage, State.putImages, e]

theorem putFetch_settles (f : FetchIx) (x : FetchEntry) (h : x.generation = (s.images.fetches.get f).generation)
    (k : x.live.map Fetch.unsent = (s.images.fetches.get f).live.map Fetch.unsent) : Settles s (s.putFetch f x) := by
  refine ⟨delivers_iff.mpr ⟨rfl, .refl s, .refl s, .refl s, .refl s⟩, rfl, ⟨rfl, ?_⟩⟩
  intro q
  by_cases e : q = f
  · subst e; simpa [State.putFetch, State.putImages] using ⟨h, k⟩
  · simp [State.putFetch, State.putImages, e]

theorem putWrite_settles (n : NodeId) (x : WriteEntry) (h : x.generation = (s.images.writes.get n).generation)
    (k : x.live.map WriteOp.unsent = (s.images.writes.get n).live.map WriteOp.unsent) : Settles s (s.putWrite n x) := by
  refine ⟨delivers_iff.mpr ⟨rfl, .refl s, .refl s,
    ⟨fun _ => rfl, ?_, rfl, rfl, rfl, rfl, rfl⟩, .refl s⟩, rfl, .refl s⟩
  intro q
  by_cases e : q = n
  · subst e; simpa [State.putWrite, State.putImages] using ⟨h, k⟩
  · simp [State.putWrite, State.putImages, e]

/-- The pending set of one node or of the part, replaced. -/
theorem pendingSet_putSet (id q : SetId) (p : PendingSet) :
    (s.putSet id p).pendingSet q = if q = id then p else s.pendingSet q := by
  cases id with
  | none => cases q <;> simp [State.pendingSet, State.putSet]
  | some n =>
    cases q with
    | none => simp [State.pendingSet, State.putSet]
    | some m => by_cases e : m = n <;> simp [State.pendingSet, State.putSet, e]

theorem putSet_gapMs (id : SetId) (p : PendingSet) : (s.putSet id p).notices.gapMs = s.notices.gapMs := by
  cases id <;> rfl

/-- A set emptied after its notices have been queued. -/
theorem notice_settles (id : SetId) (h : (s.pendingSet id).eligible = true) :
    Settles s ((s.enqueueAll (s.noticeFrames id)).putSet id
      ⟨[], if s.noticeFrames id = [] then none else some (s.ms + s.notices.gapMs)⟩) := by
  simp only [PendingSet.eligible, Bool.and_eq_true, Bool.not_eq_true', List.isEmpty_eq_false_iff,
    Option.isNone_iff_eq_none] at h
  have key : NoticesSettled s ((s.enqueueAll (s.noticeFrames id)).putSet id
      ⟨[], if s.noticeFrames id = [] then none else some (s.ms + s.notices.gapMs)⟩) := by
    refine ⟨by rw [putSet_gapMs]; rfl, fun q => ?_⟩
    by_cases e : q = id
    · subst e
      refine .inr ⟨h.1, h.2, by rw [pendingSet_putSet, if_pos rfl], fun f m => ?_⟩
      have : f ∈ (s.enqueueAll (s.noticeFrames q)).up.frames := by simp [Uplink.frames, State.enqueueAll, m]
      cases q <;> exact this
    · exact .inl (by rw [pendingSet_putSet, if_neg e]; cases q <;> rfl)
  obtain ⟨hd, hp, hf⟩ := enqueueAll_settles s (s.noticeFrames id)
  obtain ⟨hk, hs, hu, hi, -⟩ := delivers_iff.mp hd
  cases id <;> exact ⟨delivers_iff.mpr ⟨hk, hs, hu, hi, key⟩, hp, hf⟩

/-! ## The producers -/

theorem formBatch_settles (n : NodeId) (h : (s.streams.get n).atts ≠ []) : Settles s (s.formBatch n) := by
  obtain ⟨fs, b, c, a, r, e⟩ := s.formBatch_eq n
  rw [e]
  exact (enqueueAll_settles s fs).trans
    (putStream_settles _ n _ rfl rfl rfl rfl rfl rfl (List.drop_suffix _ _) fun h0 => absurd h0 h)

theorem replayFrame_settles (n : NodeId) : Settles s (s.replayFrame n) := by
  have key (f : TxFrame) (r : Option Replay) :
      Settles s ((s.enqueue f).putStream n { s.streams.get n with replay := r }) :=
    (enqueue_settles s f).trans (putStream_settles _ n _ rfl rfl rfl rfl rfl rfl (List.suffix_refl _) fun _ => rfl)
  simp only [State.replayFrame]
  split
  · exact .refl s
  · split
    · exact key _ _
    · exact key _ _

theorem sendOpen_settles (r : ImageIx) : Settles s (s.sendOpen r) := by
  unfold State.sendOpen
  split
  · next x hx =>
    split
    · next d b hd =>
      refine (enqueue_settles s _).trans (putImage_settles _ r _ ?_)
      show _ = (s.image r).map _
      simp [hx, ImageRec.unsent, hd]
    · exact .refl s
  · exact .refl s

theorem refetch_settles (f : FetchIx) : Settles s (s.refetch f) := by
  unfold State.refetch
  split
  · next l hl =>
    split
    · exact (enqueue_settles s _).trans (putFetch_settles _ f _ rfl (by
        show _ = (s.images.fetches.get f).live.map _
        simp [hl, Fetch.unsent]))
    · exact .refl s
  · exact .refl s

theorem sendWrite_settles (n : NodeId) : Settles s (s.sendWrite n) := by
  unfold State.sendWrite
  split
  · next w hw =>
    split
    · exact (enqueue_settles s _).trans (putWrite_settles _ n _ rfl (by
        show _ = (s.images.writes.get n).live.map _
        simp [hw, WriteOp.unsent]))
    · exact .refl s
  · exact .refl s

theorem winner_eligible (id : SetId) (h : s.winner = some id) : (s.pendingSet id).eligible = true := by
  have key (l : List SetId) (b : Option SetId) (hb : ∀ x, b = some x → (s.pendingSet x).eligible = true) :
      ∀ x, l.foldl (fun best id =>
        if !(s.pendingSet id).eligible then best
        else
          match best with
          | none => some id
          | some b => if (s.pendingSet id).rank < (s.pendingSet b).rank then some id else best) b = some x →
        (s.pendingSet x).eligible = true := by
    induction l generalizing b with
    | nil => exact hb
    | cons i l ih =>
      apply ih
      intro x hx
      dsimp only at hx
      split at hx
      · exact hb x hx
      · next he =>
        split at hx
        · cases hx; simpa using he
        · split at hx
          · cases hx; simpa using he
          · exact hb x hx
  exact key allSets none (fun _ e => by cases e) id h

theorem sendNotice_settles : Settles s s.sendNotice := by
  unfold State.sendNotice
  split
  · next id h => simpa [List.isEmpty_iff] using notice_settles s id (winner_eligible s id h)
  · exact .refl s

/-! ## Producers served until none is ready -/

theorem mem_readyProducers_batch (needs : Bool) (n : NodeId) (h : .batch n ∈ s.readyProducers needs) :
    (s.streams.get n).atts ≠ [] := by
  have : s.batchReady n = true := by
    cases needs <;> cases e : s.needsReady <;> cases f : s.noticeReady <;>
      simpa [State.readyProducers, e, f] using h
  intro h0
  simp [State.batchReady, h0] at this

theorem not_mem_readyProducers_needs : .needs ∉ s.readyProducers false := by simp [State.readyProducers]

theorem choose_mem (p : Producer) (ps : List Producer) : (s.choose p ps).2 ∈ p :: ps := by
  unfold State.choose
  split
  · exact List.mem_cons_self
  · have h : Config.pick s.picks % (p :: ps).length < (p :: ps).length := Nat.mod_lt _ (by simp)
    simp only [List.getD_eq_getElem?_getD, List.getElem?_eq_getElem h, Option.getD_some]
    exact List.getElem_mem h

theorem choose_settles (p : Producer) (ps : List Producer) : Settles s (s.choose p ps).1 := by
  unfold State.choose
  split
  · exact .refl s
  · exact ⟨.refl s, rfl, .refl s⟩

theorem choose_streams (p : Producer) (ps : List Producer) : (s.choose p ps).1.streams = s.streams := by
  unfold State.choose
  split <;> rfl

/-- What a producer other than the need list leaves. -/
theorem serve_settles (p : Producer) (b : Bool) (hn : p ≠ .needs) (hb : ∀ n, p = .batch n → (s.streams.get n).atts ≠ []) :
    Settles s (s.serve b p).1 ∧ (s.serve b p).2 = b := by
  cases p with
  | batch n => exact ⟨formBatch_settles s n (hb n rfl), rfl⟩
  | replay n => exact ⟨replayFrame_settles s n, rfl⟩
  | imageOpen r => exact ⟨sendOpen_settles s r, rfl⟩
  | needs => exact absurd rfl hn
  | refetch f => exact ⟨refetch_settles s f, rfl⟩
  | rewrite n => exact ⟨sendWrite_settles s n, rfl⟩
  | notice => exact ⟨sendNotice_settles s, rfl⟩

theorem settle_settles (k : Nat) : Settles s (State.settle k false s) := by
  induction k generalizing s with
  | zero => exact .refl s
  | succ k ih =>
    unfold State.settle
    split
    · exact .refl s
    · next p ps h =>
      have hm : (s.choose p ps).2 ∈ s.readyProducers false := h ▸ choose_mem s p ps
      have hs := serve_settles (s.choose p ps).1 (s.choose p ps).2 false
        (fun e => not_mem_readyProducers_needs s (e ▸ hm))
        (fun n e => by rw [choose_streams]; exact mem_readyProducers_batch s false n (e ▸ hm))
      simp only [hs.2]
      exact (choose_settles s p ps).trans (hs.1.trans (ih _))

/-! ## The transmit port (R187) -/

theorem arbitrate_mem (u : Uplink) (f : TxFrame) (h : u.arbitrate = some f) : f ∈ u.queue := by
  obtain ⟨c, -, hc⟩ := List.exists_of_findSome?_eq_some h
  exact List.mem_of_find?_eq_some hc

/-- What an idle port's arbitration changes: the frame taken stands in the port and no longer in the queue (R187). -/
theorem takeNext_eq (u : Uplink) : u.takeNext = u ∨ ∃ f, u.port = none ∧ f ∈ u.queue ∧
    u.takeNext = { u with port := some f, queue := u.queue.erase f, rotation := Rotation.after f.cls u.rotation } := by
  unfold Uplink.takeNext
  split
  · exact .inl rfl
  · next h =>
    split
    · exact .inl rfl
    · next f hf => exact .inr ⟨f, by simp at h; exact h.1, arbitrate_mem u f hf, rfl⟩

/-- Arbitration moves a frame from the queue to the port, and the descriptors held stay the same. -/
theorem takeNext_frames (u : Uplink) : u.takeNext.frames.Perm u.frames := by
  rcases takeNext_eq u with h | ⟨f, hp, hf, h⟩
  · rw [h]
  · rw [h]
    simpa [Uplink.frames, hp] using (List.perm_cons_erase hf).symm

theorem takeNext_settles : Settles s (s.putUp s.up.takeNext) := by
  have hk : FramesKept s (s.putUp s.up.takeNext) := fun f _ => (takeNext_frames s.up).count_eq f ▸ Nat.le_refl _
  refine ⟨delivers_iff.mpr ⟨rfl, .refl s, ?_, .refl s, .of_eq rfl⟩, rfl, .refl s⟩
  rcases takeNext_eq s.up with h | ⟨f, hp, hf, h⟩
  · rw [h]; exact .refl s
  · exact uplinkSettled_iff.mpr ⟨by rw [h]; rfl, hk⟩

/-- The end of a step settles the command's effect (log entry 4). -/
theorem finish_settles : Settles s s.finish := (settle_settles s settleFuel).trans (takeNext_settles _)

/-- A command that runs completes with its effect. -/
theorem whenRunning_settles (f : State → State) (h : s.porn = true) :
    ∃ t, s.whenRunning f = .next t ∧ Settles (f s) t := by
  refine ⟨(f s).finish, ?_, finish_settles _⟩
  simp [State.whenRunning, h]

end Sys2Proof.Machine
end

