-- ==== Sys2Proof/Laws/Pool.lean ====
section
/-! SUPPORT. What the Buffer Pool and the need list can change: allocations, frees, reports and tries (R148 to R150, R168 to R175),
said once for each operation by one relation. -/
namespace Sys2Proof.Machine

/-- What allocations, frees and tries of the need list can make of a state: the chains' histories, the pool, the needs and the
fetch table change, and frames join the transmit queue. -/
def PoolWork (s t : State) : Prop :=
  ∃ st p nd fs q,
    t = { s with
      streams := st, pool := p, images := { s.images with needs := nd, fetches := fs },
      up := { s.up with queue := s.up.queue ++ q } } ∧
    ∀ n, ∃ c a r, st.get n = (s.streams.get n).withHistory c a r

theorem PoolWork.refl (s : State) : PoolWork s s :=
  ⟨s.streams, s.pool, s.images.needs, s.images.fetches, [], by simp, fun n =>
    ⟨(s.streams.get n).chain, (s.streams.get n).oldest, (s.streams.get n).replay, rfl⟩⟩

theorem PoolWork.trans {a b c : State} (h : PoolWork a b) (k : PoolWork b c) : PoolWork a c := by
  obtain ⟨st, p, nd, fs, q, e, hs⟩ := h
  obtain ⟨st', p', nd', fs', q', e', hs'⟩ := k
  subst e
  refine ⟨st', p', nd', fs', q ++ q', by rw [e']; simp, fun n => ?_⟩
  obtain ⟨x, y, z, h⟩ := hs n
  obtain ⟨x', y', z', h'⟩ := hs' n
  exact ⟨x', y', z', by rw [h']; simp [h]⟩

variable (s : State)

/-! ## Single changes -/

theorem putPool_work (p : Pool) : PoolWork s (s.putPool p) :=
  ⟨s.streams, p, s.images.needs, s.images.fetches, [], by simp [State.putPool], fun n =>
    ⟨(s.streams.get n).chain, (s.streams.get n).oldest, (s.streams.get n).replay, rfl⟩⟩

theorem putNeeds_work (ns : List Need) : PoolWork s (s.putNeeds ns) :=
  ⟨s.streams, s.pool, ns, s.images.fetches, [], by simp [State.putNeeds, State.putImages], fun n =>
    ⟨(s.streams.get n).chain, (s.streams.get n).oldest, (s.streams.get n).replay, rfl⟩⟩

theorem putFetch_work (f : FetchIx) (x : FetchEntry) : PoolWork s (s.putFetch f x) :=
  ⟨s.streams, s.pool, s.images.needs, s.images.fetches.put f x, [], by simp [State.putFetch, State.putImages], fun n =>
    ⟨(s.streams.get n).chain, (s.streams.get n).oldest, (s.streams.get n).replay, rfl⟩⟩

theorem enqueue_work (f : TxFrame) : PoolWork s (s.enqueue f) :=
  ⟨s.streams, s.pool, s.images.needs, s.images.fetches, [f], by simp [State.enqueue], fun n =>
    ⟨(s.streams.get n).chain, (s.streams.get n).oldest, (s.streams.get n).replay, rfl⟩⟩

theorem dropOldest_work (n : NodeId) : PoolWork s (s.putStream n (s.streams.get n).dropOldest) := by
  obtain ⟨r, h⟩ := (s.streams.get n).dropOldest_eq
  refine ⟨s.streams.put n (s.streams.get n).dropOldest, s.pool, s.images.needs, s.images.fetches, [],
    by simp only [State.putStream, List.append_nil], fun m => ?_⟩
  by_cases e : m = n
  · subst e; exact ⟨_, _, r, by rw [Tab.get_put_same, h]⟩
  · exact ⟨(s.streams.get m).chain, (s.streams.get m).oldest, (s.streams.get m).replay, by rw [Tab.get_put_ne _ _ e]; rfl⟩

/-! ## Allocation (R172, R173) and limits (R175) -/

theorem reclaim_work (n : NodeId) : PoolWork s (s.reclaim n) := (dropOldest_work s n).trans (putPool_work _ _)

theorem obtain_work (k : Nat) : PoolWork s (State.obtain k s) := by
  induction k generalizing s with
  | zero => exact .refl s
  | succ k ih =>
    unfold State.obtain
    split
    · exact .refl s
    · split
      · exact (putPool_work s _).trans (ih _)
      · split
        · exact (reclaim_work s _).trans (ih _)
        · exact .refl s

theorem allocate_work (k : ExtentKey) : PoolWork s (s.allocate k).1 := by
  unfold State.allocate
  split
  · exact putPool_work s _
  · split
    · exact (obtain_work s 1200).trans (putPool_work _ _)
    · exact putPool_work s _

theorem dropTo_work (n : NodeId) (hi k : Nat) : PoolWork s (State.dropTo n hi k s) := by
  induction k generalizing s with
  | zero => exact .refl s
  | succ k ih =>
    unfold State.dropTo
    split
    · exact .refl s
    · exact (dropOldest_work s n).trans (ih _)

theorem evictToReserve_work (k : Nat) : PoolWork s (State.evictToReserve k s) := by
  induction k generalizing s with
  | zero => exact .refl s
  | succ k ih =>
    unfold State.evictToReserve
    split
    · exact .refl s
    · split
      · exact (putPool_work s _).trans (ih _)
      · exact .refl s

/-! ## The need list (R149, R150) -/

theorem issue_work (x : Need) (r : ImageRec) (f : FetchIx) (i : ExtentIx) : PoolWork s (s.issue x r f i) :=
  (enqueue_work s _).trans ((putFetch_work _ f _).trans (putNeeds_work _ _))

theorem tryOne_work : PoolWork s s.tryOne.1 := by
  unfold State.tryOne
  split
  · exact .refl s
  · next x hx =>
    split
    · next r f hr hf =>
      split
      · have h := allocate_work s (r.key x.extent)
        cases e : s.allocate (r.key x.extent) with
        | mk s' o =>
          rw [e] at h
          cases o with
          | some i => exact h.trans (issue_work s' x r f i)
          | none => exact h
      · exact .refl s
    · exact .refl s

theorem tryLoop_work (k : Nat) : PoolWork s (State.tryLoop k s) := by
  induction k generalizing s with
  | zero => exact .refl s
  | succ k ih =>
    unfold State.tryLoop
    split
    · exact (tryOne_work s).trans (ih _)
    · exact tryOne_work s

theorem tryNeeds_work : PoolWork s s.tryNeeds := tryLoop_work s 64

theorem report_work : PoolWork s s.report := by
  unfold State.report
  split
  · exact (putPool_work s _).trans (tryNeeds_work _)
  · exact .refl s

/-! ## Frees, unpins and stale marks (R168, R170, R171) -/

theorem freeExtent_work (i : ExtentIx) : PoolWork s (s.freeExtent i) := (putPool_work s _).trans (report_work _)

theorem unpin_work (i : ExtentIx) : PoolWork s (s.unpin i) := by
  unfold State.unpin
  split
  · split
    · exact (putPool_work s _).trans (report_work _)
    · exact putPool_work s _
  · exact .refl s

theorem pin_work (i : ExtentIx) : PoolWork s (s.pin i) := by
  unfold State.pin
  split
  · exact putPool_work s _
  · exact .refl s

theorem markStale_work (i : ExtentIx) : PoolWork s (s.markStale i) := by
  unfold State.markStale
  split
  · split
    · exact freeExtent_work s i
    · exact putPool_work s _
  · exact .refl s

/-- A relation that is reflexive and transitive holds over a fold each of whose steps keeps it. -/
theorem foldl_keeps {α β : Type} {R : α → α → Prop} (hr : ∀ a, R a a) (ht : ∀ {a b c}, R a b → R b c → R a c) {f : α → β → α}
    (l : List β) (h : ∀ a, ∀ b ∈ l, R a (f a b)) (a : α) : R a (l.foldl f a) := by
  induction l generalizing a with
  | nil => exact hr a
  | cons b l ih =>
    exact ht (h a b List.mem_cons_self) (ih (fun x y hy => h x y (List.mem_cons_of_mem _ hy)) _)

theorem markStaleIf_work (p : ExtentKey → Bool) (i : ExtentIx) : PoolWork s (s.markStaleIf p i) := by
  unfold State.markStaleIf
  split
  · split
    · exact markStale_work s i
    · exact .refl s
  · exact .refl s

theorem staleWhere_work (p : ExtentKey → Bool) : PoolWork s (s.staleWhere p) :=
  foldl_keeps PoolWork.refl PoolWork.trans _ (fun a x _ => markStaleIf_work a p x) s

theorem leaveNeeds_work (n : NodeId) : PoolWork s (s.leaveNeeds n) := putNeeds_work s _

theorem handNeed_work (n : NodeId) (r : ImageIx) (e : BitVec 32) : PoolWork s (s.handNeed n r e) := by
  simp only [State.handNeed]
  split
  · exact putNeeds_work s _
  · exact (putNeeds_work s _).trans (tryNeeds_work _)

theorem readAhead_work (n : NodeId) (r : ImageIx) (e : Nat) : PoolWork s (s.readAhead n r e) := by
  simp only [State.readAhead]
  split
  · exact .refl s
  · split
    · exact (putNeeds_work s _).trans (tryNeeds_work _)
    · exact .refl s

/-! ## A freed descriptor (R186) -/

theorem PoolWork.delivers {s t : State} (h : PoolWork s t) : Delivers s t := by
  obtain ⟨st, p, nd, fs, q, e, hs⟩ := h
  subst e
  refine delivers_iff.mpr ⟨rfl, ?_, uplinkSettled_iff.mpr ⟨rfl, framesKept_append s q⟩,
    ⟨fun _ => rfl, fun _ => ⟨rfl, rfl⟩, rfl, rfl, rfl, rfl, rfl⟩, .of_eq rfl⟩
  intro n
  obtain ⟨c, a, r, h⟩ := hs n
  simp only [h]
  exact ⟨rfl, rfl, rfl, rfl, rfl, rfl, List.suffix_refl _, fun _ => rfl⟩

theorem settle_delivers (k : Nat) (b : Bool) : Delivers s (State.settle k b s) := by
  induction k generalizing s b with
  | zero => exact .refl s
  | succ k ih =>
    unfold State.settle
    split
    · exact .refl s
    · next p ps h =>
      have hm : (s.choose p ps).2 ∈ s.readyProducers b := h ▸ choose_mem s p ps
      refine (choose_settles s p ps).1.trans (Delivers.trans ?_ (ih _ _))
      by_cases hn : (s.choose p ps).2 = .needs
      · rw [hn]; exact (tryOne_work _).delivers
      · exact (serve_settles (s.choose p ps).1 _ b hn (fun n e => by
          rw [choose_streams]; exact mem_readyProducers_batch s b n (e ▸ hm))).1.1

/-- What a freed descriptor can change (R186): the waiting producers are served, the need list among them. -/
theorem descriptorFreed_delivers : Delivers s s.descriptorFreed := settle_delivers s settleFuel true

end Sys2Proof.Machine
end

