-- ==== Sys2Proof/Laws/Media.lean ====
section
/-! SUPPORT. What the Media Ports and the Image Fetch Unit can change (chapters 7 and 8), said once for each operation by one
relation. -/
namespace Sys2Proof.Machine

/-- What the operations of a medium can make of a state, for the nodes `ns`: their ports, the Image Fetch Unit, the pool with the
chains' histories, pending sets, and frames that join the transmit queue. -/
def MediaWork (ns : NodeId → Prop) (s t : State) : Prop :=
  ∃ st p im q pt nt,
    t = { s with
      streams := st, pool := p, images := im, up := { s.up with queue := s.up.queue ++ q }, ports := pt, notices := nt } ∧
    (∀ n, ∃ c a r, st.get n = (s.streams.get n).withHistory c a r) ∧ (∀ n, ¬ns n → pt.get n = s.ports.get n) ∧
    im.timeout = s.images.timeout ∧ nt.gapMs = s.notices.gapMs

variable {ns ms : NodeId → Prop} {s t u : State}

theorem PoolWork.media (h : PoolWork s t) : MediaWork ns s t := by
  obtain ⟨st, p, nd, fs, q, e, hs⟩ := h
  exact ⟨st, p, { s.images with needs := nd, fetches := fs }, q, s.ports, s.notices, e, hs, fun _ _ => rfl, rfl, rfl⟩

theorem MediaWork.refl (s : State) : MediaWork ns s s := (PoolWork.refl s).media

theorem MediaWork.trans (h : MediaWork ns s t) (k : MediaWork ns t u) : MediaWork ns s u := by
  obtain ⟨st, p, im, q, pt, nt, e, hs, hp, ht, hg⟩ := h
  obtain ⟨st', p', im', q', pt', nt', e', hs', hp', ht', hg'⟩ := k
  subst e
  refine ⟨st', p', im', q ++ q', pt', nt', by rw [e']; simp, fun n => ?_, fun n hn => (hp' n hn).trans (hp n hn), ht'.trans ht,
    hg'.trans hg⟩
  obtain ⟨x, y, z, h⟩ := hs n
  obtain ⟨x', y', z', h'⟩ := hs' n
  exact ⟨x', y', z', by rw [h']; simp [h]⟩

theorem MediaWork.mono (h : MediaWork ns s t) (hm : ∀ n, ns n → ms n) : MediaWork ms s t := by
  obtain ⟨st, p, im, q, pt, nt, e, hs, hp, ht, hg⟩ := h
  exact ⟨st, p, im, q, pt, nt, e, hs, fun n hn => hp n fun h => hn (hm n h), ht, hg⟩

theorem histories_refl (s : State) (n : NodeId) : ∃ c a r, s.streams.get n = (s.streams.get n).withHistory c a r :=
  ⟨(s.streams.get n).chain, (s.streams.get n).oldest, (s.streams.get n).replay, rfl⟩

variable (s)

/-! ## Single changes -/

theorem putPort_media {n : NodeId} (x : MediaPort) (hn : ns n) : MediaWork ns s (s.putPort n x) :=
  ⟨s.streams, s.pool, s.images, [], s.ports.put n x, s.notices, by simp [State.putPort], histories_refl s, fun m hm => by
    rw [Tab.get_put_ne]; exact fun e => hm (e ▸ hn), rfl, rfl⟩

theorem putImages_media (x : ImageUnit) (h : x.timeout = s.images.timeout) : MediaWork ns s (s.putImages x) :=
  ⟨s.streams, s.pool, x, [], s.ports, s.notices, by simp [State.putImages], histories_refl s, fun _ _ => rfl, h, rfl⟩

theorem putImage_media (r : ImageIx) (x : Option ImageRec) : MediaWork ns s (s.putImage r x) := putImages_media s _ rfl

theorem putWrite_media (n : NodeId) (x : WriteEntry) : MediaWork ns s (s.putWrite n x) := putImages_media s _ rfl

theorem enqueue_media (f : TxFrame) : MediaWork ns s (s.enqueue f) := (enqueue_work s f).media

theorem putSet_media (id : SetId) (p : PendingSet) : MediaWork ns s (s.putSet id p) := by
  cases id with
  | none =>
    exact ⟨s.streams, s.pool, s.images, [], s.ports, { s.notices with part := p }, by simp [State.putSet], histories_refl s,
      fun _ _ => rfl, rfl, rfl⟩
  | some n =>
    exact ⟨s.streams, s.pool, s.images, [], s.ports, { s.notices with sets := s.notices.sets.put n p }, by simp [State.putSet],
      histories_refl s, fun _ _ => rfl, rfl, rfl⟩

theorem raise_media (id : SetId) (e : Event) : MediaWork ns s (s.raise id e) := putSet_media s id _

/-! ## Image records (R145) -/

theorem closeRecord_media (x : ImageRec) : MediaWork ns s (s.closeRecord x) := by
  unfold State.closeRecord
  split
  · exact .refl s
  · split
    · exact enqueue_media s _
    · exact putImages_media s _ rfl

theorem dropFetch_work (f : FetchIx) : PoolWork s (s.dropFetch f) := by
  unfold State.dropFetch
  split
  · exact (putFetch_work s f _).trans (putPool_work _ _)
  · exact .refl s

theorem removeRecord_media (r : ImageIx) : MediaWork ns s (s.removeRecord r) := by
  simp only [State.removeRecord]
  split
  · exact .refl s
  · next x _ =>
    refine (closeRecord_media s x).trans ?_
    have hf : MediaWork ns (s.closeRecord x) ((s.fetchesOf r).foldl State.dropFetch (s.closeRecord x)) :=
      (foldl_keeps PoolWork.refl PoolWork.trans _ (fun a f _ => dropFetch_work a f) _).media
    have hc (b : State) : MediaWork ns b (((b.putNeeds (b.images.needs.filter (fun y => y.image ≠ r))).putPool
        ((b.putNeeds (b.images.needs.filter (fun y => y.image ≠ r))).pool.setOwned x.server x.image false)).putImage r none) :=
      ((putNeeds_work b _).media.trans (putPool_work _ _).media).trans (putImage_media _ r none)
    split
    · exact hf.trans (hc _)
    · exact hf.trans ((hc _).trans ((putPool_work _ _).trans (tryNeeds_work _)).media)

theorem leaveRecord_media (n : NodeId) (r : ImageIx) : MediaWork ns s (s.leaveRecord n r) := by
  simp only [State.leaveRecord]
  split
  · exact .refl s
  · split
    · exact (putImage_media s r _).trans (removeRecord_media _ r)
    · exact putImage_media s r _

/-! ## Messages sent or sent again (R144, R155) -/

theorem sendWrite_media (n : NodeId) : MediaWork ns s (s.sendWrite n) := by
  unfold State.sendWrite
  split
  · split
    · exact (enqueue_media s _).trans (putWrite_media _ n _)
    · exact .refl s
  · exact .refl s

theorem sendOpen_media (r : ImageIx) : MediaWork ns s (s.sendOpen r) := by
  unfold State.sendOpen
  split
  · split
    · exact (enqueue_media s _).trans (putImage_media _ r _)
    · exact .refl s
  · exact .refl s

/-! ## Requests (R121) and the port (R120) -/

section
variable {n : NodeId} (hn : ns n)
include hn

theorem clearActive_media : MediaWork ns s (s.clearActive n) := putPort_media s _ hn

theorem dropActive_media : MediaWork ns s (s.dropActive n) := by
  unfold State.dropActive
  split
  · exact .refl s
  · exact (clearActive_media s hn).trans (unpin_work _ _).media
  · exact (clearActive_media s hn).trans (leaveNeeds_work _ n).media
  · exact clearActive_media s hn

theorem give_media (r : UsbReply) : MediaWork ns s (s.give n r) := putPort_media s _ hn

theorem putSense_media (k : SenseKey) (i : Option (BitVec 32)) : MediaWork ns s (s.putSense n k i) := putPort_media s _ hn

theorem status_media (k : SenseKey) (i : Option (BitVec 32)) : MediaWork ns s (s.status n k i) :=
  (putSense_media s hn k i).trans (give_media _ hn _)

theorem endRequest_media (k : SenseKey) (i : Option (BitVec 32)) : MediaWork ns s (s.endRequest n k i) :=
  (dropActive_media s hn).trans (status_media _ hn k i)

theorem endNotReady_media : MediaWork ns s (s.endNotReady n) := by
  unfold State.endNotReady
  split
  · exact endRequest_media s hn _ _
  · exact .refl s

theorem portDetach_media : MediaWork ns s (s.portDetach n) := (dropActive_media s hn).trans (putPort_media _ _ hn)

theorem portAttach_media : MediaWork ns s (s.portAttach n) := putPort_media s _ hn

theorem portUpdate_media : MediaWork ns s (s.portUpdate n) := by
  simp only [State.portUpdate]
  split
  · exact portAttach_media s hn
  · split
    · exact portDetach_media s hn
    · exact .refl s

/-! ## Ejecting (R136 to R138) -/

theorem emptyMedium_media (lock changed : Bool) : MediaWork ns s (s.emptyMedium n lock changed) := by
  simp only [State.emptyMedium]
  split
  · exact (putPort_media s _ hn).trans (leaveRecord_media _ n _)
  · exact putPort_media s _ hn

theorem finishEject_media (c : EjectCause) : MediaWork ns s (s.finishEject n c) :=
  (emptyMedium_media s hn _ _).trans (raise_media _ _ _)

theorem eject_media (c : EjectCause) : MediaWork ns s (s.eject n c) := by
  simp only [State.eject]
  refine (endNotReady_media s hn).trans ?_
  split
  · split
    · exact putPort_media _ _ hn
    · exact finishEject_media _ hn c
  · exact finishEject_media _ hn c
  · exact .refl _
  · exact .refl _

theorem abandonWrite_media : MediaWork ns s (s.abandonWrite n) := by
  unfold State.abandonWrite
  split
  · exact (putWrite_media s n _).trans (putPort_media _ _ hn)
  · exact .refl s

theorem forceEjectLost_media : MediaWork ns s (s.forceEjectLost n) := by
  simp only [State.forceEjectLost]
  split
  · exact .refl s
  · exact (endNotReady_media s hn).trans ((abandonWrite_media _ hn).trans
      ((emptyMedium_media _ hn _ _).trans (raise_media _ _ _)))

theorem handoverPort_media : MediaWork ns s (s.handoverPort n) := by
  simp only [State.handoverPort]
  split
  · exact (endNotReady_media s hn).trans ((abandonWrite_media _ hn).trans (putPort_media _ _ hn))
  · exact (endNotReady_media s hn).trans ((abandonWrite_media _ hn).trans (emptyMedium_media _ hn _ _))

theorem stationEject_media (i : StationIx) (f : Bool) : MediaWork ns s (s.stationEject n i f).1 := by
  unfold State.stationEject
  split
  · exact .refl s
  · exact .refl s
  · split
    · exact .refl s
    · exact eject_media s hn _
  · split
    · exact .refl s
    · exact eject_media s hn _

theorem patternEject_media (p : PatternIx) : MediaWork ns s (s.patternEject n p) := by
  unfold State.patternEject
  split
  · exact .refl s
  · exact .refl s
  · split
    · exact raise_media s _ _
    · exact eject_media s hn _
  · split
    · exact raise_media s _ _
    · exact eject_media s hn _

theorem nodeEject_media : MediaWork ns s (s.nodeEject n) := by
  unfold State.nodeEject
  split
  · exact status_media s hn _ _
  · exact status_media s hn _ _
  · exact (eject_media s hn _).trans (status_media _ hn _ _)
  · exact (eject_media s hn _).trans (status_media _ hn _ _)

/-! ## Reading (R128 to R130) -/

theorem putRead_media (l c d : Nat) (p : ReadPhase) : MediaWork ns s (s.putRead n l c d p) := putPort_media s _ hn

theorem advanceRead_media : MediaWork ns s (s.advanceRead n) := by
  unfold State.advanceRead
  split
  · split
    · exact (putPort_media s _ hn).trans (putSense_media _ hn _ _)
    · split
      · exact .refl s
      · split
        · split
          · exact (putRead_media s hn _ _ _ _).trans (pin_work _ _).media
          · exact putRead_media s hn _ _ _ _
        · exact (putRead_media s hn _ _ _ _).trans (handNeed_work _ _ _ _).media
  · exact .refl s

theorem pollRead_media (m : MediumRef) (l c d r : Nat) (i : ExtentIx) (e : Extent) :
    MediaWork ns s (s.pollRead n m l c d r i e) := by
  simp only [State.pollRead]
  split
  · exact ((putRead_media s hn _ _ _ _).trans (give_media _ hn _)).trans
      (((unpin_work _ _).media.trans (readAhead_work _ _ _ _).media).trans (advanceRead_media _ hn))
  · split
    · exact ((putRead_media s hn _ _ _ _).trans (give_media _ hn _)).trans
        ((unpin_work _ _).media.trans (advanceRead_media _ hn))
    · exact (putRead_media s hn _ _ _ _).trans (give_media _ hn _)

theorem poll_media (r : Nat) : MediaWork ns s (s.poll n r) := by
  unfold State.poll
  split
  · exact give_media s hn _
  · split
    · exact pollRead_media s hn _ _ _ _ _ _ _
    · exact .refl s
  · exact give_media s hn _
  · exact .refl s

theorem decideRead_media (l c : Nat) : MediaWork ns s (s.decideRead n l c) := by
  simp only [State.decideRead]
  split
  · split
    · exact status_media s hn _ _
    · split
      · exact status_media s hn _ _
      · split
        · split
          · exact ((putRead_media s hn _ _ _ _).trans (give_media _ hn _)).trans
              ((give_media _ hn _).trans (advanceRead_media _ hn))
          · exact ((putRead_media s hn _ _ _ _).trans (give_media _ hn _)).trans (advanceRead_media _ hn)
        · exact ((putRead_media s hn _ _ _ _).trans (give_media _ hn _)).trans (advanceRead_media _ hn)
  · exact status_media s hn _ _
  · exact status_media s hn _ _
  · exact status_media s hn _ _

/-! ## Writing (R131 to R133, R155) -/

theorem handWrite_media (m : MediumRef) (l c h : Nat) : MediaWork ns s (s.handWrite n m l c h) := by
  simp only [State.handWrite]
  have hs : MediaWork ns s (match s.image m.image with
      | some r => s.staleWhere (fun k => k.server == r.server && k.image == r.image &&
          overlaps ((l + h) * 512) (s.port n).staging.length k.extent)
      | none => s) := by
    split
    · exact (staleWhere_work s _).media
    · exact .refl s
  have hq (b : State) : MediaWork ns b (if b.rewriteReady n then b.sendWrite n else b) := by
    split
    · exact sendWrite_media b n
    · exact .refl b
  exact hs.trans (((putWrite_media _ n _).trans (putPort_media _ _ hn)).trans (hq _))

theorem writeData_media (d : List Byte) : MediaWork ns s (s.writeData n d) := by
  simp only [State.writeData]
  split
  · split
    · exact give_media s hn _
    · split
      · exact ((putPort_media s _ hn).trans (give_media _ hn _)).trans (handWrite_media _ hn _ _ _ _)
      · exact (putPort_media s _ hn).trans (give_media _ hn _)
  · exact .refl s

theorem decideWrite_media (l c : Nat) : MediaWork ns s (s.decideWrite n l c) := by
  simp only [State.decideWrite]
  split
  · split
    · exact status_media s hn _ _
    · split
      · exact status_media s hn _ _
      · split
        · exact status_media s hn _ _
        · exact (putPort_media s _ hn).trans (give_media _ hn _)
  · exact status_media s hn _ _
  · exact status_media s hn _ _
  · exact status_media s hn _ _

theorem writeEnded_media (w : WriteOp) (ok : Bool) : MediaWork ns s (s.writeEnded n w ok) := by
  simp only [State.writeEnded]
  refine (putPort_media s { s.port n with staging := [] } hn).trans ?_
  split
  · exact finishEject_media _ hn _
  · exact .refl _
  · exact .refl _
  · split
    · split
      · split
        · exact endRequest_media _ hn _ _
        · exact (putPort_media _ _ hn).trans (give_media _ hn _)
      · exact endRequest_media _ hn _ _
    · exact .refl _

/-! ## Fills and inserts (R130, R134, R135) -/

theorem filled_media (i : ExtentIx) : MediaWork ns s (s.filled i n) := by
  unfold State.filled
  split
  · exact ((putRead_media s hn _ _ _ _).trans (pin_work _ _).media).trans (give_media _ hn _)
  · exact .refl s

theorem fetchFailed_media : MediaWork ns s (s.fetchFailed n) := by
  unfold State.fetchFailed
  split
  · exact endRequest_media s hn _ _
  · exact .refl s

theorem present_media (m : MediumRef) (l : Nat) : MediaWork ns s (s.present n m l) :=
  (putPort_media s _ hn).trans (raise_media _ _ _)

theorem insertFailed_media (b : Bool) : MediaWork ns s (s.insertFailed n b) :=
  (emptyMedium_media s hn _ _).trans (raise_media _ _ _)

theorem opened_media (r : ImageIx) (l : Nat) : MediaWork ns s (s.opened r l n) := by
  unfold State.opened
  split
  · split
    · split
      · exact insertFailed_media s hn _
      · exact present_media s hn _ _
    · exact .refl s
  · exact .refl s
  · exact .refl s
  · exact .refl s

theorem openFailed_media (r : ImageIx) : MediaWork ns s (s.openFailed r n) := by
  unfold State.openFailed
  split
  · split
    · exact insertFailed_media s hn _
    · exact .refl s
  · exact .refl s
  · exact .refl s
  · exact .refl s

theorem joinRecord_media (r : ImageIx) (x : ImageRec) (m : Medium) : MediaWork ns s (s.joinRecord n r x m) :=
  (putImage_media s r _).trans (putPort_media _ _ hn)

theorem insert_media (v : StationIx) (g : BitVec 32) (z : BlockSize) (w : Bool) : MediaWork ns s (s.insert n v g z w).1 := by
  simp only [State.insert]
  split
  · exact .refl s
  · split
    · exact .refl s
    · split
      · split
        · exact .refl s
        · split
          · exact .refl s
          · split
            · exact .refl s
            · split
              · exact joinRecord_media s hn _ _ _
              · exact (joinRecord_media s hn _ _ _).trans (present_media _ hn _ _)
      · split
        · exact .refl s
        · split
          · exact ((joinRecord_media s hn _ _ _).trans (putPool_work _ _).media).trans (sendOpen_media _ _)
          · exact (joinRecord_media s hn _ _ _).trans (putPool_work _ _).media
end

/-! ## What can reach every port: fills, failures, opens -/

/-- `MediaWork` on any ports. -/
abbrev AnyMediaWork : State → State → Prop := MediaWork fun _ => True

theorem countFailure_media (r : ImageIx) : AnyMediaWork s (s.countFailure r) := by
  simp only [State.countFailure]
  split
  · exact .refl s
  · split
    · exact (putImage_media s r _).trans
        (foldl_keeps MediaWork.refl MediaWork.trans _ (fun a _ _ => forceEjectLost_media a trivial) _)
    · exact putImage_media s r _

theorem clearFailures_media (r : ImageIx) : MediaWork ns s (s.clearFailures r) := by
  unfold State.clearFailures
  split
  · exact .refl s
  · exact putImage_media s r _

theorem endWrite_media (n : NodeId) (w : WriteOp) (ok : Bool) : AnyMediaWork s (s.endWrite n w ok) := by
  simp only [State.endWrite]
  split
  · exact ((putWrite_media s n _).trans (writeEnded_media _ trivial w _)).trans (clearFailures_media _ _)
  · exact ((putWrite_media s n _).trans (writeEnded_media _ trivial w _)).trans (countFailure_media _ _)

theorem completeFill_media (f : FetchIx) (l : Fetch) (x : ImageRec) (e : Extent) : AnyMediaWork s (s.completeFill f l x e) := by
  simp only [State.completeFill]
  split
  · exact (((putFetch_work s f _).media.trans (clearFailures_media _ _)).trans ((putPool_work _ _).media.trans
      (foldl_keeps MediaWork.refl MediaWork.trans _ (fun a _ _ => advanceRead_media a trivial) _))).trans
      ((putPool_work _ _).trans (tryNeeds_work _)).media
  · exact (((putFetch_work s f _).media.trans (clearFailures_media _ _)).trans ((putPool_work _ _).media.trans
      (foldl_keeps MediaWork.refl MediaWork.trans _ (fun a _ _ => filled_media a trivial l.target) _))).trans
      ((unpin_work _ _).trans (tryNeeds_work _)).media

theorem takeFragment_media (f : FetchIx) (l : Fetch) (x : ImageRec) (i : Nat) (d : List Byte) :
    AnyMediaWork s (s.takeFragment f l x i d) := by
  simp only [State.takeFragment]
  split
  · exact .refl s
  · split
    · exact .refl s
    · split
      · exact ((putFetch_work s f _).trans (putPool_work _ _)).media.trans (completeFill_media _ f l x _)
      · exact ((putFetch_work s f _).trans (putPool_work _ _)).media

theorem failFetch_media (f : FetchIx) (l : Fetch) : AnyMediaWork s (s.failFetch f l) := by
  simp only [State.failFetch]
  split
  · exact (dropFetch_work s f).media
  · exact (((dropFetch_work s f).media.trans (foldl_keeps MediaWork.refl MediaWork.trans _
      (fun a _ _ => fetchFailed_media a trivial) _)).trans ((putPool_work _ _).trans (tryNeeds_work _)).media).trans
      (countFailure_media _ _)

theorem takeOpen_media (r : ImageIx) (x : ImageRec) (h : BitVec 32) (l : Nat) : AnyMediaWork s (s.takeOpen r x h l) :=
  (putImage_media s r _).trans (foldl_keeps MediaWork.refl MediaWork.trans _ (fun a _ _ => opened_media a trivial r l) _)

theorem takeReply_media (i : StationIx) (k : ReplyKind) (b : List Byte) : AnyMediaWork s (s.takeReply i k b) := by
  have late : AnyMediaWork s s.countLate := putImages_media s _ rfl
  have foreign : AnyMediaWork s s.countForeign := putImages_media s _ rfl
  have bad : AnyMediaWork s s.countMalformed := putImages_media s _ rfl
  unfold State.takeReply
  split
  · exact bad
  · split
    · exact foreign
    · cases k with
      | openReply =>
        simp only [State.replyOpen]
        split
        · exact late
        · split
          · exact late
          · exact takeOpen_media s _ _ _ _
      | extentData =>
        simp only [State.replyExtent]
        repeat' split
        all_goals first | exact late | exact foreign | exact bad | exact takeFragment_media s _ _ _ _ _
      | writeReply =>
        simp only [State.replyWrite]
        repeat' split
        all_goals first | exact late | exact foreign | exact bad | exact endWrite_media s _ _ _

end Sys2Proof.Machine
end

