-- ==== Sys2Proof/Laws/Memory.lean ====
section
/-! SUPPORT. The laws of the configuration memory: reads after writes, and that every operation keeps its canonical form. -/
namespace Sys2Proof.Machine

/-! ## Reads after writes -/

theorem memRead_memCons (a k : Nat) (b : Byte) (m : List Host.Cell) (h : memRead m a = erased) :
    memRead (memCons a b m) k = if k = a then b else memRead m k := by
  unfold memCons
  split
  · next hb => by_cases hk : k = a <;> simp [hk, h, hb]
  · by_cases hk : k = a
    · simp [memRead, hk]
    · simp [memRead, hk, Ne.symm hk]

/-- The canonical form: addresses rise from above `lo`, and no cell holds what an unlisted address reads as. -/
def memRising : Nat → List Host.Cell → Prop
  | _, [] => True
  | lo, (a, b) :: m => lo ≤ a ∧ a < 65536 ∧ b ≠ erased ∧ memRising (a + 1) m

theorem memRising.mono {m : List Host.Cell} {lo hi : Nat} (h : memRising hi m) (hl : lo ≤ hi) : memRising lo m := by
  cases m with
  | nil => trivial
  | cons c m => obtain ⟨a, b⟩ := c; exact ⟨Nat.le_trans hl h.1, h.2⟩

theorem memWf_iff (m : List Host.Cell) : memWf m = true ↔ memRising 0 m := by
  have key : ∀ (m : List Host.Cell) (a : Nat) (b : Byte), memWf ((a, b) :: m) = true ↔ memRising a ((a, b) :: m) := by
    intro m
    induction m with
    | nil => intro a b; simp [memWf, memRising]
    | cons c m ih =>
      intro a b
      obtain ⟨x, y⟩ := c
      have h := ih x y
      simp only [memWf, Bool.and_eq_true, decide_eq_true_eq] at h ⊢
      rw [h]
      simp only [memRising]
      constructor
      · rintro ⟨⟨h1, h2⟩, -, h3⟩; exact ⟨Nat.le_refl _, by omega, h2, h1, h3⟩
      · rintro ⟨-, h1, h2, h3, h4⟩; exact ⟨⟨h3, h2⟩, Nat.le_refl _, h4⟩
  cases m with
  | nil => simp [memWf, memRising]
  | cons c m =>
    obtain ⟨a, b⟩ := c
    rw [key m a b]
    simp [memRising]

theorem memRead_below {m : List Host.Cell} {lo k : Nat} (h : memRising lo m) (hk : k < lo) : memRead m k = erased := by
  induction m generalizing lo with
  | nil => rfl
  | cons c m ih =>
    obtain ⟨a, b⟩ := c
    have : a ≠ k := by have := h.1; omega
    simp only [memRead, this, if_false]
    exact ih h.2.2.2 (by have := h.1; omega)

theorem memRising_memCons {m : List Host.Cell} {lo a : Nat} {b : Byte} (h : memRising (a + 1) m) (hl : lo ≤ a) (ha : a < 65536) :
    memRising lo (memCons a b m) := by
  unfold memCons
  split
  · exact h.mono (by omega)
  · next hb => exact ⟨hl, ha, hb, h⟩

theorem memRising_memWrite {m : List Host.Cell} {lo a : Nat} {b : Byte} (h : memRising lo m) (hl : lo ≤ a) (ha : a < 65536) :
    memRising lo (memWrite m a b) := by
  induction m generalizing lo with
  | nil => exact memRising_memCons (m := []) trivial hl ha
  | cons c m ih =>
    obtain ⟨k, x⟩ := c
    unfold memWrite
    split
    · next hk => exact ⟨h.1, h.2.1, h.2.2.1, ih h.2.2.2 (by omega)⟩
    · split
      · next hk => subst hk; exact memRising_memCons h.2.2.2 hl ha
      · exact memRising_memCons ⟨by omega, h.2⟩ hl ha

/-- A read after a write: the byte written, and every other byte as before. -/
theorem memRead_memWrite {m : List Host.Cell} (h : memWf m = true) (a k : Nat) (b : Byte) :
    memRead (memWrite m a b) k = if k = a then b else memRead m k := by
  have key : ∀ lo, memRising lo m → memRead (memWrite m a b) k = if k = a then b else memRead m k := by
    induction m with
    | nil => intro lo _; exact memRead_memCons a k b [] rfl
    | cons c m ih =>
      intro lo hm
      obtain ⟨x, y⟩ := c
      have ih' := ih ((memWf_iff m).mpr (hm.2.2.2.mono (Nat.zero_le _))) (x + 1) hm.2.2.2
      unfold memWrite
      split
      · next hx =>
        simp only [memRead, ih']
        by_cases e : x = k
        · simp [e, show k ≠ a by omega]
        · simp [e]
      · split
        · next hx =>
          subst hx
          rw [memRead_memCons x k b m (memRead_below hm.2.2.2 (Nat.lt_succ_self x))]
          by_cases e : k = x
          · simp [e]
          · simp [memRead, e, Ne.symm e]
        · next h1 h2 =>
          have hr : memRising x ((x, y) :: m) := ⟨Nat.le_refl _, hm.2⟩
          exact memRead_memCons a k b _ (memRead_below hr (by omega))
  exact key 0 ((memWf_iff m).mp h)

/-! ## The canonical form is kept -/

theorem memWf_memWrite {m : List Host.Cell} {a : Nat} {b : Byte} (h : memWf m = true) (ha : a < 65536) :
    memWf (memWrite m a b) = true := (memWf_iff _).mpr (memRising_memWrite ((memWf_iff m).mp h) (Nat.zero_le _) ha)

theorem memWf_memWriteAll {m : List Host.Cell} (h : memWf m = true) (a : Nat) (bs : List Byte) :
    memWf (memWriteAll m a bs) = true := by
  induction bs generalizing m a with
  | nil => exact h
  | cons b bs ih =>
    unfold memWriteAll
    split
    · next ha => exact ih (memWf_memWrite h ha) _
    · exact ih h _

/-- Bytes outside those written read as before. -/
theorem memRead_memWriteAll_outside {m : List Host.Cell} (h : memWf m = true) (a k : Nat) (bs : List Byte)
    (hk : k < a ∨ a + bs.length ≤ k) : memRead (memWriteAll m a bs) k = memRead m k := by
  induction bs generalizing m a with
  | nil => rfl
  | cons b bs ih =>
    simp only [List.length_cons] at hk
    unfold memWriteAll
    split
    · next ha =>
      rw [ih (memWf_memWrite h ha) (a + 1) (by omega), memRead_memWrite h]
      simp [show k ≠ a by omega]
    · exact ih h (a + 1) (by omega)

/-- Byte `j` of those written reads as written. -/
theorem memRead_memWriteAll {m : List Host.Cell} (h : memWf m = true) (a j : Nat) (bs : List Byte) (hj : j < bs.length)
    (ha : a + j < 65536) : memRead (memWriteAll m a bs) (a + j) = bs[j] := by
  induction bs generalizing m a j with
  | nil => cases hj
  | cons b bs ih =>
    unfold memWriteAll
    rw [if_pos (show a < 65536 by omega)]
    cases j with
    | zero =>
      rw [memRead_memWriteAll_outside (memWf_memWrite h (by omega)) (a + 1) (a + 0) bs (by omega), memRead_memWrite h]
      simp
    | succ j =>
      have := ih (memWf_memWrite (a := a) (b := b) h (by omega)) (a + 1) j (by simpa using hj) (by omega)
      rw [show a + (j + 1) = a + 1 + j by omega, this]
      rfl

variable (s : State)

theorem commitPage_memWf (l : List Byte) (p : SaveStep) (h : memWf s.config = true) : memWf (s.commitPage l p).config = true :=
  memWf_memWriteAll h _ _

theorem spoilPage_memWf (p : SaveStep) (h : memWf s.config = true) : memWf (s.spoilPage p).config = true :=
  memWf_memWriteAll h _ _

theorem reset_memWf : memWf State.reset.config = true := rfl

end Sys2Proof.Machine
end

