-- ==== Sys2Proof/Laws/Sequencer.lean ====
section
/-! SUPPORT. What one node's blocks can change together: its line, stream, matcher counters, power record, boot watch and port
(chapters 2 to 6), said once for each operation by one relation. -/
namespace Sys2Proof.Machine

/-- What the operations on node `n` can make of a state: the node's own line, stream, power record, boot watch and port, the
Pattern Matcher, the Image Fetch Unit, the pool with the chains' histories, the pending sets, and frames that join the transmit
queue. -/
def NodeWork (n : NodeId) (s t : State) : Prop :=
  ∃ (ln : Line) (st : Tab Stream 8) (pw : Power) (wt : Watch) (pt : MediaPort) (m : Matcher) (p : Pool) (im : ImageUnit)
    (q : List TxFrame) (nt : Notices),
    t = { s with
      lines := s.lines.put n ln, streams := st, power := s.power.put n pw, watches := s.watches.put n wt,
      ports := s.ports.put n pt, matcher := { s.matcher with progress := m.progress, lineStart := m.lineStart },
      pool := p, images := im, up := { s.up with queue := s.up.queue ++ q }, notices := nt } ∧
    (∀ k, k ≠ n → ∃ c a r, st.get k = (s.streams.get k).withHistory c a r) ∧
    (∀ k, k ≠ n → m.progress.get k = s.matcher.progress.get k ∧ m.lineStart.get k = s.matcher.lineStart.get k) ∧
    im.timeout = s.images.timeout ∧ nt.gapMs = s.notices.gapMs

variable {n : NodeId} {s t u : State}

theorem NodeWork.trans (h : NodeWork n s t) (k : NodeWork n t u) : NodeWork n s u := by
  obtain ⟨ln, st, pw, wt, pt, m, p, im, q, nt, e, hs, hm, ht, hg⟩ := h
  obtain ⟨ln', st', pw', wt', pt', m', p', im', q', nt', e', hs', hm', ht', hg'⟩ := k
  subst e
  refine ⟨ln', st', pw', wt', pt', m', p', im', q ++ q', nt', by rw [e']; simp, fun k hk => ?_, fun k hk => ?_, ht'.trans ht,
    hg'.trans hg⟩
  · obtain ⟨x, y, z, h⟩ := hs k hk
    obtain ⟨x', y', z', h'⟩ := hs' k hk
    exact ⟨x', y', z', by rw [h']; simp [h]⟩
  · exact ⟨(hm' k hk).1.trans (hm k hk).1, (hm' k hk).2.trans (hm k hk).2⟩

theorem MediaWork.node (h : MediaWork (· = n) s t) : NodeWork n s t := by
  obtain ⟨st, p, im, q, pt, nt, e, hs, hp, ht, hg⟩ := h
  have hpt : pt = s.ports.put n (pt.get n) := by
    apply Tab.ext; intro k; by_cases h : k = n
    · subst h; simp
    · simp [h, hp k h]
  exact ⟨s.lines.get n, st, s.power.get n, s.watches.get n, pt.get n, s.matcher, p, im, q, nt, by rw [e, ← hpt]; simp,
    fun k _ => hs k, fun _ _ => ⟨rfl, rfl⟩, ht, hg⟩

theorem NodeWork.refl (s : State) : NodeWork n s s := (MediaWork.refl s).node

variable (s)

/-! ## Single changes -/

theorem putLine_node (x : Line) : NodeWork n s (s.putLine n x) :=
  ⟨x, s.streams, s.power.get n, s.watches.get n, s.ports.get n, s.matcher, s.pool, s.images, [], s.notices,
    by simp [State.putLine], fun k _ => histories_refl s k, fun _ _ => ⟨rfl, rfl⟩, rfl, rfl⟩

theorem putStream_node (x : Stream) : NodeWork n s (s.putStream n x) :=
  ⟨s.lines.get n, s.streams.put n x, s.power.get n, s.watches.get n, s.ports.get n, s.matcher, s.pool, s.images, [], s.notices,
    by simp [State.putStream], fun k hk => by rw [Tab.get_put_ne _ _ hk]; exact histories_refl s k, fun _ _ => ⟨rfl, rfl⟩, rfl,
    rfl⟩

theorem putPower_node (x : Power) : NodeWork n s (s.putPower n x) :=
  ⟨s.lines.get n, s.streams, x, s.watches.get n, s.ports.get n, s.matcher, s.pool, s.images, [], s.notices,
    by simp [State.putPower], fun k _ => histories_refl s k, fun _ _ => ⟨rfl, rfl⟩, rfl, rfl⟩

theorem putWatch_node (x : Watch) : NodeWork n s (s.putWatch n x) :=
  ⟨s.lines.get n, s.streams, s.power.get n, x, s.ports.get n, s.matcher, s.pool, s.images, [], s.notices,
    by simp [State.putWatch], fun k _ => histories_refl s k, fun _ _ => ⟨rfl, rfl⟩, rfl, rfl⟩

theorem putPort_node (x : MediaPort) : NodeWork n s (s.putPort n x) := (putPort_media (ns := (· = n)) s x rfl).node

theorem enqueueAll_node (fs : List TxFrame) : NodeWork n s (s.enqueueAll fs) :=
  ⟨s.lines.get n, s.streams, s.power.get n, s.watches.get n, s.ports.get n, s.matcher, s.pool, s.images, fs, s.notices,
    by simp [State.enqueueAll], fun k _ => histories_refl s k, fun _ _ => ⟨rfl, rfl⟩, rfl, rfl⟩

theorem raise_node (id : SetId) (e : Event) : NodeWork n s (s.raise id e) := (raise_media s id e).node

/-- What an entry does to the matcher concerns its node alone and leaves the table (R75, R76). -/
theorem Matcher.take_eq (m : Matcher) (n : NodeId) (e : Entry) :
    (m.take n e).table = m.table ∧
      ∀ k, k ≠ n → (m.take n e).progress.get k = m.progress.get k ∧ (m.take n e).lineStart.get k = m.lineStart.get k := by
  have clear (x : Matcher) (b : Bool) : (x.clear n b).table = x.table ∧
      ∀ k, k ≠ n → (x.clear n b).progress.get k = x.progress.get k ∧ (x.clear n b).lineStart.get k = x.lineStart.get k :=
    ⟨rfl, fun k hk => ⟨by simp [Matcher.clear, hk], by simp [Matcher.clear, hk]⟩⟩
  have char (x : Matcher) (c : Byte) : (x.char n c).table = x.table ∧
      ∀ k, k ≠ n → (x.char n c).progress.get k = x.progress.get k ∧ (x.char n c).lineStart.get k = x.lineStart.get k :=
    ⟨rfl, fun k hk => ⟨by simp [Matcher.char, hk], by simp [Matcher.char, hk]⟩⟩
  have own (x : Matcher) (k : EntryKind) : (x.own n k).table = x.table ∧
      ∀ j, j ≠ n → (x.own n k).progress.get j = x.progress.get j ∧ (x.own n k).lineStart.get j = x.lineStart.get j := by
    unfold Matcher.own
    repeat' split
    all_goals first | exact clear x _ | exact char x _
  have lost : (m.overrun n e).table = m.table ∧
      ∀ k, k ≠ n → (m.overrun n e).progress.get k = m.progress.get k ∧ (m.overrun n e).lineStart.get k = m.lineStart.get k := by
    unfold Matcher.overrun
    split
    · exact clear m _
    · exact ⟨rfl, fun _ _ => ⟨rfl, rfl⟩⟩
  have h := own (m.overrun n e) e.kind
  exact ⟨h.1.trans lost.1, fun k hk => ⟨(h.2 k hk).1.trans (lost.2 k hk).1, (h.2 k hk).2.trans (lost.2 k hk).2⟩⟩

theorem putMatcher_node (m : Matcher) (ht : m.table = s.matcher.table)
    (h : ∀ k, k ≠ n → m.progress.get k = s.matcher.progress.get k ∧ m.lineStart.get k = s.matcher.lineStart.get k) :
    NodeWork n s (s.putMatcher m) :=
  ⟨s.lines.get n, s.streams, s.power.get n, s.watches.get n, s.ports.get n, m, s.pool, s.images, [], s.notices,
    by simp [State.putMatcher, ← ht], fun k _ => histories_refl s k, h, rfl, rfl⟩

/-! ## Offers and attachments -/

theorem offer_node (k : EntryKind) : NodeWork n s (s.offer n k) := by
  obtain ⟨fs, u, h, -, -⟩ := s.offer_eq n k
  rw [h]; exact (enqueueAll_node s fs).trans (putStream_node _ u)

theorem offer_matcher (k : EntryKind) : (s.offer n k).matcher = s.matcher := by
  obtain ⟨fs, u, h, -, -⟩ := s.offer_eq n k
  rw [h]; rfl

theorem offerMatched_node (k : EntryKind) : NodeWork n s (s.offerMatched n k) := by
  simp only [State.offerMatched]
  split
  · refine (offer_node s k).trans (putMatcher_node _ _ ?_ ?_)
    · rw [offer_matcher]; exact (Matcher.take_eq _ _ _).1
    · intro j hj; rw [offer_matcher]; exact (Matcher.take_eq _ _ _).2 j hj
  · exact offer_node s k

theorem offerMark_node (m : Mark) : NodeWork n s (s.offerMark n m) := offerMatched_node s _

theorem testBatch_node : NodeWork n s (s.testBatch n) := by
  obtain ⟨fs, d, b, c, a, r, h, -⟩ := s.testBatch_eq n
  rw [h]; exact (enqueueAll_node s fs).trans (putStream_node _ _)

theorem detach_node (i : StationIx) : NodeWork n s (s.detach n i) := by
  obtain ⟨fs, u, h, -, -⟩ := s.detach_eq n i
  rw [h]; exact (enqueueAll_node s fs).trans (putStream_node _ u)

theorem renewLease_node (i : StationIx) : NodeWork n s (s.renewLease n i) := by
  obtain ⟨as, h⟩ := s.renewLease_eq n i
  rw [h]; exact putStream_node s _

theorem sendItems_node (xs : List TxItem) : NodeWork n s (s.sendItems n xs) := by
  obtain ⟨q, t, h⟩ := s.sendItems_eq n xs
  rw [h]; exact putLine_node s _

theorem releaseByte_node (b : Byte) : NodeWork n s (s.releaseByte n b) := by
  obtain ⟨q, t, h⟩ := s.releaseByte_eq n b
  rw [h]; exact putLine_node s _

/-! ## Power states and actions (R88 to R97) -/

theorem rebootMark_node : NodeWork n s (s.rebootMark n) := by
  refine (offerMark_node s .reboot).trans ((putLine_node _ _).trans (putMatcher_node _ _ rfl fun k hk => ⟨?_, ?_⟩))
  · simp [Matcher.rebootOrder, Matcher.clear, hk]
  · simp [Matcher.rebootOrder, Matcher.clear, hk]

theorem deny_node : NodeWork n s (s.deny n) :=
  ((putPower_node s _).trans (putPort_node _ _)).trans (portUpdate_media (ns := (· = n)) _ rfl).node

theorem startReattach_node (b : Bool) : NodeWork n s (s.startReattach n b) := by
  unfold State.startReattach
  split
  · exact .refl s
  · exact putPower_node s _

theorem grantPort_node : NodeWork n s (s.grantPort n) :=
  ((putPower_node s _).trans (putPort_node _ _)).trans (portUpdate_media (ns := (· = n)) _ rfl).node

theorem stopWatch_node : NodeWork n s (s.stopWatch n) := putWatch_node s _

theorem enterOn_node (ev : PowerEvent) (mark keep : Bool) : NodeWork n s (s.enterOn n ev mark keep) := by
  have rest (b : State) (p : Power) : NodeWork n b
      (if entryStarts p.state ((b.startReattach n (keep && p.toMedia)).wt n).localStart p.action then
        (b.startReattach n (keep && p.toMedia)).putWatch n
          (((b.startReattach n (keep && p.toMedia)).wt n).start (b.startReattach n (keep && p.toMedia)).ms)
      else b.startReattach n (keep && p.toMedia)) := by
    split
    · exact (startReattach_node b _).trans (putWatch_node _ _)
    · exact startReattach_node b _
  have head : NodeWork n s ((s.putPower n { s.pw n with
      state := .on, action := none, phase := none, tick := none, button := false, reset := false }).raise (some n)
        (.power ev .on (s.pw n).action)) := (putPower_node s _).trans (raise_node _ _ _)
  simp only [State.enterOn]
  cases mark with
  | true => exact head.trans ((rebootMark_node _).trans (rest _ (s.pw n)))
  | false => exact head.trans (rest _ (s.pw n))

theorem enterOff_node (ev : PowerEvent) (a : Option Action) : NodeWork n s (s.enterOff n ev a) :=
  ((putPower_node s _).trans (raise_node _ _ _)).trans ((deny_node _).trans (stopWatch_node _))

theorem beginStarting_node (a : Option Action) : NodeWork n s (s.beginStarting n a) := putPower_node s _

theorem beginHardStop_node (a : Option Action) : NodeWork n s (s.beginHardStop n a) := (putPower_node s _).trans (deny_node _)

theorem preempt_node (a : Action) : NodeWork n s (s.preempt n a) := by
  simp only [State.preempt]
  split
  · split
    · exact (putPower_node s _).trans (deny_node _)
    · exact beginHardStop_node s _
  · exact enterOff_node s _ _

theorem beginAction_node (a : Action) : NodeWork n s (s.beginAction n a) := by
  unfold State.beginAction
  split
  · exact beginStarting_node s _
  · exact putPower_node s _
  · exact beginHardStop_node s _
  · exact (rebootMark_node s).trans ((putPower_node _ _).trans (deny_node _))
  · exact (rebootMark_node s).trans (beginHardStop_node _ _)

theorem tellTaken_node (a : Action) : NodeWork n s (s.tellTaken n a) := by
  unfold State.tellTaken
  split
  · exact .refl s
  · exact stopWatch_node s

theorem offerAction_node (a : Action) : NodeWork n s (s.offerAction n a).1 := by
  unfold State.offerAction
  split
  · split
    · exact .refl s
    · exact (tellTaken_node s a).trans (beginAction_node _ a)
  · exact (tellTaken_node s a).trans (preempt_node _ a)
  · exact .refl s

theorem filterDelivers_node : NodeWork n s (s.filterDelivers n) := by
  have acquired (b : State) (l : Filtered) : NodeWork n b (b.acquired n l) := by
    unfold State.acquired
    repeat' split
    all_goals first | exact enterOn_node _ _ _ _ | exact enterOff_node _ _ _ | exact .refl _
  have rise (b : State) : NodeWork n b (b.filteredRise n) := by
    unfold State.filteredRise
    split
    all_goals first | exact enterOn_node _ _ _ _ | exact .refl _
  have fall (b : State) : NodeWork n b (b.filteredFall n) := by
    unfold State.filteredFall
    repeat' split
    all_goals first | exact enterOff_node _ _ _ | exact putPower_node _ _ | exact .refl _
  simp only [State.filterDelivers]
  split
  · exact (putPower_node s _).trans (acquired _ _)
  · split
    · exact (putPower_node s _).trans (rise _)
    · exact (putPower_node s _).trans (fall _)

/-! ## The boot watch (R111 to R114) -/

theorem satisfy_node (src : BootSource) : NodeWork n s (s.satisfy n src) := (putWatch_node s _).trans (raise_node _ _ _)

theorem holdWatch_node (k : Nat) (c : FailCause) : NodeWork n s (s.holdWatch n k c) :=
  ((putWatch_node s _).trans (raise_node _ _ _)).trans (raise_node _ _ _)

theorem fail_node (c : FailCause) : NodeWork n s (s.fail n c) := by
  simp only [State.fail]
  split
  · exact (putWatch_node s _).trans (raise_node _ _ _)
  · split
    · exact holdWatch_node s _ _
    · split
      · exact holdWatch_node s _ _
      · exact ((putWatch_node s _).trans (offerAction_node _ _)).trans (raise_node _ _ _)

theorem patternAction_node (o : Offset) (x : PatternAction) (i : PatternIx) : NodeWork n s (s.patternAction n o x i) := by
  unfold State.patternAction
  split
  · exact raise_node s _ _
  · unfold State.bootSeen
    split
    · exact satisfy_node s _
    · exact .refl s
  · split
    · unfold State.faultReport
      split
      · exact fail_node s _
      · exact raise_node s _ _
    · exact raise_node s _ _
  · exact (patternEject_media (ns := (· = n)) s rfl i).node

theorem patternActions_node (o : Offset) (l : List PatternIx) : NodeWork n s (s.patternActions n o l) := by
  refine foldl_keeps NodeWork.refl NodeWork.trans _ (fun a i _ => ?_) s
  split
  · exact patternAction_node a o _ i
  · exact .refl a

/-! ## The line (R29 to R37) -/

theorem switchRate_node : NodeWork n s (s.switchRate n) := by
  have endHunt (b : State) : NodeWork n b (b.endHunt n) :=
    ((putLine_node b _).trans (offerMark_node _ _)).trans (raise_node _ _ _)
  simp only [State.switchRate]
  repeat' split
  all_goals first
    | exact endHunt s
    | exact (putLine_node s _).trans (offerMark_node _ _)
    | exact ((putLine_node s _).trans (offerMark_node _ _)).trans (raise_node _ _ _)

theorem judge_node (f : Bool) : NodeWork n s (s.judge n f) := by
  have clean (b : State) : NodeWork n b (b.cleanRun n) := by
    simp only [State.cleanRun]
    repeat' split
    · exact .refl b
    · exact putLine_node b _
    · exact (putLine_node b _).trans (raise_node _ _ _)
  simp only [State.judge]
  split
  · split
    · exact putLine_node s _
    · split
      · exact (putLine_node s _).trans (raise_node _ _ _)
      · exact switchRate_node s
  · exact (putLine_node s _).trans (clean _)

/-- What a framed character can change (R29, R32, R33, R77). -/
theorem handChar_node (k : EntryKind) : NodeWork n s (s.handChar n k) := by
  simp only [State.handChar]
  split
  · exact putLine_node s _
  · exact ((offerMatched_node s k).trans (patternActions_node _ _ _)).trans (judge_node _ _)

/-! ## Console input (R62 to R64) -/

theorem setEscape_node (i : StationIx) (e : Option Nat) : NodeWork n s (s.setEscape i n e) := by
  unfold State.setEscape
  split
  · exact putStream_node s _
  · exact .refl s

theorem escapeAction_node (i : StationIx) (k : ActionKind) : NodeWork n s (s.escapeAction i n k).state := by
  simp only [State.escapeAction]
  split
  · exact .refl s
  · exact offerAction_node s _

theorem typeByte_node (i : StationIx) (b : Byte) (r : Typed) (h : s.typeByte i n b = some r) : NodeWork n s r.state := by
  have cmd (r : Typed) (h : s.typeCommand i n b = some r) : NodeWork n s r.state := by
    simp only [State.typeCommand] at h
    repeat' split at h
    all_goals first | (cases h; done) | (simp only [Option.some.injEq] at h; subst h)
    · exact (setEscape_node s i none).trans (sendItems_node _ _)
    · exact (setEscape_node s i none).trans (sendItems_node _ _)
    · exact (setEscape_node s i none).trans (escapeAction_node _ _ _)
    · exact (setEscape_node s i none).trans (escapeAction_node _ _ _)
    · exact (setEscape_node s i none).trans (detach_node _ _)
    · exact (setEscape_node s i none).trans (sendItems_node _ _)
  simp only [State.typeByte] at h
  split at h
  · cases h
  · split at h
    · exact cmd r h
    · split at h
      · simp only [Option.some.injEq] at h; subst h; exact setEscape_node s i _
      · split at h
        · simp only [Option.some.injEq] at h; subst h; exact sendItems_node s _
        · cases h

/-- What the bytes of a message can change (R62). -/
theorem typeBytes_node (i : StationIx) (k : Nat) (e : EscapeResult) (b : List Byte) :
    NodeWork n s (s.typeBytes i n k e b).state := by
  induction b generalizing s k e with
  | nil => exact .refl s
  | cons x xs ih =>
    unfold State.typeBytes
    split
    · exact .refl s
    · next r h =>
      split
      · exact typeByte_node s i x r h
      · exact (typeByte_node s i x r h).trans (ih _ _ _)

end Sys2Proof.Machine
end

