-- ==== Sys2Proof/Tests/Slice0.lean ====
section
/-! SUPPORT. Tests of the model against the manual's worked cases, a refused term for each check of WellFormed, and for each
statement with hypotheses a concrete state and operands that meet them. -/
namespace Sys2Proof.Tests
open Sys2Proof.Machine
set_option Elab.async false

/-! ## A small state -/

/-- The operator's address. -/
def op : MacAddr := 0x020000000001

/-- A tenant's address. -/
def guest : MacAddr := 0x020000000002

/-- A commissioned part: station 0 an OPERATOR, station 1 a TENANT of every node with every right, the link UP. -/
def demo : State := { State.reset with
  porn := true
  su := { resetSteering with
    stations := ((Tab.fill 32 Station.empty).put 0 (.operator op)).put 1 (.tenant guest 1 0xFF 0x3F)
    tenants := Tab.fill 8 1, commissioning := .commissioned }
  up := { resetUplink 0 true with macEnabled := true }
  loader := ⟨.idle, 0, 0, 0⟩ }

/-- The head of a frame to the part. -/
def head (src : MacAddr) (node : Byte) (len : Nat) : Head :=
  ⟨demo.up.addr, src, none, 0x88B6, 1, node, 0, 7, BitVec.ofNat 16 len⟩

/-- The state a command leaves. -/
def after (c : Instr) (s : State) : State :=
  match exec c s with
  | .next t => t
  | .fault _ => s
  | .refused _ => s

/-- The result code of the answer in the port or the queue. -/
def resultOf (s : State) : Option Byte := (s.up.frames.find? (fun f => f.cls = .answer)).map TxFrame.result

/-- The body of that answer. -/
def answerOf (s : State) : List Byte := ((s.up.frames.find? (fun f => f.cls = .answer)).map TxFrame.body).getD []

/-! ## WellFormed refuses what no arrival is -/

theorem test_wf_plain_too_long : (Instr.statusRead (head op 0 0) (List.replicate 1493 0)).wellFormed = false := by decide +kernel
theorem test_wf_coded_no_code : (Instr.tableWriteStation (head op 15 0) []).wellFormed = false := by decide +kernel
theorem test_wf_coded_too_long : (Instr.powerOn (head op 0 2) (List.replicate 1492 0)).wellFormed = false := by decide +kernel
theorem test_wf_kind_claimed : (Instr.undefinedKind (head op 0 1) 0x04 [0]).wellFormed = false := by decide +kernel
theorem test_wf_reply_claimed : (Instr.undefinedKind (head op 15 3) 0x22 [0, 0, 0]).wellFormed = false := by decide +kernel
theorem test_wf_section_claimed : (Instr.undefinedKind (head op 0 2) 0x03 [0x03, 0]).wellFormed = false := by decide +kernel
theorem test_wf_action_claimed : (Instr.undefinedKind (head op 0 2) 0x09 [0x04, 0]).wellFormed = false := by decide +kernel
theorem test_wf_raw_too_long :
    (Instr.frameDropped ⟨op, op, none, 0x88B6, List.replicate 1501 0⟩).wellFormed = false := by decide +kernel
theorem test_wf_poll_without_room : (Instr.dataPoll 0 0).wellFormed = false := by decide +kernel
theorem test_wf_no_write_data : (Instr.writeDataReceived 0 []).wellFormed = false := by decide +kernel
theorem test_wf_accepts : (Instr.undefinedKind (head op 0 1) 0x09 [0x05]).wellFormed = true ∧
    (Instr.attach (head op 0 1) [1]).wellFormed = true := by decide +kernel

/-! ## Decoding: no row gives bits -/

theorem test_no_row_has_bits : decodeTableWord 0 0 = none ∧ decodeTableWord 16 0xFFFF = none := by decide +kernel

/-! ## Worked rate cases (chapter 2) -/

/-- D, A, deviation and character time of a rate and framing. -/
def rateCase (r : Nat) (f : Framing) : Nat × Nat × Nat × Nat := (divisor r, achieved r, deviation r, charTime f r)

theorem test_rate_115200 : rateCase 115200 ⟨8, .none, 1⟩ = (16, 115200, 0, 87) := by decide +kernel
theorem test_rate_9600 : rateCase 9600 ⟨8, .none, 1⟩ = (192, 9600, 0, 1042) := by decide +kernel
theorem test_rate_38400 : rateCase 38400 ⟨8, .none, 1⟩ = (48, 38400, 0, 261) := by decide +kernel
theorem test_rate_300000 : rateCase 300000 ⟨8, .none, 1⟩ = (6, 307200, 24, 33) := by decide +kernel
theorem test_rate_250000 : rateCase 250000 ⟨7, .even, 2⟩ = (7, 263314, 53, 42) := by decide +kernel
theorem test_rate_1000000 : rateCase 1000000 ⟨8, .none, 1⟩ = (2, 921600, 78, 11) := by decide +kernel
theorem test_rate_1843200 : rateCase 1843200 ⟨5, .none, 1⟩ = (1, 1843200, 0, 4) := by decide +kernel
theorem test_rate_50 : rateCase 50 ⟨8, .even, 2⟩ = (36864, 50, 0, 240000) := by decide +kernel

/-! ## Worked rights (1.7) -/

/-- The part of the worked example of 1.7, with rights WATCH 1, TYPE 2, POWER 4, MEDIA 8, SERVE 16, NOTIFY 32. -/
def rightsPart : State := { demo with su := { demo.su with
  stations := (((((Tab.fill 32 Station.empty).put 0 (.operator op)).put 3 (.tenant 3 4 0x0F 0x27)).put 5 (.tenant 5 4 0x00 0x10)).put 9
    (.tenant 9 7 0xFF 0x09))
  tenants := ((((Tab.fill 8 4).put 4 7).put 5 7).put 6 0) } }

theorem test_rights_attach : resultOf (after (.attach (head 3 2 1) [1]) rightsPart) = some Result.ok.code := by decide +kernel
theorem test_rights_power_outside_mask :
    resultOf (after (.powerOn (head 3 7 2) [0]) rightsPart) = some Result.notPermitted.code := by decide +kernel
theorem test_rights_no_media :
    resultOf (after (.mediaInsert (head 3 1 8) [5, 0, 0, 0, 1, 2, 0, 0]) rightsPart) = some Result.notPermitted.code := by decide +kernel
theorem test_rights_save_no_admin : resultOf (after (.save (head 3 15 0) []) rightsPart) = some Result.notPermitted.code := by decide +kernel
theorem test_rights_save_names_node : resultOf (after (.save (head 3 2 0) []) rightsPart) = some Result.badRequest.code := by decide +kernel
theorem test_rights_serve : rightsPart.mayServe 5 1 = true ∧ rightsPart.mayServe 5 4 = false ∧ rightsPart.mayServe 9 4 = false := by
  decide +kernel

/-! ## Hypotheses, checked -/

/-- The check of `Arrives`. -/
def arrivesB (s : State) (c : Instr) (h : Head) (kind : Byte) (body : List Byte) : Bool :=
  s.porn && s.up.macEnabled && (match frameOf c with
    | some (h', k', bytes) => decide (h' = h) && decide (k' = kind) && decide (s.dropCause (headView h kind bytes) = none)
      && decide (bytes.take h.len.toNat = body)
    | none => false)

theorem arrives {s : State} {c : Instr} {h : Head} {kind : Byte} {body : List Byte} (hb : arrivesB s c h kind body = true) :
    Arrives s c h kind body := by
  unfold arrivesB at hb
  simp only [Bool.and_eq_true] at hb
  obtain ⟨⟨hp, hm⟩, hf⟩ := hb
  split at hf
  · rename_i h' k' bytes heq
    simp only [Bool.and_eq_true, decide_eq_true_eq] at hf
    obtain ⟨⟨⟨rfl, rfl⟩, hd⟩, hk⟩ := hf
    exact ⟨hp, hm, bytes, heq, hd, hk⟩
  · cases hf

theorem takes {s : State} {c : Instr} {h : Head} {kind : Byte} {body : List Byte} {i : StationIx}
    (hb : (arrivesB s c h kind body && decide (s.su.commissioning = .commissioned) && decide (s.findStation h.src = some i)) = true) :
    Takes s c h kind body i := by
  simp only [Bool.and_eq_true, decide_eq_true_eq] at hb
  exact ⟨arrives hb.1.1, hb.1.2, hb.2⟩

theorem owned {s : State} {c : Instr} {h : Head} {kind : Byte} {body : List Byte} {i : StationIx} {k : RequestKind} {p : SetId}
    (hb : (arrivesB s c h kind body && decide (s.su.commissioning = .commissioned) && decide (s.findStation h.src = some i)
      && decide (kindClass kind = .request k) && decide (wellFormedFor k h.node body = some p) && s.permitted i k p body) = true) :
    Owned s c h kind body i k p := by
  simp only [Bool.and_eq_true, decide_eq_true_eq] at hb
  exact ⟨⟨arrives hb.1.1.1.1.1, hb.1.1.1.1.2, hb.1.1.1.2⟩, hb.1.1.2, hb.1.2, hb.2⟩

/-- The check of `ImageLaw` on a part whose records serve one node each or stand for different images. -/
def imageLawB (s : State) : Bool :=
  allNodes.all (fun r => match s.image r with
    | some x => allNodes.all (fun n => x.users.getLsbD n.val == (match (s.port n).medium.ref? with
        | some m => decide (m.image = r)
        | none => false)) &&
      (!x.writable || allNodes.all (fun n => allNodes.all (fun k => !x.users.getLsbD n.val || !x.users.getLsbD k.val || n == k))) &&
      allNodes.all (fun q => match s.image q with
        | some y => r == q || x.server != y.server || x.image != y.image
        | none => true)
    | none => true) &&
  allNodes.all (fun n => match (s.port n).medium.ref? with
    | some m => (s.image m.image).isSome
    | none => true)

theorem mem_allNodes (n : NodeId) : n ∈ allNodes := by
  revert n; decide

theorem imageLaw {s : State} (hb : imageLawB s = true) : ImageLaw s := by
  unfold imageLawB at hb
  simp only [Bool.and_eq_true, List.all_eq_true] at hb
  obtain ⟨hr, hn⟩ := hb
  refine ⟨fun r x hx n => ?_, fun n m hm => ?_, fun r q x y hx hy hs hi => ?_, fun r x hx hw n k h1 h2 => ?_⟩
  · have h := hr r (mem_allNodes r)
    rw [hx] at h
    simp only [Bool.and_eq_true, List.all_eq_true, beq_iff_eq] at h
    rw [h.1.1 n (mem_allNodes n)]
    cases hm : (s.port n).medium.ref? with
    | none => simp
    | some m => simp
  · have h := hn n (mem_allNodes n)
    rw [hm] at h
    exact h
  · have h := hr r (mem_allNodes r)
    rw [hx] at h
    simp only [Bool.and_eq_true, List.all_eq_true] at h
    have h' := h.2 q (mem_allNodes q)
    rw [hy] at h'
    simp only [Bool.or_eq_true, beq_iff_eq, bne_iff_ne, ne_eq] at h'
    rcases h' with (h' | h') | h'
    · exact h'
    · exact absurd hs h'
    · exact absurd hi h'
  · have h := hr r (mem_allNodes r)
    rw [hx] at h
    simp only [Bool.and_eq_true, List.all_eq_true, Bool.or_eq_true, Bool.not_eq_true', beq_iff_eq] at h
    rcases h.1.2 with h3 | h3
    · rw [hw] at h3; cases h3
    · rcases h3 n (mem_allNodes n) k (mem_allNodes k) with (h4 | h4) | h4
      · rw [h1] at h4; cases h4
      · rw [h2] at h4; cases h4
      · exact h4

/-- The check of `FetchLaw`. -/
def fetchLawB (s : State) : Bool :=
  (indices 32).all (fun f => match (s.images.fetches.get f).live with
    | some l => (s.image l.image).isSome
    | none => true) &&
  allNodes.all (fun n => !(s.port n).active.isSome || (s.port n).medium.isPresent) &&
  allNodes.all (fun n => match (s.images.writes.get n).live with
    | some w => (match (s.port n).medium with
      | .present m _ => decide (m.image = w.image)
      | .ejecting m _ _ => decide (m.image = w.image)
      | .empty => false
      | .loading _ => false)
    | none => true)

theorem fetchLaw {s : State} (hb : fetchLawB s = true) : FetchLaw s := by
  unfold fetchLawB at hb
  simp only [Bool.and_eq_true, List.all_eq_true] at hb
  refine ⟨fun f l hl => ?_, fun n ha => ?_, fun n w hw => ?_⟩
  · have h := hb.1.1 f (by simp [indices])
    rw [hl] at h
    exact h
  · simpa [ha] using hb.1.2 n (mem_allNodes n)
  · have h := hb.2 n (mem_allNodes n)
    rw [hw] at h
    cases hm : (s.port n).medium with
    | empty => rw [hm] at h; cases h
    | loading m => rw [hm] at h; cases h
    | present m b => rw [hm] at h; simpa using h
    | ejecting m b c => rw [hm] at h; simpa using h

/-- The check of a power record's part of `PowerLaw`. -/
def fitsB (p : Power) : Bool :=
  (!p.reset || decide (p.state = .resetting)) &&
  (!p.button || decide (p.state = .starting ∨ p.state = .softStopping ∨ p.state = .hardStopping)) &&
  (match p.action with
    | none => !p.state.acting
    | some a => carries p.state a.kind)

theorem powerLaw {s : State} (hb : allNodes.all (fun n => fitsB (s.pw n)) = true) : PowerLaw s := by
  intro n
  have h := List.all_eq_true.mp hb n (mem_allNodes n)
  unfold fitsB at h
  simp only [Bool.and_eq_true, Bool.or_eq_true, Bool.not_eq_true', decide_eq_true_eq] at h
  refine ⟨fun hr => ?_, fun hr => ?_, ?_⟩
  · rcases h.1.1 with h' | h'
    · rw [hr] at h'; cases h'
    · exact h'
  · rcases h.1.2 with h' | h'
    · rw [hr] at h'; cases h'
    · exact h'
  · cases ha : (s.pw n).action with
    | none => have := h.2; rw [ha] at this; simpa using this
    | some a => have := h.2; rw [ha] at this; simpa using this

/-! ## States the witnesses use -/

/-- Node 0 ON, its port ATTACHED. -/
def on0 : State := (demo.putPower 0 { resetPower true with state := .on, filtered := .active, granted := true }).putPort 0
  { resetPort true with attached := true }

/-- Node 0 of `on0` with a power state, its action and its filtered level. -/
def powered (st : PowerState) (a : Option Action) (f : Filtered) (g : Power → Power := id) : State :=
  demo.putPower 0 (g { resetPower true with state := st, action := a, filtered := f })

/-- An action of the operator. -/
def act (k : ActionKind) : Action := ⟨k, .station 0, false, none⟩

/-- Node 0 of `on0` with a medium, on record 0 where it has one: image 51 of server 0, of 1,000,000 bytes. -/
def media (m : Medium) (phase : ImagePhase := .opened 7 1000000) (writable : Bool := false) (failures : Nat := 0) : State :=
  (on0.putImage 0 (some ⟨0, 51, writable, 1, failures, phase⟩)).putPort 0 { on0.port 0 with medium := m }

/-- A read-only medium of record 0, and a writable one. -/
def ro : MediumRef := ⟨0, .b512, false⟩
def rw : MediumRef := ⟨0, .b512, true⟩

/-- A part with an active request on a PRESENT medium. -/
def reading (q : Request) (m : MediumRef := ro) : State :=
  let s := media (.present m 1954) (.opened 7 1000000) m.writable
  s.putPort 0 { s.port 0 with active := some q }

/-- An extent of record 0 in place 0, VALID or FILLING. -/
def cached (s : State) (e : BitVec 32) (valid : Bool) (stale : Bool := false) : State :=
  s.putPool { s.pool with
    extents := s.pool.extents.put 0 (some ⟨⟨0, 51, e⟩, valid, stale, true, if valid then 0 else 1, List.range 8, [[], [], [], []]⟩)
    recency := [0] }

/-- A live fetch of extent `e` of record 0 in entry 5, generation 7, into place 0. -/
def fetching (s : State) (e : BitVec 32) (received : BitVec 4) (second : Bool) (timer : Option Nat) : State :=
  s.putFetch 5 ⟨7, some ⟨0, e, 4, received, 0, second, timer⟩⟩

/-- An outstanding write of node 0 on record 0. -/
def writing (s : State) (second : Bool) (phase : WritePhase) : State := s.putWrite 0 ⟨7, some ⟨0, 3584, 1024, second, phase⟩⟩

/-- Node 0's stream changed. -/
def streamed (s : State) (g : Stream → Stream) : State := s.putStream 0 (g (s.streams.get 0))

/-- Node 0 with the operator attached. -/
def attached (m : Mode) (escape : Option Nat := none) : State := streamed demo (fun t => { t with atts := [⟨0, m, 60000, escape⟩] })

/-- Node 0's line changed. -/
def lined (s : State) (g : Line → Line) : State := s.putLine 0 (g (s.lines.get 0))

/-- Node 0's boot watch changed. -/
def watched (s : State) (g : Watch → Watch) : State := s.putWatch 0 (g (s.wt 0))

/-- A SAVE running. -/
def saveRun (list : List Byte) (step : SaveStep) : State := { demo with
  loader := ⟨.saving list step 50, 0, 0, 0⟩, config := [(0, 9), (255, 1), (256, 2), (511, 3), (512, 4)] }

/-- The loader reading at `a`, in the load or in a RELOAD, over a memory. -/
def loadAt (x : Activity) (m : List Host.Cell) : State := { demo with loader := ⟨x, 0, 0, 0⟩, config := m }

/-- A part that is not yet commissioned. -/
def early : State := { demo with su := { resetSteering with commissioning := .commissioning } }

/-- A part with a node attached, a medium being read, a watch running, a notice pending and frames queued. -/
def busy : State :=
  let a := fetching (cached (reading (.read 0 8 0 .waiting)) 0 false) 0 0 false (some 400)
  let b := (streamed (watched a (fun w => { w with state := .watching, timer := some 60000, count := 1 }))
    (fun t => { t with atts := [⟨0, .typing, 60000, none⟩, ⟨1, .watch, 60000, none⟩], ring := [⟨.brk, false⟩], offset := 1 }))
  { b.putSet (some 0) ⟨[⟨.mediumInserted, 2⟩], some 100⟩ with
    up := { b.up with port := some (answerFrame (head op 0 0) 1 .ok []), queue := [serverFrame op 0xA3 []] }
    config := [(0, 9), (255, 1)] }

/-! ## Witnesses: the queue and the laws -/

theorem witness_front_command : ({ demo with pending := [.frameTransmitted, .sense 0] } : State).pending = .frameTransmitted :: [.sense 0] ∧
    demo.pending = [] := by decide +kernel

/-- A command in front of `busy` answers a next state. -/
theorem witness_step : ∃ t, step { busy with pending := [.frameTransmitted] } = .next t := ⟨_, rfl⟩

theorem witness_config_law : ConfigLaw { busy with pending := [.frameTransmitted] } := by unfold ConfigLaw; decide +kernel
theorem witness_power_law : PowerLaw { busy with pending := [.frameTransmitted] } := powerLaw (by decide +kernel)
theorem witness_port_law : PortLaw { busy with pending := [.frameTransmitted] } := by unfold PortLaw; decide +kernel
theorem witness_watch_law : WatchLaw { busy with pending := [.frameTransmitted] } := by unfold WatchLaw; decide +kernel
theorem witness_attach_law : AttachLaw { busy with pending := [.frameTransmitted] } := by unfold AttachLaw; decide +kernel
theorem witness_line_law : LineLaw { busy with pending := [.frameTransmitted] } := by unfold LineLaw; decide +kernel
theorem witness_descriptor_law : DescriptorLaw { busy with pending := [.frameTransmitted] } := by unfold DescriptorLaw; decide +kernel
theorem witness_notice_law : NoticeLaw { busy with pending := [.frameTransmitted] } := by
  intro id
  cases id with
  | none => decide +kernel
  | some n => revert n; decide +kernel
theorem witness_station_law : StationLaw { busy with pending := [.frameTransmitted] } := by unfold StationLaw; decide +kernel
theorem witness_cell_law : CellLaw { busy with pending := [.frameTransmitted] } := by unfold CellLaw; decide +kernel
theorem witness_image_law : ImageLaw { busy with pending := [.frameTransmitted] } := imageLaw (by decide +kernel)
theorem witness_fetch_law : FetchLaw { busy with pending := [.frameTransmitted] } := fetchLaw (by decide +kernel)

/-! ## Witnesses: power-on reset and the load -/

theorem witness_power_on_reset : demo.saving = false ∧ (saveRun [9] (.page 1)).loader.activity = .saving [9] (.page 1) 50 ∧
    255 < SaveStep.address (.page 1) ∧ SaveStep.address (.page 1) + SaveStep.size (.page 1) ≤ 512 ∧
    SaveStep.address .blank + SaveStep.size .blank ≤ 1 ∧ ConfigLaw (saveRun [9] (.page 1)) := by
  unfold ConfigLaw; decide +kernel

theorem witness_porn_rise : demo.porn = true ∧ State.reset.porn = false := by decide +kernel

theorem witness_record_read : (loadAt (.loading 0) [(0, 1), (1, 2), (2, 5), (3, 0)]).porn = true ∧
    (loadAt (.loading 0) [(0, 1), (1, 2), (2, 5), (3, 0)]).loader.activity = .loading 0 ∧
    (loadAt (.reloading 65533) [(65533, 1), (65534, 1), (65535, 5)]).loader.activity = .reloading 65533 ∧
    memRead (loadAt (.reloading 65533) [(65533, 1), (65534, 1), (65535, 5)]).config 65533 = Sec.code .station ∧
    65533 + 1 + (memRead (loadAt (.reloading 65533) [(65533, 1), (65534, 1), (65535, 5)]).config 65534).toNat ≤ 65535 := by
  decide +kernel

theorem witness_record_sections :
    Owned demo (.tableWriteNodeMedia (head op 0 3) [0, 1]) (head op 0 3) 2 (Sec.nodeMedia.code :: [0, 1]) 0 .tableWrite (some 0) ∧
    (Sec.part ≠ .nodeTenant ∧ Sec.part ≠ .nodeLine ∧ Sec.part ≠ .nodePower) ∧
    (demo.saving = false ∧ ([0, 16, 0] : List Byte).head? = some (nodeByte 0) ∧ ([0, 16, 0] : List Byte).length ≠ 4) ∧
    (([0, 16, 0, 0] : List Byte)[1]? = some 16 ∧ 15 < (16 : Byte).toNat ∧ demo.su.tenants.get 0 = BitVec.ofNat 4 (1 : Byte).toNat ∧
      demo.su.tenants.get 0 ≠ BitVec.ofNat 4 (15 : Byte).toNat) ∧
    (decodeLine [0] = none ∧
      decodeLine [0, 0, 1, 0xC2, 0, 0, 8, 0, 1, 1, 80, 0, 250] = some ⟨115200, [], ⟨8, .none, 1⟩, true, 80, 250⟩) ∧
    (decodePower [0] = none ∧
      decodePower [0, 0, 0, 1, 0, 200, 6, 0, 100, 5, 5, 0, 120, 20] = some defaultPowerSettings ∧
      (demo.pw 0).state.acting = false ∧ ((powered .resetting (some (act .reset)) .active).pw 0).state.acting = true) := by
  refine ⟨owned ?_, ?_⟩ <;> decide +kernel

theorem witness_record_end : memRead (loadAt (.loading 65535) []).config 65535 = 0xFF ∧ memRead (loadAt (.loading 0) [(0, 0)]).config 0 = 0 ∧
    65535 < 65534 + 1 + (memRead (loadAt (.reloading 65534) [(65534, 1), (65535, 1)]).config 65535).toNat ∧
    secOf (memRead (loadAt (.loading 59) [(59, 12), (60, 3)]).config 59) = none ∧
    59 + 1 + (memRead (loadAt (.loading 59) [(59, 12), (60, 3)]).config 60).toNat ≤ 65535 ∧
    (loadAt (.reloading 65536) []).loader.activity = .reloading 65536 ∧ (loadAt (.reloading 65536) []).porn = true := by decide +kernel

/-! ## Witnesses: frames -/

/-- A STATUS_READ of node 0 as bytes, to an address, with a payload. -/
def raw (dst : MacAddr) (vlan : Option (BitVec 12)) (ety : BitVec 16) (payload : List Byte) : RawFrame := ⟨dst, op, vlan, ety, payload⟩

theorem witness_drops : demo.porn = true ∧ demo.up.macEnabled = true ∧
    (raw 5 none 0x88B6 [1, 1]).dst ≠ demo.up.addr ∧ (raw 0xFFFFFFFFFFFF none 0x88B6 [1, 2]).payload[1]? ≠ some 0x01 ∧
    (raw demo.up.addr (some 5) 0x88B6 [1, 1]).vlan ≠ none ∧ (raw demo.up.addr none 0x0800 [1, 1]).ethertype ≠ 0x88B6 ∧
    (raw demo.up.addr none 0x88B6 []).payload[0]? ≠ some 1 ∧ (raw demo.up.addr none 0x88B6 [1, 1, 0, 0, 0, 0, 0]).payload.length < 8 ∧
    1480 < field [1, 1, 0, 0, 0, 0, 5, 0xC9] 6 2 ∧
    ([1, 1, 0, 0, 0, 0, 0, 1] : List Byte).length - 8 < field [1, 1, 0, 0, 0, 0, 0, 1] 6 2 ∧
    (demo.putUp { demo.up with queue := List.replicate 64 (serverFrame op 0xA3 []) }).up.free ≤ demo.up.promised := by decide +kernel

theorem witness_passes : rawOf (.statusRead (head op 0 0) []) = some (headRaw (head op 0 0) 1 []) ∧
    rawOf (.frameDropped (raw 5 none 0x88B6 [1, 1])) = some (raw 5 none 0x88B6 [1, 1]) ∧ demo.up.promised < demo.up.free ∧
    (headRaw (head op 0 0) 1 []).dst = demo.up.addr ∧ demo.up.addr ≠ 0xFFFFFFFFFFFF ∧ demo.up.vlan = 0 ∧
    (headRaw (head op 0 0) 1 []).vlan = none ∧ (headRaw (head op 0 0) 1 []).ethertype = 0x88B6 ∧
    (headRaw (head op 0 0) 1 []).payload = [1, 1, 0, 0, 0, 7, 0, 0] := by decide +kernel

theorem witness_steering : Arrives demo (.statusRead (head 9 0 0) []) (head 9 0 0) 1 [] ∧ demo.findStation 9 = none ∧
    Takes demo (.undefinedKind (head op 0 0) 0x80 []) (head op 0 0) 0x80 [] 0 ∧ 0x80 ≤ (0x80 : Byte).toNat ∧
    Takes demo (.undefinedKind (head op 0 0) 0x7F []) (head op 0 0) 0x7F [] 0 ∧ kindClass 0x7F = .undefined ∧
    Takes demo (.save (head op 2 0) []) (head op 2 0) 0x0E [] 0 ∧ kindClass 0x0E = .request .save ∧ wellFormedFor .save 2 [] = none := by
  refine ⟨arrives ?_, ?_, takes ?_, ?_, takes ?_, ?_, takes ?_, ?_⟩ <;> decide +kernel

/-- A commissioning write of `op` at index `j`. -/
def commissioning (j : Byte) : List Byte := [j, 1, 1, 0, 0, 0] ++ be 6 op.toNat

/-- `early` with `op` already at index 3. -/
def early3 : State := early.putSu { early.su with stations := early.su.stations.put 3 (.operator op) }

theorem witness_commissioning :
    Arrives early (.tableWriteStation (head op 15 13) (commissioning 0)) (head op 15 13) 2 (1 :: commissioning 0) ∧
    early.su.commissioning ≠ .commissioned ∧ early.saving = false ∧ byteAt (commissioning 0) 1 = 1 ∧ byteAt (commissioning 0) 2 = 1 ∧
    12 ≤ (commissioning 0).length ∧ BitVec.ofNat 48 (field (commissioning 0) 6 6) = op ∧
    decodeStation early.up.addr (commissioning 0) = some (0, .operator op) ∧ (∀ q, q ≠ 0 → (early.station q).addr? ≠ some op) ∧
    decodeStation early.up.addr (commissioning 32) = none ∧
    Arrives early3 (.tableWriteStation (head op 15 13) (commissioning 0)) (head op 15 13) 2 (1 :: commissioning 0) ∧
    early3.findStation op = some 3 ∧
    Arrives early3 (.statusRead (head op 0 0) []) (head op 0 0) 1 [] ∧ isCommissioningWrite (head op 0 0) 1 [] = false := by
  refine ⟨arrives ?_, ?_, ?_, ?_, ?_, ?_, ?_, ?_, ?_, ?_, arrives ?_, ?_, arrives ?_, ?_⟩ <;> decide +kernel

theorem witness_missing_right : Takes rightsPart (.powerOn (head 3 7 2) [0]) (head 3 7 2) 9 [0, 0] 3 ∧
    wellFormedFor .powerAction 7 [0, 0] = some (some 7) ∧ rightsPart.permitted 3 .powerAction (some 7) [0, 0] = false ∧
    Takes rightsPart (.save (head 3 15 0) []) (head 3 15 0) 0x0E [] 3 ∧ wellFormedFor .save 15 [] = some none ∧
    rightsPart.permitted 3 .save none [] = false := by
  refine ⟨takes ?_, ?_, ?_, takes ?_, ?_⟩ <;> decide +kernel

theorem witness_station_classes : rightsPart.station 0 = .operator op ∧ rightsPart.station 1 = .empty ∧
    rightsPart.station 3 = .tenant 3 4 0x0F 0x27 ∧ rightsPart.su.tenants.get 1 = 4 ∧ rightsPart.su.tenants.get 4 = 7 := by decide +kernel

theorem witness_status : Owned demo (.statusRead (head op 7 0) []) (head op 7 0) 1 [] 0 .statusRead (some 7) ∧
    Owned demo (.statusRead (head guest 15 0) []) (head guest 15 0) 1 [] 1 .statusRead none ∧
    Owned demo (.statusRead (head op 0 1) [0]) (head op 0 1) 1 [0] 0 .statusRead (some 0) ∧
    (demo.station 1).isOperator = false := by
  refine ⟨owned ?_, owned ?_, owned ?_, ?_⟩ <;> decide +kernel

/-! ## Witnesses: the tables -/

theorem witness_table_reads : Owned demo (.tableReadStation (head op 15 2) [31]) (head op 15 2) 3 [1, 31] 0 .tableRead none ∧
    indexOfByte 31 = some 31 ∧
    Owned demo (.tableReadPattern (head op 15 2) [31]) (head op 15 2) 3 [8, 31] 0 .tableRead none ∧
    Owned demo (.tableReadPart (head op 15 1) []) (head op 15 1) 3 [9] 0 .tableRead none ∧
    Owned demo (.tableReadNodeTenant (head op 7 2) [7]) (head op 7 2) 3 [2, nodeByte 7] 0 .tableRead (some 7) ∧
    Owned demo (.tableReadNodeLine (head op 7 2) [7]) (head op 7 2) 3 [3, nodeByte 7] 0 .tableRead (some 7) ∧
    Owned demo (.tableReadNodePower (head op 7 2) [7]) (head op 7 2) 3 [4, nodeByte 7] 0 .tableRead (some 7) ∧
    Owned demo (.tableReadNodeWatch (head op 7 2) [7]) (head op 7 2) 3 [5, nodeByte 7] 0 .tableRead (some 7) ∧
    Owned demo (.tableReadNodeStream (head op 7 2) [7]) (head op 7 2) 3 [6, nodeByte 7] 0 .tableRead (some 7) ∧
    Owned demo (.tableReadNodeMedia (head op 7 2) [7]) (head op 7 2) 3 [7, nodeByte 7] 0 .tableRead (some 7) ∧
    Owned demo (.tableReadStation (head op 15 2) [32]) (head op 15 2) 3 [1, 32] 0 .tableRead none ∧ 32 ≤ byteAt [1, 32] 1 ∧
    Owned demo (.tableReadNodeLine (head op 0 2) [1]) (head op 0 2) 3 [3, 1] 0 .tableRead (some 0) ∧
    ([3, 1] : List Byte)[1]? ≠ some (head op 0 2).node ∧
    Owned demo (.tableReadPart (head op 15 2) [0]) (head op 15 2) 3 [9, 0] 0 .tableRead none := by
  refine ⟨owned ?_, ?_, owned ?_, owned ?_, owned ?_, owned ?_, owned ?_, owned ?_, owned ?_, owned ?_, owned ?_, ?_,
    owned ?_, ?_, owned ?_⟩ <;> decide +kernel

theorem witness_table_checks :
    Owned (saveRun [] .blank) (.tableWriteNodeMedia (head op 0 3) [0, 1]) (head op 0 3) 2 [7, 0, 1] 0 .tableWrite (some 0) ∧
    (saveRun [] .blank).saving = true ∧
    Owned demo (.tableWriteNodeMedia (head op 0 3) [1, 1]) (head op 0 3) 2 [7, 1, 1] 0 .tableWrite (some 0) ∧
    demo.saving = false ∧ ([7, 1, 1] : List Byte)[1]? ≠ some (head op 0 3).node := by
  refine ⟨owned ?_, ?_, owned ?_, ?_⟩ <;> decide +kernel

/-- Node 1's medium on record 1, whose server is station 1. -/
def served : State := (demo.putImage 1 (some ⟨1, 51, false, 2, 0, .opened 7 1000⟩)).putPort 1
  { demo.port 1 with medium := .present ⟨1, .b512, false⟩ 2 }

theorem served_users : ∀ r, (served.image r).all (fun x => x.server ≠ 1 || x.users ≠ 0) = true := by decide +kernel

theorem witness_station_gone : (served.station 1).addr? ≠ Station.empty.addr? ∧
    ∀ r x, served.image r = some x → x.server = 1 → x.users ≠ 0 :=
  ⟨by decide +kernel, fun r x h hs => by simpa [h, hs] using served_users r⟩

theorem witness_station_write :
    Owned demo (.tableWriteStation (head op 15 3) [32, 0]) (head op 15 3) 2 [1, 32, 0] 0 .tableWrite none ∧
    decodeStation demo.up.addr [32, 0] = none ∧
    Owned demo (.tableWriteStation (head op 15 3) [0, 0]) (head op 15 3) 2 [1, 0, 0] 0 .tableWrite none ∧
    decodeStation demo.up.addr [0, 0] = some (0, .empty) ∧
    (demo.station 0).isOperator = true ∧
    (∀ k, k ≠ 0 → (demo.station k).isOperator = false) ∧
    Owned demo (.tableWriteStation (head op 15 13) (commissioning 31)) (head op 15 13) 2 (1 :: (commissioning 31)) 0 .tableWrite none ∧
    decodeStation demo.up.addr (commissioning 31) = some (31, .operator op) ∧
    (demo.station 0).addr? = (Station.operator op).addr? ∧
    Owned served (.tableWriteStation (head op 15 3) [1, 0]) (head op 15 3) 2 [1, 1, 0] 0 .tableWrite none ∧
    served.saving = false ∧
    decodeStation served.up.addr [1, 0] = some (1, .empty) ∧
    served.servedBy 1 1 = true ∧
    AttachLaw served ∧
    ImageLaw served := by
  refine ⟨owned ?_, ?_, owned ?_, ?_, ?_, ?_, owned ?_, ?_, ?_, owned ?_, ?_, ?_, ?_, ?_, imageLaw ?_⟩
    <;> first | decide +kernel | (unfold AttachLaw; decide +kernel)

/-- The guest types on node 0, whose replay it asked for. -/
def typed : State := streamed demo (fun t => { t with
  atts := [⟨1, .typing, 60000, none⟩], replay := some ⟨1, 0, 5, false, false⟩ })

/-- The STATION body that leaves the guest WATCH alone. -/
def watchOnly : List Byte := [1, 1, 0, 1, 0xFF, 1] ++ be 6 guest.toNat

/-- A write that keeps the station of its index and ends no medium, one that removes an attached station, and one that ends a record. -/
theorem witness_station_rest :
    Owned typed (.tableWriteStation (head op 15 13) watchOnly) (head op 15 13) 2 (1 :: watchOnly) 0 .tableWrite none ∧
    decodeStation typed.up.addr watchOnly = some (1, .tenant guest 1 0xFF 1) ∧
    (typed.station 1).addr? = (Station.tenant guest 1 0xFF 1).addr? ∧ (∀ n, typed.servedBy 1 n = false) ∧
    Owned typed (.tableWriteStation (head op 15 3) [1, 0]) (head op 15 3) 2 [1, 1, 0] 0 .tableWrite none ∧
    (typed.station 1).addr? ≠ Station.empty.addr? ∧ ((typed.streams.get 0).att 1).isSome ∧
    (typed.streams.get 0).replay = some ⟨1, 0, 5, false, false⟩ ∧ AttachLaw typed ∧ FetchLaw served ∧
    (served.image 1).map ImageRec.users = some (0 ||| (1#8 <<< (1 : NodeId).val)) := by
  refine ⟨owned ?_, ?_, ?_, ?_, owned ?_, ?_, ?_, ?_, ?_, fetchLaw ?_, ?_⟩
    <;> first | decide +kernel | (unfold AttachLaw; decide +kernel)

theorem witness_tenant_write :
    Owned demo (.tableWriteNodeTenant (head op 0 3) [0, 1]) (head op 0 3) 2 [2, 0, 1] 0 .tableWrite (some 0) ∧
    Owned demo (.tableWriteNodeTenant (head op 0 5) [0, 16, 0, 0]) (head op 0 5) 2 [2, 0, 16, 0, 0] 0 .tableWrite (some 0) ∧
    15 < (16 : Byte).toNat ∧
    Owned demo (.tableWriteNodeTenant (head op 0 5) [0, 1, 0, 0]) (head op 0 5) 2 [2, 0, 1, 0, 0] 0 .tableWrite (some 0) ∧
    BitVec.ofNat 4 (1 : Byte).toNat = demo.su.tenants.get 0 ∧
    Owned demo (.tableWriteNodeTenant (head op 0 5) [0, 15, 0, 0]) (head op 0 5) 2 [2, 0, 15, 0, 0] 0 .tableWrite (some 0) ∧
    BitVec.ofNat 4 (15 : Byte).toNat ≠ demo.su.tenants.get 0 ∧
    ([0, 15, 0, 0] : List Byte).head? = some (nodeByte 0) ∧
    demo.saving = false := by
  refine ⟨owned ?_, owned ?_, ?_, owned ?_, ?_, owned ?_, ?_⟩ <;> decide +kernel

theorem witness_line_write :
    Owned demo (.tableWriteNodeLine (head op 0 2) [0]) (head op 0 2) 2 [3, 0] 0 .tableWrite (some 0) ∧
    decodeLine [0] = none ∧
    Owned demo (.tableWriteNodeLine (head op 0 14) [0, 0, 1, 0xC2, 0, 0, 8, 0, 1, 1, 80, 0, 250]) (head op 0 14) 2 [3, 0, 0, 1, 0xC2, 0, 0, 8, 0, 1, 1, 80, 0, 250] 0 .tableWrite (some 0) ∧
    decodeLine [0, 0, 1, 0xC2, 0, 0, 8, 0, 1, 1, 80, 0, 250] = some ⟨115200, [], ⟨8, .none, 1⟩, true, 80, 250⟩ ∧
    demo.saving = false := by
  refine ⟨owned ?_, ?_, owned ?_, ?_⟩ <;> decide +kernel

theorem witness_power_and_watch_writes :
    Owned demo (.tableWriteNodePower (head op 0 2) [0]) (head op 0 2) 2 [4, 0] 0 .tableWrite (some 0) ∧
    decodePower [0] = none ∧
    Owned demo (.tableWriteNodePower (head op 0 15) [0, 0, 0, 1, 0, 200, 6, 0, 100, 5, 5, 0, 120, 20]) (head op 0 15) 2 [4, 0, 0, 0, 1, 0, 200, 6, 0, 100, 5, 5, 0, 120, 20] 0 .tableWrite (some 0) ∧
    decodePower [0, 0, 0, 1, 0, 200, 6, 0, 100, 5, 5, 0, 120, 20] = some defaultPowerSettings ∧
    (demo.pw 0).state.acting = false ∧
    Owned (powered .resetting (some (act .reset)) .active) (.tableWriteNodePower (head op 0 15) [0, 0, 0, 1, 0, 200, 6, 0, 100, 5, 5, 0, 120, 20]) (head op 0 15) 2 [4, 0, 0, 0, 1, 0, 200, 6, 0, 100, 5, 5, 0, 120, 20] 0 .tableWrite (some 0) ∧
    ((powered .resetting (some (act .reset)) .active).pw 0).state.acting = true ∧
    Owned demo (.tableWriteNodeWatch (head op 0 2) [0]) (head op 0 2) 2 [5, 0] 0 .tableWrite (some 0) ∧
    decodeWatch [0] = none ∧
    Owned demo (.tableWriteNodeWatch (head op 0 7) [0, 0, 0, 7, 1, 0]) (head op 0 7) 2 [5, 0, 0, 0, 7, 1, 0] 0 .tableWrite (some 0) ∧
    decodeWatch [0, 0, 0, 7, 1, 0] = some ⟨0, 7, true, false⟩ := by
  refine ⟨owned ?_, ?_, owned ?_, ?_, ?_, owned ?_, ?_, owned ?_, ?_, owned ?_, ?_⟩ <;> decide +kernel

/-- A part whose free cells are all reserved. -/
def reserved : State := demo.putStream 1 { demo.streams.get 1 with settings := { defaultStreamSettings with histMin := 996 } }

/-- R175's cover condition as the statement on NODE_STREAM writes spells it. -/
def coverOf (s : State) (n : NodeId) (lo hi : Nat) : Bool :=
  let r := s.streams.get n
  let held := min r.chain.length hi
  let reserved := (allNodes.map (fun k => if k = n then lo - held
    else (s.streams.get k).settings.histMin - (s.streams.get k).chain.length)).sum
  let spare := ((indices 128).filter (fun q => match s.pool.extents.get q with
    | some e => e.valid && e.pins = 0
    | none => false)).length
  reserved ≤ s.freeCells + (r.chain.length - held) + 8 * spare

theorem witness_stream_write :
    Owned demo (.tableWriteNodeStream (head op 0 2) [0]) (head op 0 2) 2 [6, 0] 0 .tableWrite (some 0) ∧
    decodeStream [0] = none ∧
    Owned demo (.tableWriteNodeStream (head op 0 10) [0, 0, 64, 4, 0x1C, 7, 0xD0, 16, 128]) (head op 0 10) 2 [6, 0, 0, 64, 4, 0x1C, 7, 0xD0, 16, 128] 0 .tableWrite (some 0) ∧
    decodeStream [0, 0, 64, 4, 0x1C, 7, 0xD0, 16, 128] = some ⟨64, 4, 0x1C, 2000, 16, 128⟩ ∧
    coverOf demo 0 16 128 = true ∧
    CellLaw demo ∧
    Owned reserved (.tableWriteNodeStream (head op 0 10) [0, 0, 64, 4, 0x1C, 7, 0xD0, 16, 128]) (head op 0 10) 2 [6, 0, 0, 64, 4, 0x1C, 7, 0xD0, 16, 128] 0 .tableWrite (some 0) ∧
    coverOf reserved 0 16 128 = false ∧
    CellLaw reserved := by
  refine ⟨owned ?_, ?_, owned ?_, ?_, ?_, ?_, owned ?_, ?_, ?_⟩
    <;> first | decide +kernel | (unfold CellLaw; decide +kernel)

theorem witness_escape_byte_changes :
    Owned (attached .typing (some 2000)) (.tableWriteNodeStream (head op 0 10) [0, 0, 64, 4, 0x1D, 7, 0xD0, 16, 128]) (head op 0 10) 2 [6, 0, 0, 64, 4, 0x1D, 7, 0xD0, 16, 128] 0 .tableWrite (some 0) ∧
    (decodeStream [0, 0, 64, 4, 0x1D, 7, 0xD0, 16, 128] = some ⟨64, 4, 0x1D, 2000, 16, 128⟩ ∧
      coverOf (attached .typing (some 2000)) 0 16 128 = true) ∧
    (LineLaw (attached .typing (some 2000)) ∧ LineLaw reserved) ∧ CellLaw (attached .typing (some 2000)) := by
  refine ⟨owned ?_, ?_, ?_, ?_⟩
  · decide +kernel
  · decide +kernel
  · unfold LineLaw; decide +kernel
  · unfold CellLaw; decide +kernel

theorem witness_content_writes :
    Owned demo (.tableWriteNodeMedia (head op 0 3) [0, 1]) (head op 0 3) 2 [7, 0, 1] 0 .tableWrite (some 0) ∧
    Owned demo (.tableWriteNodeMedia (head op 0 3) [0, 2]) (head op 0 3) 2 [7, 0, 2] 0 .tableWrite (some 0) ∧
    Owned demo (.tableWritePattern (head op 15 3) [31, 0]) (head op 15 3) 2 [8, 31, 0] 0 .tableWrite none ∧
    decodePattern [31, 0] = some (31, none) ∧
    Owned demo (.tableWritePattern (head op 15 3) [32, 0]) (head op 15 3) 2 [8, 32, 0] 0 .tableWrite none ∧
    decodePattern [32, 0] = none ∧
    Owned demo (.tableWritePart (head op 15 2) [0]) (head op 15 2) 2 [9, 0] 0 .tableWrite none ∧
    decodePart [0] = none ∧
    Owned demo (.tableWritePart (head op 15 15) (encodePart ⟨op, 0, 30, 10, 50⟩)) (head op 15 15) 2 (9 :: (encodePart ⟨op, 0, 30, 10, 50⟩)) 0 .tableWrite none ∧
    decodePart (encodePart ⟨op, 0, 30, 10, 50⟩) = some ⟨op, 0, 30, 10, 50⟩ ∧
    (demo.findStation op).isSome ∧
    Owned demo (.tableWritePart (head op 15 15) (encodePart ⟨0x02A000000020, 12, 29, 1001, 400⟩)) (head op 15 15) 2 (9 :: (encodePart ⟨0x02A000000020, 12, 29, 1001, 400⟩)) 0 .tableWrite none ∧
    decodePart (encodePart ⟨0x02A000000020, 12, 29, 1001, 400⟩) = some ⟨0x02A000000020, 12, 29, 1001, 400⟩ ∧
    demo.findStation 0x02A000000020 = none := by
  refine ⟨owned ?_, owned ?_, owned ?_, ?_, owned ?_, ?_, owned ?_, ?_, owned ?_, ?_, ?_, owned ?_, ?_⟩ <;> decide +kernel

/-! ## Witnesses: console streams -/

/-- Node 0 with a history cell of `k` entries, and limits. -/
def history (k lo hi : Nat) : State := streamed demo (fun t => { t with
  chain := [⟨0, List.replicate k ⟨.brk, false⟩⟩], settings := { t.settings with histMin := lo, histMax := hi } })

theorem witness_history :
    ((history 255 4 32).streams.get 0).newestHasRoom = true ∧
    ((history 256 4 32).streams.get 0).newestHasRoom = false ∧
    ((history 256 4 32).grant 0).isSome ∧
    ((history 256 0 1).streams.get 0).newestHasRoom = false ∧
    (history 256 0 1).grant 0 = none ∧
    ((history 256 0 1).streams.get 0).chain = ⟨0, List.replicate 256 ⟨.brk, false⟩⟩ :: [] ∧
    CellLaw (history 256 0 1) ∧
    ((streamed demo (fun t => { t with replay := some ⟨0, 0, 5, false, false⟩ })).streams.get 0).replay = some ⟨0, 0, 5, false, false⟩ ∧
    ((streamed demo (fun t => { t with replay := some ⟨0, 0, 5, true, true⟩ })).streams.get 0).replay = some ⟨0, 0, 5, true, true⟩ := by
  refine ⟨?_, ?_, ?_, ?_, ?_, ?_, ?_, ?_⟩ <;> first | decide +kernel | (unfold CellLaw; decide +kernel)

/-- Node 0 with four attachments, none of the operator. -/
def four : State := streamed demo (fun t => { t with
  atts := [⟨1, .watch, 60000, none⟩, ⟨2, .watch, 60000, none⟩, ⟨3, .watch, 60000, none⟩, ⟨4, .watch, 60000, none⟩] })

theorem witness_attach :
    Owned demo (.attach (head op 0 1) [2]) (head op 0 1) 4 [2] 0 .attach (some 0) ∧
    Owned demo (.attach (head op 0 1) [1]) (head op 0 1) 4 [1] 0 .attach (some 0) ∧
    (demo.streams.get 0).att 0 = none ∧
    Owned (attached .typing) (.attach (head op 0 1) [0]) (head op 0 1) 4 [0] 0 .attach (some 0) ∧
    ((attached .typing).streams.get 0).att 0 = some ⟨0, .typing, 60000, none⟩ ∧
    Owned four (.attach (head op 0 1) [0]) (head op 0 1) 4 [0] 0 .attach (some 0) ∧
    (four.streams.get 0).att 0 = none ∧
    4 ≤ (four.streams.get 0).atts.length := by
  refine ⟨owned ?_, owned ?_, ?_, owned ?_, ?_, owned ?_, ?_⟩ <;> decide +kernel

/-- A bad body of each renewing kind, the operator attached. -/
theorem witness_bad_bodies :
    Owned (attached .typing) (.attach (head op 0 1) [2]) (head op 0 1) 4 [2] 0 .attach (some 0) ∧
    Owned (attached .typing) (.renew (head op 0 1) [0]) (head op 0 1) 6 [0] 0 .renew (some 0) ∧
    Owned (attached .typing) (.consoleInput (head op 0 0) []) (head op 0 0) 7 [] 0 .consoleInput (some 0) ∧
    Owned (attached .typing) (.replay (head op 0 1) [0]) (head op 0 1) 8 [0] 0 .replay (some 0) := by
  refine ⟨owned ?_, owned ?_, owned ?_, owned ?_⟩ <;> decide +kernel

theorem witness_detach_renew_lease :
    Owned demo (.detach (head op 0 1) [0]) (head op 0 1) 5 [0] 0 .detach (some 0) ∧
    Owned demo (.detach (head op 0 0) []) (head op 0 0) 5 [] 0 .detach (some 0) ∧
    (demo.streams.get 0).att 0 = none ∧
    Owned (attached .watch) (.detach (head op 0 0) []) (head op 0 0) 5 [] 0 .detach (some 0) ∧
    ((attached .watch).streams.get 0).att 0 = some ⟨0, .watch, 60000, none⟩ ∧
    Owned demo (.renew (head op 0 1) [0]) (head op 0 1) 6 [0] 0 .renew (some 0) ∧
    Owned demo (.renew (head op 0 0) []) (head op 0 0) 6 [] 0 .renew (some 0) ∧
    Owned (attached .watch) (.renew (head op 0 0) []) (head op 0 0) 6 [] 0 .renew (some 0) ∧
    demo.porn = true := by
  refine ⟨owned ?_, owned ?_, ?_, owned ?_, ?_, owned ?_, owned ?_, owned ?_, ?_⟩ <;> decide +kernel

theorem witness_console_input :
    Owned demo (.consoleInput (head op 0 0) []) (head op 0 0) 7 [] 0 .consoleInput (some 0) ∧
    Owned demo (.consoleInput (head op 0 1025) (List.replicate 1025 65)) (head op 0 1025) 7 (List.replicate 1025 65) 0 .consoleInput (some 0) ∧
    1024 < (List.replicate 1025 (65 : Byte)).length ∧
    Owned demo (.consoleInput (head op 0 1024) (List.replicate 1024 65)) (head op 0 1024) 7 (List.replicate 1024 65) 0 .consoleInput (some 0) ∧
    (demo.streams.get 0).att 0 = none ∧
    Owned (attached .watch) (.consoleInput (head op 0 1) [65]) (head op 0 1) 7 [65] 0 .consoleInput (some 0) ∧
    Owned (attached .typing) (.consoleInput (head op 0 1) [65]) (head op 0 1) 7 [65] 0 .consoleInput (some 0) ∧
    ((attached .typing).streams.get 0).att 0 = some ⟨0, .typing, 60000, none⟩ ∧
    ((attached .typing).streams.get 0).settings.escapeByte ∉ [65] ∧
    LineLaw (attached .typing) := by
  refine ⟨owned ?_, owned ?_, ?_, owned ?_, ?_, owned ?_, owned ?_, ?_, ?_, ?_⟩
    <;> first | decide +kernel | (unfold LineLaw; decide +kernel)

/-- `s` with node 0 in a power state and the operator's escape byte held. -/
def holdingEscape (st : PowerState) (a : Option Action) : State :=
  (attached .typing (some 2000)).putPower 0 { resetPower true with state := st, action := a, filtered := .active }

theorem witness_escape :
    Owned (attached .typing) (.consoleInput (head op 0 1) [0x1C]) (head op 0 1) 7 [0x1C] 0 .consoleInput (some 0) ∧
    ((attached .typing).streams.get 0).settings.escapeByte = 0x1C ∧
    Owned (attached .typing (some 2000)) (.consoleInput (head op 0 1) [0x1C]) (head op 0 1) 7 [0x1C] 0 .consoleInput (some 0) ∧
    Owned (attached .typing (some 2000)) (.consoleInput (head op 0 1) [0x62]) (head op 0 1) 7 [0x62] 0 .consoleInput (some 0) ∧
    Owned (attached .typing (some 2000)) (.consoleInput (head op 0 1) [0x72]) (head op 0 1) 7 [0x72] 0 .consoleInput (some 0) ∧
    Owned (attached .typing (some 2000)) (.consoleInput (head op 0 1) [0x63]) (head op 0 1) 7 [0x63] 0 .consoleInput (some 0) ∧
    Owned (attached .typing (some 2000)) (.consoleInput (head op 0 1) [0x64]) (head op 0 1) 7 [0x64] 0 .consoleInput (some 0) ∧
    Owned (attached .typing (some 2000)) (.consoleInput (head op 0 1) [0x65]) (head op 0 1) 7 [0x65] 0 .consoleInput (some 0) ∧
    ((attached .typing (some 2000)).streams.get 0).att 0 = some ⟨0, .typing, 60000, some 2000⟩ ∧
    LineLaw (attached .typing (some 2000)) ∧
    (attached .typing (some 2000)).holds 0 0 .power = true ∧
    ((attached .typing (some 2000)).pw 0).state = .unknown ∧
    Owned (holdingEscape .on none) (.consoleInput (head op 0 1) [0x72]) (head op 0 1) 7 [0x72] 0 .consoleInput (some 0) ∧
    ((holdingEscape .on none).pw 0).state = .on ∧
    ((holdingEscape .off none).pw 0).state = .off ∧
    ((holdingEscape .resetting (some (act .reset))).pw 0).state.acting = true ∧
    LineLaw (holdingEscape .on none) ∧
    (0x65 : Byte) ∉ [0x1C, 0x62, 0x72, 0x63, 0x64] := by
  refine ⟨owned ?_, ?_, owned ?_, owned ?_, owned ?_, owned ?_, owned ?_, owned ?_, ?_, ?_, ?_, ?_, owned ?_, ?_, ?_,
    ?_, ?_, ?_⟩ <;> first | decide +kernel | (unfold LineLaw; decide +kernel)

/-- A tenant that holds TYPE but not POWER, its escape byte held. -/
def typist : State := { attached .typing (some 2000) with
  su := { demo.su with stations := demo.su.stations.put 0 (.tenant op 1 0xFF 0x03) } }

theorem witness_escape_no_power : Owned typist (.consoleInput (head op 0 1) [0x72]) (head op 0 1) 7 [0x72] 0 .consoleInput (some 0) ∧
    typist.holds 0 0 .power = false ∧ LineLaw typist := by
  refine ⟨owned ?_, ?_, ?_⟩ <;> first | decide +kernel | (unfold LineLaw; decide +kernel)

/-- Node 0 ON, the operator attached in TYPE. -/
def typingOn : State := (attached .typing).putPower 0 { resetPower true with state := .on, filtered := .active }

/-- 3.9: 253 items in the queue, 1Ch held; the message 1Ch q w e takes three bytes and fills the queue. -/
def nearlyFull : State := lined (attached .typing) (fun l => { l with
  transmitter := .sending 65 defaultFraming 16, txQueue := List.replicate 253 (.byte 65) })

/-- The bytes q, q, 1Ch, b: two items and a BREAK. -/
def spelled : List Byte := [0x71, 0x71, 0x1C, 0x62]

theorem witness_spells : Spells 0x1C spelled [.byte 0x71, .byte 0x71, .brk] true ∧
    Spells 0x1C [0x1C, 0x1C, 0x1C, 0x65] [.byte 0x1C, .byte 0x1C, .byte 0x65] false :=
  ⟨.plain _ _ _ _ (by decide) (.plain _ _ _ _ (by decide) (.brk _ _ _ (by decide) .nil)),
    .twice _ _ _ (.other _ _ _ _ (by decide) .nil)⟩

theorem witness_escape_messages :
    Owned (attached .typing) (.consoleInput (head op 0 4) spelled) (head op 0 4) 7 spelled 0 .consoleInput (some 0) ∧
    Owned (attached .typing) (.consoleInput (head op 0 5) (spelled ++ [0x1C])) (head op 0 5) 7 (spelled ++ [0x1C]) 0 .consoleInput (some 0) ∧
    Owned (attached .typing) (.consoleInput (head op 0 7) (spelled ++ 0x1C :: 0x64 :: [0x71])) (head op 0 7) 7 (spelled ++ 0x1C :: 0x64 :: [0x71]) 0 .consoleInput (some 0) ∧
    Owned typingOn (.consoleInput (head op 0 6) (spelled ++ [0x1C, 0x72])) (head op 0 6) 7 (spelled ++ [0x1C, 0x72]) 0 .consoleInput (some 0) ∧
    (typingOn.holds 0 0 .power = true ∧ (typingOn.pw 0).state = .on ∧ (typingOn.streams.get 0).att 0 = some ⟨0, .typing, 60000, none⟩) ∧
    Owned nearlyFull (.consoleInput (head op 0 6) (spelled ++ 0x41 :: [0x42])) (head op 0 6) 7 (spelled ++ 0x41 :: [0x42]) 0 .consoleInput (some 0) ∧
    Owned nearlyFull (.consoleInput (head op 0 6) (spelled ++ 0x1C :: 0x41 :: [])) (head op 0 6) 7 (spelled ++ 0x1C :: 0x41 :: []) 0 .consoleInput (some 0) ∧
    ((nearlyFull.lines.get 0).transmitter ≠ .idle ∧
      (nearlyFull.lines.get 0).txQueue.length + ([.byte 0x71, .byte 0x71, .brk] : List TxItem).length = 256) ∧
    Owned (attached .typing) (.consoleInput (head op 0 10) (spelled ++ 0x1C :: 0x63 :: spelled)) (head op 0 10) 7 (spelled ++ 0x1C :: 0x63 :: spelled) 0 .consoleInput (some 0) ∧
    ((attached .typing).pw 0).state ≠ .on ∧ (LineLaw (attached .typing) ∧ LineLaw typingOn ∧ LineLaw nearlyFull) := by
  refine ⟨owned ?_, owned ?_, owned ?_, owned ?_, ?_, owned ?_, owned ?_, ?_, owned ?_, ?_, ?_⟩
    <;> first | decide +kernel | (unfold LineLaw; decide +kernel)

/-- The operator attached at node 0 with 100 entries of history from offset 10,000. -/
def historied : State := streamed (attached .watch) (fun t => { t with
  chain := [⟨0, List.replicate 100 ⟨.brk, false⟩⟩], oldest := 10000, offset := 10100 })

theorem witness_replay :
    Owned demo (.replay (head op 0 1) [0]) (head op 0 1) 8 [0] 0 .replay (some 0) ∧
    Owned demo (.replay (head op 0 4) [0, 0, 0x23, 0x28]) (head op 0 4) 8 [0, 0, 0x23, 0x28] 0 .replay (some 0) ∧
    ([0, 0, 0x23, 0x28] : List Byte) = be 4 (9000 : Offset).toNat ∧
    (demo.streams.get 0).att 0 = none ∧
    Owned (attached .watch) (.replay (head op 0 4) [0, 0, 0x23, 0x28]) (head op 0 4) 8 [0, 0, 0x23, 0x28] 0 .replay (some 0) ∧
    ((attached .watch).streams.get 0).history = [] ∧
    Owned historied (.replay (head op 0 4) [0, 0, 0x23, 0x28]) (head op 0 4) 8 [0, 0, 0x23, 0x28] 0 .replay (some 0) ∧
    (historied.streams.get 0).history ≠ [] ∧
    (historied.streams.get 0).replay = none ∧
    ((streamed historied (fun t => { t with replay := some ⟨1, 10000, 10099, false, false⟩ })).streams.get 0).replay.isSome := by
  refine ⟨owned ?_, owned ?_, ?_, ?_, owned ?_, ?_, owned ?_, ?_⟩ <;> decide +kernel

/-! ## Witnesses: descriptors, notices and the transmit port -/

theorem witness_timers :
    demo.porn = true ∧
    (demo.streams.get 0).flush = none ∧
    ((streamed demo (fun t => { t with flush := some 348, ring := [⟨.brk, false⟩] })).streams.get 0).flush = some 348 ∧
    ((streamed demo (fun t => { t with flush := some 348, ring := [⟨.brk, false⟩] })).streams.get 0).ring ≠ [] ∧
    (demo.pendingSet (some 0)).gap = none ∧
    ((demo.putSet none ⟨[], some 100⟩).pendingSet none).gap = some 100 := by
  decide +kernel

theorem witness_producers : busy.porn = true ∧ exec .frameTransmitted busy = .next (after .frameTransmitted busy) ∧
    ImageLaw (after .frameTransmitted busy) ∧ FetchLaw (after .frameTransmitted busy) ∧ (after .frameTransmitted busy).up.macEnabled = true := by
  refine ⟨?_, rfl, imageLaw ?_, fetchLaw ?_, ?_⟩ <;> decide +kernel

/-- An uplink with a NOTICE and a MEDIA frame waiting. -/
def waitingUp (port : Option TxFrame) (up : Bool) : Uplink := { demo.up with
  queue := [⟨.notice, op, 0xA1, 15, 0, 0, []⟩, serverFrame op 0xA3 []], port := port, linkUp := up }

theorem witness_port :
    (waitingUp none true).port = none ∧ (waitingUp none true).macEnabled = true ∧
    ((waitingUp none true).queue.find? (fun g => g.cls = FrameClass.answer)) = none ∧
    ((waitingUp none true).queue.find? (fun g => g.cls = FrameClass.media)) = some (serverFrame op 0xA3 []) ∧
    (waitingUp none true).rotation = .media ∧
    ({ waitingUp none true with queue := [answerFrame (head op 0 0) 1 .ok []] } : Uplink).queue.find? (fun g => g.cls = FrameClass.answer) = some (answerFrame (head op 0 0) 1 .ok []) ∧
    ({ waitingUp none true with queue := [] } : Uplink).queue = [] ∧
    (waitingUp (some (serverFrame op 0xA3 [])) true).port = some (serverFrame op 0xA3 []) ∧ (waitingUp (some (serverFrame op 0xA3 [])) true).linkUp = true ∧
    (waitingUp (some (serverFrame op 0xA3 [])) false).port = some (serverFrame op 0xA3 []) ∧ (waitingUp (some (serverFrame op 0xA3 [])) false).linkUp = false := by
  decide +kernel

theorem witness_port_sends :
    ({ demo with up := { waitingUp (some (serverFrame op 0xA3 [])) true with port := none } } : State).readyProducers true = [] := by
  decide +kernel

/-! ## Witnesses: power and reset -/

theorem witness_power_actions :
    Owned demo (.powerOn (head op 0 1) []) (head op 0 1) 9 [0] 0 .powerAction (some 0) ∧
    Owned demo (.powerOn (head op 0 2) [1]) (head op 0 2) 9 [0, 1] 0 .powerAction (some 0) ∧
    Owned demo (.powerOn (head op 0 2) [0]) (head op 0 2) 9 [0, 0] 0 .powerAction (some 0) ∧
    (demo.pw 0).state = .unknown ∧
    Owned (powered .off none .inactive) (.softOff (head op 0 2) [0]) (head op 0 2) 9 [1, 0] 0 .powerAction (some 0) ∧
    Owned (powered .off none .inactive) (.hardOff (head op 0 2) [0]) (head op 0 2) 9 [2, 0] 0 .powerAction (some 0) ∧
    Owned (powered .off none .inactive) (.reset (head op 0 2) [0]) (head op 0 2) 9 [3, 0] 0 .powerAction (some 0) ∧
    Owned (powered .off none .inactive) (.cycle (head op 0 2) [0]) (head op 0 2) 9 [4, 0] 0 .powerAction (some 0) ∧
    ((powered .off none .inactive).pw 0).state = .off ∧
    Owned (powered .off none .inactive) (.powerOn (head op 0 2) [0]) (head op 0 2) 9 [0, 0] 0 .powerAction (some 0) ∧
    Owned on0 (.powerOn (head op 0 2) [0]) (head op 0 2) 9 [0, 0] 0 .powerAction (some 0) ∧
    Owned on0 (.softOff (head op 0 2) [0]) (head op 0 2) 9 [1, 0] 0 .powerAction (some 0) ∧
    Owned on0 (.hardOff (head op 0 2) [0]) (head op 0 2) 9 [2, 0] 0 .powerAction (some 0) ∧
    Owned on0 (.reset (head op 0 2) [0]) (head op 0 2) 9 [3, 0] 0 .powerAction (some 0) ∧
    Owned on0 (.cycle (head op 0 2) [0]) (head op 0 2) 9 [4, 0] 0 .powerAction (some 0) ∧
    (on0.pw 0).state = .on ∧
    Owned on0 (.reset (head op 0 2) [1]) (head op 0 2) 9 [3, 1] 0 .powerAction (some 0) ∧
    (on0.port 0).medium.isPresent = false ∧
    Owned (media (.present ro 1954)) (.cycle (head op 0 2) [1]) (head op 0 2) 9 [4, 1] 0 .powerAction (some 0) ∧
    ((media (.present ro 1954)).port 0).medium.isPresent = true ∧
    Owned (powered .hardStopping (some (act .hardOff)) .active) (.hardOff (head op 0 2) [0]) (head op 0 2) 9 [2, 0] 0 .powerAction (some 0) ∧
    ((powered .hardStopping (some (act .hardOff)) .active).pw 0).state = .hardStopping ∧
    Owned (powered .starting (some (act .powerOn)) .inactive) (.reset (head op 0 2) [0]) (head op 0 2) 9 [3, 0] 0 .powerAction (some 0) ∧
    Owned (powered .starting (some (act .powerOn)) .inactive) (.hardOff (head op 0 2) [0]) (head op 0 2) 9 [2, 0] 0 .powerAction (some 0) ∧
    (((powered .starting (some (act .powerOn)) .inactive).pw 0).state.acting = true ∧ ((powered .starting (some (act .powerOn)) .inactive).pw 0).filtered ≠ .active) ∧
    Owned (powered .softStopping (some (act .softOff)) .active) (.hardOff (head op 0 2) [0]) (head op 0 2) 9 [2, 0] 0 .powerAction (some 0) ∧
    (((powered .softStopping (some (act .softOff)) .active).pw 0).state.acting = true ∧ ((powered .softStopping (some (act .softOff)) .active).pw 0).filtered = .active) := by
  refine ⟨owned ?_, owned ?_, owned ?_, ?_, owned ?_, owned ?_, owned ?_, owned ?_, ?_, owned ?_, owned ?_, owned ?_,
    owned ?_, owned ?_, owned ?_, ?_, owned ?_, ?_, owned ?_, ?_, owned ?_, ?_, owned ?_, owned ?_, ?_, owned ?_, ?_⟩ <;> decide +kernel

theorem witness_undefined_action :
    Owned demo (.undefinedKind (head op 0 2) 9 [5, 0]) (head op 0 2) 9 [5, 0] 0 .powerAction (some 0) ∧
    ∀ x, ([5, 0] : List Byte).head? = some x → 4 < x.toNat :=
  ⟨owned (by decide +kernel), fun x h => by cases h; decide⟩

/-- Node 0 with PGOOD high or low and its filter's wait running, in a power state. -/
def filtering (st : PowerState) (a : Option Action) (f : Filtered) (high : Bool) : State :=
  demo.putPower 0 { resetPower high with state := st, action := a, filtered := f, wait := some 20 }

theorem witness_filtered_level :
    demo.porn = true ∧
    ((demo.pw 0).raw = false ∧ (demo.pw 0).wait = none ∧ ((filtering .on none .active true).pw 0).wait = some 20) ∧
    (((filtering .unknown none .unacquired true).pw 0).state = .unknown ∧ ((filtering .unknown none .unacquired true).pw 0).filtered = .unacquired ∧ ((filtering .unknown none .unacquired true).pw 0).read = .active) ∧
    (((filtering .unknown none .unacquired false).pw 0).state = .unknown ∧ ((filtering .unknown none .unacquired false).pw 0).filtered = .unacquired ∧ ((filtering .unknown none .unacquired false).pw 0).read = .inactive) ∧
    (((filtering .starting (some (act .powerOn)) .inactive true).pw 0).state = .starting ∧ ((filtering .starting (some (act .powerOn)) .inactive true).pw 0).filtered = .inactive ∧ ((filtering .starting (some (act .powerOn)) .inactive true).pw 0).read = .active) ∧
    (((filtering .dwelling (some (act .cycle)) .inactive true).pw 0).state = .dwelling ∧ ((filtering .dwelling (some (act .cycle)) .inactive true).pw 0).filtered = .inactive ∧ ((filtering .dwelling (some (act .cycle)) .inactive true).pw 0).read = .active) ∧
    (((filtering .off none .inactive true).pw 0).state = .off ∧ ((filtering .off none .inactive true).pw 0).filtered = .inactive ∧ ((filtering .off none .inactive true).pw 0).read = .active) ∧
    (((filtering .on none .active false).pw 0).state = .on ∧ ((filtering .on none .active false).pw 0).filtered = .active ∧ ((filtering .on none .active false).pw 0).read = .inactive) ∧
    (((filtering .softStopping (some (act .softOff)) .active false).pw 0).state = .softStopping ∧ ((filtering .softStopping (some (act .softOff)) .active false).pw 0).filtered = .active ∧ ((filtering .softStopping (some (act .softOff)) .active false).pw 0).read = .inactive) ∧
    (((filtering .hardStopping (some (act .hardOff)) .active false).pw 0).state = .hardStopping ∧ ((filtering .hardStopping (some (act .hardOff)) .active false).pw 0).filtered = .active ∧ ((filtering .hardStopping (some (act .hardOff)) .active false).pw 0).read = .inactive) ∧
    (((filtering .hardStopping (some (act .cycle)) .active false).pw 0).state = .hardStopping ∧ ((filtering .hardStopping (some (act .cycle)) .active false).pw 0).filtered = .active ∧ ((filtering .hardStopping (some (act .cycle)) .active false).pw 0).read = .inactive) ∧
    (((filtering .resetting (some (act .reset)) .active false).pw 0).state = .resetting ∧ ((filtering .resetting (some (act .reset)) .active false).pw 0).filtered = .active ∧ ((filtering .resetting (some (act .reset)) .active false).pw 0).read = .inactive) ∧
    (((filtering .on none .active true).pw 0).state = .on ∧ ((filtering .on none .active true).pw 0).filtered = .active ∧ ((filtering .on none .active true).pw 0).read = .active) ∧
    (((filtering .off none .inactive false).pw 0).state = .off ∧ ((filtering .off none .inactive false).pw 0).filtered = .inactive ∧ ((filtering .off none .inactive false).pw 0).read = .inactive) ∧
    ((filtering .hardStopping (some (act .cycle)) .active false).pw 0).cycling = true := by
  decide +kernel

/-- Node 0 in a phase of an action, its timer at 100 ms. -/
def phased (st : PowerState) (k : ActionKind) (button : Bool) : State :=
  powered st (some (act k)) .inactive (fun p => { p with phase := some 100, button := button })

theorem witness_phase_timers :
    (((phased .starting .powerOn true).pw 0).phase = some 100 ∧ ((phased .starting .powerOn true).pw 0).button = true) ∧
    (((phased .softStopping .softOff true).pw 0).button = true ∧ ((phased .softStopping .softOff false).pw 0).state = .softStopping) ∧
    (((phased .starting .powerOn false).pw 0).button = false ∧ ((phased .hardStopping .hardOff true).pw 0).state = .hardStopping) ∧
    (((phased .resetting .reset false).pw 0).state = .resetting ∧ ((phased .dwelling .cycle false).pw 0).state = .dwelling) ∧
    ((demo.pw 0).phase = none ∧ (demo.pw 0).tick = none) ∧
    ((powered .hardStopping (some (act .hardOff)) .active (fun p => { p with tick := some 1 })).pw 0).tick = some 1 := by
  decide +kernel

/-- Node 0 in ON with its reattach timer running. -/
def reattaching : State := (powered .on none .active (fun p => { p with reattach := some 500, armed := true })).putPort 0 (resetPort true)

theorem witness_port_attaches :
    PortLaw reattaching ∧
    (reattaching.pw 0).reattach = some 500 ∧
    PortLaw on0 ∧
    ((on0.pw 0).reattach = none ∧ (on0.port 0).attached = true ∧ (on0.port 0).active = none) ∧
    (demo.port 0).attached = false ∧
    PortLaw (reading (.read 0 8 0 .waiting)) ∧
    ((reading (.read 0 8 0 .waiting)).port 0).active.isSome := by
  refine ⟨?_, ?_, ?_, ?_, ?_, ?_, ?_⟩ <;> first | decide +kernel | (unfold PortLaw; decide +kernel)

/-- Node 0 in ON with its permission and the boot-first indication, without bus power. -/
def grantedDark : State := (powered .on none .active (fun p => { p with granted := true })).putPort 0
  { resetPort false with grantBoot := true }

theorem witness_grant_waits : PortLaw grantedDark ∧ (grantedDark.pw 0).granted = true ∧ (grantedDark.port 0).attached = false := by
  unfold PortLaw; decide +kernel

theorem witness_clear_hold_boot_ok :
    (Takes demo (.clearHold (head op 8 0) []) (head op 8 0) 0x0A [] 0 ∧ 7 < (head op 8 0).node.toNat) ∧
    (Takes typist (.bootOk (head op 0 0) []) (head op 0 0) 0x0B [] 0 ∧ (head op 0 0).node = nodeByte 0 ∧ typist.holds 0 0 .power = false) ∧
    (Takes (watched demo (fun w => { w with state := .held, count := 3, faultHeld := true })) (.clearHold (head op 0 0) []) (head op 0 0) 0x0A [] 0 ∧ (watched demo (fun w => { w with state := .held, count := 3, faultHeld := true })).holds 0 0 .power = true ∧ ((watched demo (fun w => { w with state := .held, count := 3, faultHeld := true })).wt 0).state = .held) ∧
    (Takes (watched on0 (fun w => { w with state := .watching, timer := some 60000 })) (.bootOk (head op 0 0) []) (head op 0 0) 0x0B [] 0 ∧ (watched on0 (fun w => { w with state := .watching, timer := some 60000 })).holds 0 0 .power = true ∧ ((watched on0 (fun w => { w with state := .watching, timer := some 60000 })).wt 0).state = .watching) ∧
    (Takes demo (.bootOk (head op 0 1) [0]) (head op 0 1) 0x0B [0] 0 ∧ (demo.wt 0).state = .idle) := by
  refine ⟨⟨takes ?_, ?_⟩, ⟨takes ?_, ?_⟩, ⟨takes ?_, ?_⟩, ⟨takes ?_, ?_⟩, ⟨takes ?_, ?_⟩⟩ <;> decide +kernel

/-- Node 0 with its watch running, at a count under a limit. -/
def watching (s : State) (count limit : Nat) : State :=
  watched s (fun w => { w with state := .watching, timer := some 60000, count := count, limit := limit })

theorem witness_watch_expiry :
    (demo.porn = true ∧ (demo.wt 0).timer = none) ∧
    (((watching demo 0 0).wt 0).timer = some 60000 ∧ ((watching demo 0 0).wt 0).state = .watching ∧ ((watching demo 0 0).wt 0).limit = 0) ∧
    (((watching demo 3 3).wt 0).timer = some 60000 ∧ ((watching demo 3 3).wt 0).state = .watching ∧ ((watching demo 3 3).wt 0).limit ≠ 0 ∧ ((watching demo 3 3).wt 0).limit ≤ ((watching demo 3 3).wt 0).count) ∧
    (((watching on0 2 3).wt 0).timer = some 60000 ∧ ((watching on0 2 3).wt 0).state = .watching ∧ ((watching on0 2 3).wt 0).count + 1 = ((watching on0 2 3).wt 0).limit) ∧
    (((watching on0 0 3).wt 0).timer = some 60000 ∧ ((watching on0 0 3).wt 0).state = .watching ∧ ((watching on0 0 3).wt 0).count + 1 < ((watching on0 0 3).wt 0).limit) ∧
    (((watching on0 1 3).wt 0).timer = some 60000 ∧ ((watching on0 1 3).wt 0).state = .watching ∧ ((watching on0 1 3).wt 0).count + 1 < ((watching on0 1 3).wt 0).limit) ∧
    (((watching demo 0 2).wt 0).timer = some 60000 ∧ ((watching demo 0 2).wt 0).state = .watching ∧ ((watching demo 0 2).wt 0).count + 1 < ((watching demo 0 2).wt 0).limit) ∧
    ((on0.pw 0).state = .on ∧ (demo.pw 0).state ≠ .on) := by
  decide +kernel

/-! ## Witnesses: console lines and patterns -/

theorem witness_rates : 50 ≤ (50 : Nat) ∧ (1843200 : Nat) ≤ 1843200 ∧ 5 ≤ (⟨5, .none, 1⟩ : Framing).dataBits ∧
    (⟨8, .even, 2⟩ : Framing).dataBits ≤ 8 ∧ (⟨8, .even, 2⟩ : Framing).stopBits ≤ 2 ∧ 1 ≤ (⟨5, .none, 1⟩ : Framing).stopBits ∧
    (demo.lines.get 0).candidate < (demo.lines.get 0).settings.rates.length := by decide +kernel

/-- Node 0's receiver in a state. -/
def receiving (r : Receiver) : State := lined demo (fun l => { l with receiver := r, rxd := match r with
  | .quiet x => x.isSome
  | .ready => true
  | .character _ => true
  | .lowHold _ => false
  | .brk => false })

theorem witness_receiver :
    demo.porn = true ∧
    ((receiving .ready).lines.get 0).receiver = .ready ∧
    ((receiving (.character 174)).lines.get 0).receiver = (.character 174) ∧
    ((receiving (.lowHold 174)).lines.get 0).receiver = (.lowHold 174) ∧
    ((receiving .brk).lines.get 0).receiver = .brk ∧
    ((receiving (.quiet (some 87))).lines.get 0).receiver = (.quiet (some 87)) ∧
    ((receiving (.quiet none)).lines.get 0).receiver = (.quiet none) ∧
    (∀ x, ((receiving .ready).lines.get 0).receiver ≠ .quiet (some x)) ∧
    (∀ x, ((receiving .brk).lines.get 0).receiver ≠ .character x) ∧
    (∀ x, ((receiving .brk).lines.get 0).receiver ≠ .lowHold x) := by
  refine ⟨?_, ?_, ?_, ?_, ?_, ?_, ?_, (fun x h => by cases h), (fun x h => by cases h), (fun x h => by cases h)⟩ <;> decide +kernel

/-- Node 0 part-way through a character, an autobaud line with a further candidate. -/
def framing (errors laps goodRun discard candidate : Nat) (hunting autobaud : Bool) : State := lined demo (fun l => { l with
  receiver := .character 174, errors := errors, laps := laps, goodRun := goodRun, discard := discard, candidate := candidate,
  hunting := hunting, settings := { l.settings with autobaud := autobaud, further := [9600] } })

theorem witness_framed :
    (((framing 0 0 0 0 0 false true).lines.get 0).receiver = .character 174 ∧ ((framing 0 0 0 0 0 false true).lines.get 0).discard = 0) ∧
    ((framing 0 0 0 0 0 false true).completionsOf 0 (.char 65 false false false) = [] ∧ (demo.streams.get 0).ring.length < 1023) ∧
    0 < ((framing 0 0 0 2 0 false true).lines.get 0).discard ∧
    ((framing 14 0 0 0 0 false true).lines.get 0).errors < ((framing 14 0 0 0 0 false true).lines.get 0).settings.threshold ∧
    (¬(((framing 15 0 0 0 0 false false).lines.get 0).errors < ((framing 15 0 0 0 0 false false).lines.get 0).settings.threshold) ∧ ((framing 15 0 0 0 0 false false).lines.get 0).settings.autobaud = false) ∧
    (¬(((framing 15 3 0 0 1 true true).lines.get 0).errors < ((framing 15 3 0 0 1 true true).lines.get 0).settings.threshold) ∧ ((framing 15 3 0 0 1 true true).lines.get 0).candidate + 1 = ((framing 15 3 0 0 1 true true).lines.get 0).settings.rates.length ∧ 4 ≤ ((framing 15 3 0 0 1 true true).lines.get 0).laps + 1) ∧
    (¬(((framing 15 0 0 0 0 false true).lines.get 0).errors < ((framing 15 0 0 0 0 false true).lines.get 0).settings.threshold) ∧ ((framing 15 0 0 0 0 false true).lines.get 0).candidate + 1 < ((framing 15 0 0 0 0 false true).lines.get 0).settings.rates.length ∧ ((framing 15 0 0 0 0 false true).lines.get 0).hunting = false) ∧
    (((framing 0 0 31 0 0 true true).lines.get 0).hunting = true ∧ ¬(((framing 0 0 31 0 0 true true).lines.get 0).goodRun + 1 < 32)) ∧
    ((receiving (.lowHold 174)).lines.get 0).receiver = .lowHold 174 ∧
    (BitVec.ofNat 8 ((0 : Byte).toNat % 2 ^ 8) : Byte) = 0 := by
  decide +kernel

/-- Node 0's transmitter in a state, with items waiting. -/
def sending (x : Transmitter) : State := lined demo (fun l => { l with transmitter := x, txQueue := [.brk, .byte 65] })

theorem witness_transmitter :
    (((sending (.sending 65 defaultFraming 16)).lines.get 0).transmitter = .sending 65 defaultFraming 16 ∧ defaultFraming.dataBits ≤ 8) ∧
    ((sending (.breakLow 250000)).lines.get 0).transmitter = .breakLow 250000 ∧
    ((sending (.breakHigh 250087)).lines.get 0).transmitter = .breakHigh 250087 ∧
    (demo.lines.get 0).transmitter = .idle ∧
    (∀ y, (demo.lines.get 0).transmitter ≠ .breakLow y) := by
  refine ⟨?_, ?_, ?_, ?_, (fun x h => by cases h)⟩ <;> decide +kernel

/-- A matcher with the anchored pattern E, R, R, digit at index 2, for every node, at a progress. -/
def errPattern : Pattern := ⟨0xFF, true, .notify, [⟨false, 0x45, 0⟩, ⟨false, 0x52, 0⟩, ⟨false, 0x52, 0⟩, ⟨false, 0x30, 0x0F⟩]⟩
def matching (k : Nat) (start : Bool) : Matcher := { resetMatcher with
  table := resetMatcher.table.put 2 (some errPattern), progress := resetMatcher.progress.put 0 ((Tab.fill 32 0).put 2 k)
  lineStart := resetMatcher.lineStart.put 0 start }

theorem witness_patterns : (matching 3 false).table.get 2 = some errPattern ∧ errPattern.mask.getLsbD (0 : NodeId).val = true ∧
    (matching 3 false).table.get 1 = none ∧ (matching 3 false).progressOf 0 2 = 3 ∧
    (⟨.char 0x37 false false false, false⟩ : Entry).kind = .char 0x37 false false false ∧
    (∀ a b c d, (⟨.brk, true⟩ : Entry).kind ≠ .char a b c d) := by
  refine ⟨?_, ?_, ?_, ?_, rfl, fun a b c d h => by cases h⟩ <;> decide +kernel

/-- Node 0 part-way through a character, E, R, R before it. -/
def errLine : State := (receiving (.character 174)).putMatcher (matching 3 false)

theorem witness_completing : (errLine.porn = true ∧ (errLine.lines.get 0).receiver = .character 174 ∧ (errLine.lines.get 0).discard = 0) ∧
    errLine.completionsOf 0 (.char 0x37 false false false) = [2] := by decide +kernel

/-- Node 0 in ON with fault reboot on, at a count under a limit. -/
def faulty (count limit : Nat) : State := watched on0 (fun w => { w with faultReboot := true, count := count, limit := limit })

theorem witness_pattern_actions : (on0.wt 0).faultReboot = false ∧ ((faulty 0 0).wt 0).faultReboot = true ∧ ((faulty 0 0).pw 0).state = .on ∧
    ((faulty 0 0).pw 0).action = none ∧ ((faulty 0 0).wt 0).state ≠ .held ∧ ((faulty 2 3).wt 0).limit ≤ ((faulty 2 3).wt 0).count + 1 ∧
    ((faulty 3 3).wt 0).limit ≤ ((faulty 3 3).wt 0).count ∧ ((faulty 1 3).wt 0).count + 1 < ((faulty 1 3).wt 0).limit ∧
    ((watching on0 1 3).wt 0).state = .watching := by decide +kernel

/-- Node 0 in ON, its hold standing in IDLE at a count under a limit. -/
def standing (count limit : Nat) : State :=
  watched on0 (fun w => { w with timeS := 0, faultReboot := true, faultHeld := true, count := count, limit := limit })

theorem witness_hold_stands : ((standing 2 5).wt 0).faultHeld = true ∧ ((standing 2 5).wt 0).state = .idle ∧
    ((standing 2 5).pw 0).state = .on ∧ ((standing 2 5).pw 0).action = none ∧ ((standing 2 5).wt 0).limit ≠ 0 := by decide +kernel

/-! ## Witnesses: virtual media -/

theorem witness_describing :
    ((media (.present ro 1954)).porn = true ∧ ((media (.present ro 1954)).port 0).attached = true ∧ ((media (.present ro 1954)).port 0).active = none) ∧
    (((media (.present ro 1954)).port 0).medium = .present ro 1954 ∧ ((media (.present ro 1954)).port 0).changed = false) ∧
    ((on0.port 0).attached = true ∧ (on0.port 0).medium.isPresent = false) ∧
    (demo.port 0).attached = false ∧
    ((reading (.read 0 8 0 .waiting)).port 0).active.isSome ∧
    exec (.read 0 0 1) (media (.present ro 1954)) = .next (after (.read 0 0 1) (media (.present ro 1954))) := by
  refine ⟨?_, ?_, ?_, ?_, ?_, rfl⟩ <;> decide +kernel

theorem witness_reads :
    ((on0.port 0).medium.isPresent = false ∧ (on0.port 0).attached = true ∧ (on0.port 0).active = none) ∧
    (((media (.present ro 1954)).port 0).medium = .present ro 1954 ∧ (media (.present ro 1954)).image 0 = some ⟨0, 51, false, 1, 0, .opened 7 1000000⟩) ∧
    (1954 < (1953 : BitVec 32).toNat + (2 : BitVec 16).toNat ∧ (1953 : BitVec 32).toNat + (1 : BitVec 16).toNat ≤ 1954) ∧
    (cached (media (.present ro 1954)) 0 true).pool.lookup ⟨0, 51, BitVec.ofNat 32 ((0 : BitVec 32).toNat * ro.size.bytes / 4096)⟩ = some (0, ⟨⟨0, 51, 0⟩, true, false, true, 0, List.range 8, [[], [], [], []]⟩) ∧
    (cached (media (.present ro 1954)) 0 false).pool.lookup ⟨0, 51, BitVec.ofNat 32 ((0 : BitVec 32).toNat * ro.size.bytes / 4096)⟩ = some (0, ⟨⟨0, 51, 0⟩, false, false, true, 1, List.range 8, [[], [], [], []]⟩) ∧
    (media (.present ro 1954)).pool.lookup ⟨0, 51, BitVec.ofNat 32 ((0 : BitVec 32).toNat * ro.size.bytes / 4096)⟩ = none ∧
    ((reading (.read 0 9 0 .waiting)).port 0).active = some (.read 0 9 0 .waiting) ∧
    ((cached (reading (.read 0 9 0 (.delivering 0))) 0 true).port 0).active = some (.read 0 9 0 (.delivering 0)) ∧
    (cached (reading (.read 0 9 0 (.delivering 0))) 0 true).pool.extents.get 0 = some ⟨⟨0, 51, 0⟩, true, false, true, 0, List.range 8, [[], [], [], []]⟩ ∧
    ((reading (.read 0 9 0 (.delivering 0))).port 0).medium.ref? = some ro ∧
    ((min 4095 (min (9 * 512 - 0) 4096) % 4096 ≠ 0) ∧ (min 5000 (min (9 * 512 - 0) 4096) % 4096 = 0) ∧ ¬(9 * 512 ≤ 0 + 4096) ∧ 9 * 512 ≤ 4096 + min 600 (9 * 512 - 4096)) := by
  decide +kernel

theorem witness_writes :
    (on0.port 0).medium.isPresent = false ∧
    (((media (.present ro 1954)).port 0).medium = .present ro 1954 ∧ ro.writable = false) ∧
    (((media (.present rw 1954) (.opened 7 1000000) true).port 0).medium = .present rw 1954 ∧ rw.writable = true ∧ ((media (.present rw 1954) (.opened 7 1000000) true).port 0).attached = true ∧ ((media (.present rw 1954) (.opened 7 1000000) true).port 0).active = none) ∧
    (1954 < (1952 : BitVec 32).toNat + (3 : BitVec 16).toNat ∧ (1951 : BitVec 32).toNat + (3 : BitVec 16).toNat ≤ 1954) ∧
    (∀ a k d b, (on0.port 0).active ≠ some (.write a k d b)) ∧
    (((reading (.write 7 3 0 false) rw).port 0).active = some (.write 7 3 0 false) ∧ (reading (.write 7 3 0 false) rw).outstanding 0 = false ∧ ((reading (.write 7 3 0 false) rw).port 0).medium.ref? = some rw) ∧
    (reading (.write 7 3 0 false) rw).image rw.image = some ⟨0, 51, true, 1, 0, .opened 7 1000000⟩ ∧
    ((((reading (.write 7 3 0 false) rw).port 0).staging ++ List.replicate 1024 1).length = min 1024 ((3 - 0) * 512) ∧ (((reading (.write 7 3 0 false) rw).port 0).staging ++ List.replicate 1023 1).length < 1024) ∧
    (((reading (.write 7 3 2 false) rw).port 0).staging ++ List.replicate 512 1).length = min 1024 ((3 - 2) * 512) ∧
    (writing (reading (.write 7 3 2 true) rw) false .sending).outstanding 0 = true := by
  refine ⟨?_, ?_, ?_, ?_, (fun a k d b h => by cases h), ?_⟩ <;> decide +kernel

/-- Record 0 of image 51 in use by node 1, in a phase. -/
def inUse (writable : Bool) (phase : ImagePhase) (m : MediumRef → Medium) : State :=
  (demo.putImage 0 (some ⟨0, 51, writable, 2, 0, phase⟩)).putPort 1 { demo.port 1 with medium := m ⟨0, .b512, writable⟩ }

/-- Every record in use, each by one node, none by node 0 but the first. -/
def fullImages : State := allNodes.foldl (fun s n => s.putImage n (some ⟨0, BitVec.ofNat 32 n.val, false, 0, 0, .opened 7 1000⟩)) demo

theorem witness_insert :
    Owned demo (.mediaInsert (head op 0 1) [0]) (head op 0 1) 12 [0] 0 .mediaInsert (some 0) ∧
    Owned demo (.mediaInsert (head op 0 8) [32, 0, 0, 0, 51, 2, 0, 0]) (head op 0 8) 12 [32, 0, 0, 0, 51, 2, 0, 0] 0 .mediaInsert (some 0) ∧
    Owned demo (.mediaInsert (head op 0 8) [0, 0, 0, 0, 51, 8, 0, 1]) (head op 0 8) 12 [0, 0, 0, 0, 51, 8, 0, 1] 0 .mediaInsert (some 0) ∧
    Owned (media (.present ro 1954)) (.mediaInsert (head op 0 8) [0, 0, 0, 0, 51, 2, 0, 0]) (head op 0 8) 12 [0, 0, 0, 0, 51, 2, 0, 0] 0 .mediaInsert (some 0) ∧
    ((media (.present ro 1954)).port 0).medium ≠ .empty ∧
    ([0, 0, 0, 0, 51, 2, 0, 0] = be 1 0 ++ be 4 51 ++ be 2 512 ++ [0] ∧ (demo.port 0).medium = .empty) ∧
    Owned demo (.mediaInsert (head op 0 8) [5, 0, 0, 0, 51, 2, 0, 0]) (head op 0 8) 12 [5, 0, 0, 0, 51, 2, 0, 0] 0 .mediaInsert (some 0) ∧
    ((demo.station 5).mayServe (demo.su.tenants.get 0) = false ∧ (demo.station 0).mayServe (demo.su.tenants.get 0) = true) ∧
    Owned (inUse true (.opened 7 1000) (fun m => .present m 2)) (.mediaInsert (head op 0 8) [0, 0, 0, 0, 51, 2, 0, 0]) (head op 0 8) 12 [0, 0, 0, 0, 51, 2, 0, 0] 0 .mediaInsert (some 0) ∧
    ImageLaw (inUse true (.opened 7 1000) (fun m => .present m 2)) ∧
    Owned (inUse false (.opened 7 1000) (fun m => .present m 2)) (.mediaInsert (head op 0 8) [0, 0, 0, 0, 51, 2, 0, 0]) (head op 0 8) 12 [0, 0, 0, 0, 51, 2, 0, 0] 0 .mediaInsert (some 0) ∧
    ImageLaw (inUse false (.opened 7 1000) (fun m => .present m 2)) ∧
    (inUse false (.opened 7 1000) (fun m => .present m 2)).image 0 = some ⟨0, 51, false, 2, 0, .opened 7 1000⟩ ∧
    (4294967295 < (2199023255041 + 512 - 1) / 512 ∧ (2199023255040 + 512 - 1) / 512 ≤ 4294967295) ∧
    ImageLaw (inUse false (.opening 2000 true) .loading) ∧
    Owned (inUse false (.opening 2000 true) .loading) (.mediaInsert (head op 0 8) [0, 0, 0, 0, 51, 2, 0, 0]) (head op 0 8) 12 [0, 0, 0, 0, 51, 2, 0, 0] 0 .mediaInsert (some 0) ∧
    Owned demo (.mediaInsert (head op 0 8) [0, 0, 0, 0, 51, 2, 0, 0]) (head op 0 8) 12 [0, 0, 0, 0, 51, 2, 0, 0] 0 .mediaInsert (some 0) ∧
    ImageLaw demo ∧
    demo.image 0 = none ∧
    Owned fullImages (.mediaInsert (head op 0 8) [0, 0, 0, 0, 51, 2, 0, 0]) (head op 0 8) 12 [0, 0, 0, 0, 51, 2, 0, 0] 0 .mediaInsert (some 0) ∧
    ImageLaw fullImages ∧
    (∀ q, (fullImages.image q).isSome) := by
  refine ⟨owned ?_, owned ?_, owned ?_, owned ?_, ?_, ?_, owned ?_, ?_, owned ?_, imageLaw ?_, owned ?_, imageLaw ?_,
    ?_, ?_, imageLaw ?_, owned ?_, owned ?_, imageLaw ?_, ?_, owned ?_, imageLaw ?_, ?_⟩ <;> decide +kernel

/-- `media` with the node lock set. -/
def locked : State := (media (.present ro 1954)).putPort 0 { (media (.present ro 1954)).port 0 with lock := true }

theorem witness_eject :
    Owned demo (.mediaEject (head op 0 0) []) (head op 0 0) 13 [] 0 .mediaEject (some 0) ∧
    Owned demo (.mediaEject (head op 0 1) [0]) (head op 0 1) 13 [0] 0 .mediaEject (some 0) ∧
    (demo.port 0).medium = .empty ∧
    Owned (media (.ejecting rw 1954 .node)) (.mediaEject (head op 0 1) [1]) (head op 0 1) 13 [1] 0 .mediaEject (some 0) ∧
    ((media (.ejecting rw 1954 .node)).port 0).medium.code = 3 ∧
    Owned locked (.mediaEject (head op 0 1) [0]) (head op 0 1) 13 [0] 0 .mediaEject (some 0) ∧
    ((locked.port 0).lock = true ∧ (0 : Byte).getLsbD 0 = false) ∧
    Owned locked (.mediaEject (head op 0 1) [1]) (head op 0 1) 13 [1] 0 .mediaEject (some 0) ∧
    (1 : Byte).getLsbD 0 = true ∧
    Owned (media (.loading ro) (.opening 2000 true)) (.mediaEject (head op 0 1) [0]) (head op 0 1) 13 [0] 0 .mediaEject (some 0) ∧
    (((media (.loading ro) (.opening 2000 true)).port 0).lock = false ∧ ¬(((media (.loading ro) (.opening 2000 true)).port 0).medium = .empty ∨ ((media (.loading ro) (.opening 2000 true)).port 0).medium.code = 3)) ∧
    ((on0.port 0).attached = true ∧ (on0.port 0).active = none ∧ (on0.port 0).medium = .empty) := by
  refine ⟨owned ?_, owned ?_, ?_, owned ?_, ?_, owned ?_, ?_, owned ?_, ?_, owned ?_, ?_⟩ <;> decide +kernel

/-! ## Witnesses: the image service -/

theorem demo_no_image (r : ImageIx) : demo.image r = none := by revert r; decide +kernel
theorem demo_no_write : (demo.images.writes.get 0).live = none := by decide +kernel

/-- The part with a fetch of extent 0 of record 0 running for node 0. -/
def oneFetch (received : BitVec 4) (second : Bool) (timer : Option Nat) (stale : Bool := false) : State :=
  fetching (cached (reading (.read 0 8 0 .waiting)) 0 false stale) 0 received second timer

/-- An EXTENT_DATA body for it. -/
def fragment (frag : Byte) : List Byte := [5, 7, frag, 0] ++ be 2 4 ++ [1, 2, 3, 4]

/-- The part with a BLOCK_WRITE of node 0 running. -/
def oneWrite (m : Medium) (second : Bool) (phase : WritePhase) (failures : Nat := 0) : State :=
  writing (media m (.opened 7 1000000) true failures) second phase

theorem witness_screening :
    Takes demo (.openReply (head op 15 1) [0]) (head op 15 1) 0x20 [0] 0 ∧
    Takes demo (.openReply (head op 15 14) (be 4 51 ++ be 4 9 ++ be 6 1000000)) (head op 15 14) 0x20 (be 4 51 ++ be 4 9 ++ be 6 1000000) 0 ∧
    ((¬∃ r y, demo.image r = some y ∧ y.server = (0 : StationIx))) ∧
    Takes (media (.present ro 1954)) (.openReply (head op 15 14) (be 4 51 ++ be 4 9 ++ be 6 1000000)) (head op 15 14) 0x20 (be 4 51 ++ be 4 9 ++ be 6 1000000) 0 ∧
    (∃ r y, (media (.present ro 1954)).image r = some y ∧ y.server = (0 : StationIx)) ∧
    Takes (media (.present ro 1954)) (.openReply (head op 15 14) (be 4 51 ++ be 4 9 ++ be 6 0)) (head op 15 14) 0x20 (be 4 51 ++ be 4 9 ++ be 6 0) 0 ∧
    Takes (media (.present ro 1954)) (.openReply (head op 15 14) (be 4 51 ++ be 4 9 ++ be 6 2199023255552)) (head op 15 14) 0x20 (be 4 51 ++ be 4 9 ++ be 6 2199023255552) 0 ∧
    2 ^ 41 ≤ field (be 4 51 ++ be 4 9 ++ be 6 2199023255552) 8 6 ∧
    Takes (oneFetch 0 false (some 400)) (.extentData (head op 15 6) [5, 7, 4, 0, 0, 0]) (head op 15 6) 0x21 [5, 7, 4, 0, 0, 0] 0 ∧
    3 < byteAt [5, 7, 4, 0, 0, 0] 2 ∧
    Takes (oneFetch 0 false (some 400)) (.extentData (head op 15 6) [5, 7, 0, 0, 4, 1]) (head op 15 6) 0x21 [5, 7, 0, 0, 4, 1] 0 ∧
    1024 < field [5, 7, 0, 0, 4, 1] 4 2 ∧
    Takes (oneFetch 0 false (some 400)) (.extentData (head op 15 6) [32, 7, 0, 0, 0, 0]) (head op 15 6) 0x21 [32, 7, 0, 0, 0, 0] 0 ∧
    Takes (oneFetch 0 false (some 400)) (.extentData (head op 15 6) [5, 6, 0, 0, 0, 0]) (head op 15 6) 0x21 [5, 6, 0, 0, 0, 0] 0 ∧
    (((oneFetch 0 false (some 400)).images.fetches.get 5).live = some ⟨0, 0, 4, 0, 0, false, some 400⟩ ∧ ((oneFetch 0 false (some 400)).images.fetches.get 5).generation = 7) ∧
    Takes (served.putFetch 5 ⟨7, some ⟨1, 0, 2, 0, 0, false, some 400⟩⟩) (.extentData (head guest 15 6) [5, 7, 2, 0, 0, 0]) (head guest 15 6) 0x21 [5, 7, 2, 0, 0, 0] 1 ∧
    2 ≤ byteAt [5, 7, 2, 0, 0, 0] 2 ∧
    Takes (oneWrite (.present rw 1954) false (.waiting 400)) (.writeReply (head op 15 3) [0, 7, 2]) (head op 15 3) 0x22 [0, 7, 2] 0 ∧
    1 < byteAt [0, 7, 2] 2 ∧
    Takes (oneWrite (.present rw 1954) false (.waiting 400)) (.writeReply (head op 15 3) [8, 7, 0]) (head op 15 3) 0x22 [8, 7, 0] 0 ∧
    Takes (oneWrite (.present rw 1954) false (.waiting 400)) (.writeReply (head op 15 3) [0, 6, 0]) (head op 15 3) 0x22 [0, 6, 0] 0 ∧
    Takes (oneWrite (.present rw 1954) false .sending) (.writeReply (head op 15 3) [0, 7, 0]) (head op 15 3) 0x22 [0, 7, 0] 0 ∧
    ((oneWrite (.present rw 1954) false .sending).images.writes.get 0).live = some ⟨0, 3584, 1024, false, .sending⟩ := by
  refine ⟨takes ?_, takes ?_, (fun ⟨r, _, h, _⟩ => by rw [demo_no_image r] at h; cases h), takes ?_, ⟨0, ⟨0, 51,
    false, 1, 0, .opened 7 1000000⟩, ?_, rfl⟩, takes ?_, takes ?_, ?_, takes ?_, ?_, takes ?_, ?_, takes ?_, takes ?_,
    ?_, takes ?_, ?_, takes ?_, ?_, takes ?_, takes ?_, takes ?_, ?_⟩ <;> decide +kernel

/-- `oneFetch` beside a record of station 1, and a write. -/
def twoServers : State := (oneFetch 0 false (some 400)).putImage 1 (some ⟨1, 52, false, 0, 0, .opened 7 1000⟩)

theorem witness_foreign : Takes twoServers (.extentData (head guest 15 6) [5, 7, 0, 0, 0, 0]) (head guest 15 6) 0x21 [5, 7, 0, 0, 0, 0] 1 ∧
    (∃ r y, twoServers.image r = some y ∧ y.server = (1 : StationIx)) ∧
    (∃ x, twoServers.image 0 = some x ∧ x.server ≠ 1) ∧ (twoServers.images.fetches.get 5).live.isSome := by
  refine ⟨takes ?_, ⟨1, ⟨1, 52, false, 0, 0, .opened 7 1000⟩, ?_, rfl⟩, ⟨⟨0, 51, false, 1, 0, .opened 7 1000000⟩, ?_,
    by decide⟩, ?_⟩ <;> decide +kernel

theorem witness_opens :
    ImageLaw (media (.loading ro) (.opening 2000 true)) ∧
    (media (.loading ro) (.opening 2000 true)).image 0 = some ⟨0, 51, false, 1, 0, .opening 2000 true⟩ ∧
    Takes (media (.loading ro) (.opening 2000 true)) (.openReply (head op 15 14) (be 4 51 ++ be 4 9 ++ be 6 1000000)) (head op 15 14) 0x20 (be 4 51 ++ be 4 9 ++ be 6 1000000) 0 ∧
    (1 ≤ field (be 4 51 ++ be 4 9 ++ be 6 1000000) 8 6 ∧ field (be 4 51 ++ be 4 9 ++ be 6 1000000) 8 6 < 2 ^ 41 ∧ 14 ≤ (be 4 51 ++ be 4 9 ++ be 6 1000000).length) ∧
    Takes (media (.loading ro) (.opening 2000 true)) (.openReply (head op 15 14) (be 4 51 ++ be 4 9 ++ be 6 2199023255551)) (head op 15 14) 0x20 (be 4 51 ++ be 4 9 ++ be 6 2199023255551) 0 ∧
    4294967295 < (field (be 4 51 ++ be 4 9 ++ be 6 2199023255551) 8 6 + 512 - 1) / 512 ∧
    ImageLaw (media (.present ro 1954)) ∧
    (∃ x, (media (.present ro 1954)).image 0 = some x ∧ x.isOpening = false ∧ x.users ≠ 0) := by
  refine ⟨imageLaw ?_, ?_, takes ?_, ?_, takes ?_, ?_, imageLaw ?_, ⟨⟨0, 51, false, 1, 0, .opened 7 1000000⟩, ?_⟩⟩ <;> decide +kernel

theorem witness_fragments :
    Takes (oneFetch 0 false (some 400)) (.extentData (head op 15 10) (fragment 3)) (head op 15 10) 0x21 (fragment 3) 0 ∧
    (6 + field (fragment 3) 4 2 ≤ (fragment 3).length ∧ byteAt (fragment 3) 0 = (5 : FetchIx).val ∧ byteAt (fragment 3) 1 = ((oneFetch 0 false (some 400)).images.fetches.get 5).generation.toNat) ∧
    (oneFetch 0 false (some 400)).pool.extents.get 0 = some ⟨⟨0, 51, 0⟩, false, false, true, 1, List.range 8, [[], [], [], []]⟩ ∧
    (∃ x, (oneFetch 0 false (some 400)).image 0 = some x ∧ x.server = 0) ∧
    Takes (oneFetch 8 false (some 400)) (.extentData (head op 15 10) (fragment 3)) (head op 15 10) 0x21 (fragment 3) 0 ∧
    (8 : BitVec 4).getLsbD 3 = true ∧
    Takes (oneFetch 7 false (some 400)) (.extentData (head op 15 10) (fragment 3)) (head op 15 10) 0x21 (fragment 3) 0 ∧
    (∀ q, q < 4 → ((7 : BitVec 4) ||| (1#4 <<< 3)).getLsbD q = true) ∧
    (oneFetch 7 false (some 400)).waiters ⟨0, 51, 0⟩ = [0] ∧
    Takes (oneFetch 7 false (some 400) true) (.extentData (head op 15 10) (fragment 3)) (head op 15 10) 0x21 (fragment 3) 0 ∧
    ((oneFetch 7 false (some 400) true).pool.extents.get 0).map Extent.stale = some true ∧
    (((oneFetch 7 false (some 400) true).port 0).active = some (.read 0 8 0 .waiting) ∧ (0 : Nat) < 8 * ro.size.bytes) := by
  refine ⟨takes ?_, ?_, ?_, ⟨⟨0, 51, false, 1, 0, .opened 7 1000000⟩, ?_, rfl⟩, takes ?_, ?_, takes ?_, ?_, ?_, takes
    ?_, ?_⟩ <;> decide +kernel

theorem witness_fetch_timer :
    ((oneFetch 0 false (some 400)).porn = true ∧ (demo.images.fetches.get 0).live = none) ∧
    (((oneFetch 0 false (some 400)).images.fetches.get 5).live = some ⟨0, 0, 4, 0, 0, false, some 400⟩ ∧ 1 ≤ (oneFetch 0 false (some 400)).up.outside) ∧
    ((oneFetch 0 false none).images.fetches.get 5).live.bind Fetch.timer = none ∧
    ((oneFetch 0 true (some 800)).images.fetches.get 5).live = some ⟨0, 0, 4, 0, 0, true, some 800⟩ ∧
    ImageLaw (oneFetch 0 true (some 800)) ∧
    (∃ x, (oneFetch 0 false (some 400)).image 0 = some x) := by
  refine ⟨?_, ?_, ?_, ?_, imageLaw ?_, ⟨⟨0, 51, false, 1, 0, .opened 7 1000000⟩, ?_⟩⟩ <;> decide +kernel

/-- `oneFetch` at its second expiry, the record with two failures, beside a fetch of another record. -/
def twoFetches : State := ((oneFetch 0 true (some 800)).putImage 0 (some ⟨0, 51, false, 1, 2, .opened 7 1000000⟩)).putImage 1
    (some ⟨1, 52, false, 0, 0, .opened 7 1000⟩) |>.putFetch 6 ⟨1, some ⟨1, 0, 1, 0, 1, false, some 900⟩⟩

/-- A write at the guest's index leaves the fetch of a record whose server it is not. -/
theorem witness_fetch_stands :
    Owned (oneFetch 0 false (some 400)) (.tableWriteStation (head op 15 3) [1, 0]) (head op 15 3) 2 [1, 1, 0] 0 .tableWrite none ∧
    ImageLaw (oneFetch 0 false (some 400)) ∧ FetchLaw (oneFetch 0 false (some 400)) ∧
    (∀ n, (oneFetch 0 false (some 400)).servedBy 1 n = false) ∧
    ((oneFetch 0 false (some 400)).images.fetches.get 5).live.isSome := by
  refine ⟨owned ?_, imageLaw ?_, fetchLaw ?_, ?_, ?_⟩ <;> decide +kernel

theorem witness_fetch_fails :
    (oneFetch 0 true (some 800)).images.needs = [] ∧ ((oneFetch 0 true (some 800)).image 0).map ImageRec.failures = some 0 ∧
    ImageLaw twoFetches ∧ twoFetches.image 0 = some ⟨0, 51, false, 1, 2, .opened 7 1000000⟩ ∧
    (twoFetches.images.fetches.get 5).live = some ⟨0, 0, 4, 0, 0, true, some 800⟩ ∧
    (twoFetches.images.fetches.get 6).live = some ⟨1, 0, 1, 0, 1, false, some 900⟩ := by
  refine ⟨?_, ?_, imageLaw ?_, ?_, ?_, ?_⟩ <;> decide +kernel

theorem witness_write_end :
    Takes (oneWrite (.present rw 1954) false (.waiting 400)) (.writeReply (head op 15 3) [0, 7, 0]) (head op 15 3) 0x22 [0, 7, 0] 0 ∧
    Takes (oneWrite (.present rw 1954) false (.waiting 400)) (.writeReply (head op 15 3) [0, 7, 1]) (head op 15 3) 0x22 [0, 7, 1] 0 ∧
    (((oneWrite (.present rw 1954) false (.waiting 400)).images.writes.get 0).live = some ⟨0, 3584, 1024, false, .waiting 400⟩ ∧ ((oneWrite (.present rw 1954) false (.waiting 400)).images.writes.get 0).generation = 7 ∧ 1 ≤ (oneWrite (.present rw 1954) false (.waiting 400)).up.outside) ∧
    ImageLaw (oneWrite (.present rw 1954) false (.waiting 400)) ∧
    FetchLaw (oneWrite (.present rw 1954) false (.waiting 400)) ∧
    ImageLaw (oneWrite (.present rw 1954) true (.waiting 800) 2) ∧
    FetchLaw (oneWrite (.present rw 1954) true (.waiting 800) 2) ∧
    ((oneWrite (.present rw 1954) true (.waiting 800) 2).images.writes.get 0).live = some ⟨0, 3584, 1024, true, .waiting 800⟩ ∧
    ImageLaw (oneWrite (.ejecting rw 1954 .node) true (.waiting 800)) ∧
    FetchLaw (oneWrite (.ejecting rw 1954 .node) true (.waiting 800)) ∧
    (∃ x, (oneWrite (.present rw 1954) false (.waiting 400)).image 0 = some x ∧ x.server = 0) ∧
    (∀ w d, (demo.images.writes.get 0).live = some w → w.phase ≠ .waiting d) := by
  refine ⟨takes ?_, takes ?_, ?_, imageLaw ?_, fetchLaw ?_, imageLaw ?_, fetchLaw ?_, ?_, imageLaw ?_, fetchLaw ?_,
    ⟨⟨0, 51, true, 1, 0, .opened 7 1000000⟩, ?_, rfl⟩, (fun w d h => by rw [demo_no_write] at h; cases h)⟩ <;> decide +kernel

/-! ## Witnesses: the Settings Loader and restart -/

theorem witness_save_reload :
    Owned demo (.save (head op 15 0) []) (head op 15 0) 0x0E [] 0 .save none ∧
    demo.loader.activity = .idle ∧
    Owned demo (.save (head op 15 1) [0]) (head op 15 1) 0x0E [0] 0 .save none ∧
    Owned (saveRun [9] .blank) (.save (head op 15 0) []) (head op 15 0) 0x0E [] 0 .save none ∧
    (saveRun [9] .blank).loader.activity ≠ .idle ∧
    Owned demo (.reload (head op 15 0) []) (head op 15 0) 0x0F [] 0 .reload none ∧
    Owned demo (.reload (head op 15 1) [0]) (head op 15 1) 0x0F [0] 0 .reload none ∧
    Owned (saveRun [9] .blank) (.reload (head op 15 0) []) (head op 15 0) 0x0F [] 0 .reload none ∧
    (demo.saving = false ∧ demo.porn = true) ∧
    (saveRun [9] .final).loader.activity = .saving [9] .final 50 ∧
    (saveRun [9] .blank).loader.activity = .saving [9] .blank 50 ∧
    ((saveRun (List.replicate 512 9) (.page 1)).loader.activity = .saving (List.replicate 512 9) (.page 1) 50 ∧ 511 < (List.replicate 512 (9 : Byte)).length) ∧
    ConfigLaw (saveRun [9] .final) := by
  refine ⟨owned ?_, ?_, owned ?_, owned ?_, ?_, owned ?_, owned ?_, owned ?_, ?_, ?_, ?_, ?_, ?_⟩
    <;> first | decide +kernel | (unfold ConfigLaw; decide +kernel)

theorem witness_restart :
    Owned busy (.restart (head op 15 0) []) (head op 15 0) 0x10 [] 0 .restart none ∧
    Owned demo (.restart (head op 15 1) [0]) (head op 15 1) 0x10 [0] 0 .restart none ∧
    CellLaw busy ∧
    (1 ≤ (busy.streams.get 0).settings.histMin ∧ (busy.streams.get 0).ring ≠ []) := by
  refine ⟨owned ?_, owned ?_, ?_, ?_⟩ <;> first | decide +kernel | (unfold CellLaw; decide +kernel)

/-! ## Worked steps of the manual, one step each -/

/-- Three elements of a stream of node 5 in the batch example of 3.9: two attachments and ten entries from offset 2,000. -/
def batching : State := streamed demo (fun t => { t with
  ring := List.replicate 10 ⟨.char 65 false false false, false⟩, offset := 2010, flush := some 348
  atts := [⟨0, .watch, 60000, none⟩, ⟨1, .watch, 60000, none⟩], settings := { t.settings with trigger := 16 } })

/-- 3.9: the flush timer's expiry forms one batch, two frames. -/
theorem test_flush_batch : ((after (.flushTimerExpiry 0) batching).streams.get 0).ring = [] ∧
    (after (.flushTimerExpiry 0) batching).up.frames.length = 2 ∧
    ((after (.flushTimerExpiry 0) batching).up.frames.map (fun f => field f.body 0 4)) = [2000, 2000] := by decide +kernel

theorem test_input_partial :
    resultOf (after (.consoleInput (head op 0 4) [0x1C, 0x71, 0x77, 0x65]) nearlyFull) = some Result.partialTaken.code ∧
    answerOf (after (.consoleInput (head op 0 4) [0x1C, 0x71, 0x77, 0x65]) nearlyFull) = [0, 3, 0, 0] ∧
    ((after (.consoleInput (head op 0 4) [0x1C, 0x71, 0x77, 0x65]) nearlyFull).lines.get 0).txQueue.length = 256 := by decide +kernel

/-- 3.9: REPLAY from 9,000 starts at the oldest offset, 10,000. -/
theorem test_replay_clamped : answerOf (after (.replay (head op 0 4) [0, 0, 0x23, 0x28]) historied) = be 4 10000 ++ be 4 10099 := by
  decide +kernel

/-- 4.7: a digit completes E, R, R, digit, and PATTERN is raised with index 2. -/
theorem test_pattern_completes :
    ((after (.characterFramed 0 0x37 false true) errLine).matcher.progressOf 0 2) = 0 ∧
    (after (.characterFramed 0 0x37 false true) errLine).up.frames.map (fun f => field f.body 4 2) = [2, 2] := by decide +kernel

/-- 2.3: a character with every bit low is a break candidate; its low hold ends in a BREAK entry. -/
theorem test_low_hold : ((after (.characterFramed 0 0 false false) (receiving (.character 174))).lines.get 0).receiver = .lowHold 174 ∧
    ((after (.breakDetected 0) (receiving (.lowHold 174))).streams.get 0).history = [⟨.brk, false⟩] := by decide +kernel

/-- 2.3: a stop bit sampled low leaves RXD low; settings written then wait for RXD to rise (R23, R31). -/
theorem test_quiet_waits_for_rxd : let s := after (.characterFramed 0 1 false false) (receiving (.character 174));
    let t := after (.tableWriteNodeLine (head op 0 14) [0, 0, 1, 0xC2, 0, 0, 8, 0, 1, 1, 80, 0, 250]) s;
    (s.lines.get 0).receiver = .ready ∧ (t.lines.get 0).receiver = .quiet none ∧
    ((after (.quietWaitRestart 0 true) t).lines.get 0).receiver = .quiet (some 87) := by decide +kernel

/-- 5.10: a CYCLE of node 0 to the medium holds the button until 6,000 ms; the port is detached. -/
theorem test_cycle_taken : ((after (.cycle (head op 0 2) [1]) (media (.present ro 1954))).pw 0).phase = some 6000 ∧
    ((after (.cycle (head op 0 2) [1]) (media (.present ro 1954))).port 0).attached = false ∧
    resultOf (after (.cycle (head op 0 2) [1]) (media (.present ro 1954))) = some Result.ok.code := by decide +kernel

/-- 5.10: the filtered fall at 3,220 ms begins the dwell until 8,220; the dwell's end begins the press until 8,420. -/
theorem test_cycle_falls : ((after (.pgoodFilterExpiry 0) { filtering .hardStopping (some (act .cycle)) .active false with now := 3220000 }).pw 0).phase
    = some 8220 := by decide +kernel
theorem test_cycle_dwells : ((after (.dwellExpiry 0) (powered .dwelling (some (act .cycle)) .inactive (fun p => { p with phase := some 8220 }))).pw 0).phase
    = some 8420 := by decide +kernel

/-- 6.7: the first expiry begins a RESET until 61,320 ms; the third brings the node to HELD. -/
theorem test_watch_resets : ((after (.watchTimerExpiry 0) (watched on0 (fun w => { w with state := .watching, timer := some 61220 }))).pw 0).phase
    = some 61320 := by decide +kernel
theorem test_watch_holds : ((after (.watchTimerExpiry 0) (watching on0 2 3)).wt 0).state = .held ∧
    ((after (.watchTimerExpiry 0) (watching on0 2 3)).wt 0).count = 3 := by decide +kernel

/-- R115: a fault report while the hold stands in IDLE goes to HELD, the limit raised by three. -/
theorem test_hold_stands : ((((standing 2 5).patternAction 0 0 .faultSeen 1).wt 0).state, (((standing 2 5).patternAction 0 0 .faultSeen 1).wt 0).count,
    (((standing 2 5).patternAction 0 0 .faultSeen 1).pw 0).state) = (.held, 3, .on) := by decide +kernel

/-- R57: an ATTACH answered BAD_REQUEST renews the lease of its attached sender. -/
theorem test_bad_attach_renews :
    resultOf (after (.attach (head op 0 1) [2]) { attached .typing with now := 30000000 }) = some Result.badRequest.code ∧
    ((after (.attach (head op 0 1) [2]) { attached .typing with now := 30000000 }).streams.get 0).att 0 = some ⟨0, .typing, 150000, none⟩ := by
  decide +kernel

/-- 7.12: an OPEN_REPLY of length 1,000,000 gives 1,954 blocks of 512 bytes; of 2,048 bytes, 489. -/
theorem test_open_reply : ((after (.openReply (head op 15 14) (be 4 51 ++ be 4 9 ++ be 6 1000000))
    (media (.loading ro) (.opening 2000 true))).port 0).medium = .present ro 1954 ∧ blockCount 1000000 .b2048 = 489 := by decide +kernel

/-- 7.12: lba 488 of 2,048-byte blocks lies in extent 244, which needs one fragment and gives 576 image bytes. -/
theorem test_extent_244 : readExtent .b2048 488 0 = 244 ∧ fragmentsNeeded 1000000 244 = 1 ∧ 1000000 - 488 * 2048 = 576 := by decide

/-- 8: fragment 2 of the second attempt completes the fill; fragment 3 after it finds entry 5 FREE and is late. -/
theorem test_fill_completes :
    ((after (.extentData (head op 15 10) (fragment 2)) (oneFetch 0xB true (some 800))).images.fetches.get 5).live = none ∧
    ((after (.extentData (head op 15 10) (fragment 2)) (oneFetch 0xB true (some 800))).pool.extents.get 0).map Extent.valid = some true := by
  decide +kernel
theorem test_fragment_late :
    (after (.extentData (head op 15 10) (fragment 3)) ((oneFetch 0 false none).putFetch 5 ⟨7, none⟩)).images.late = 1 := by decide +kernel

/-- 8: the first expiry at 400 ms sends the same EXTENT_READ again and sets the timer to 800. -/
theorem test_fetch_resent : (((after (.fetchTimerExpiry 5) (oneFetch 0xB false (some 400))).images.fetches.get 5).live.bind Fetch.timer)
    = some 800 ∧ (after (.fetchTimerExpiry 5) (oneFetch 0xB false (some 400))).up.frames.length = 1 := by decide +kernel

/-- 7.12: three blocks from lba 7; the first BLOCK_WRITE takes two, at byte 3,584. -/
theorem test_write_handed : (((after (.writeDataReceived 0 (List.replicate 1024 1)) (reading (.write 7 3 0 false) rw)).images.writes.get 0).live.map
    (fun w => (w.offset, w.count))) = some (3584, 1024) := by decide +kernel

/-- 10.7: an event of node 0 is sent to every station entitled, and its gap timer runs to 100 ms. -/
theorem test_notice_sent : ((after (.ejectByNode 0) (media (.present ro 1954))).pendingSet (some 0)) = ⟨[], some 100⟩ ∧
    ((after (.ejectByNode 0) (media (.present ro 1954))).up.frames.filter (fun f => f.cls = .notice)).length = 2 := by decide +kernel

/-- The memory of the worked load of chapter 11, from an address on. -/
def loadOf (a : Nat) (bytes : List Byte) (s : State) : State := { s with
  loader := ⟨.loading a, 2, 0, 1⟩, config := memWriteAll [] a bytes, up := { s.up with macEnabled := false } }

/-- 11: a STATION record with an address in use is skipped; NODE_LINE with T 80 stores 63; an unknown section is skipped by its
length; 00h ends the list and the part is COMMISSIONED. -/
theorem test_load_in_use : (after .recordRead (loadOf 30 ([1, 12, 1, 1, 0, 4, 0xFF, 0x3F] ++ be 6 op.toNat) demo)).loader.skipped = 2 := by
  decide +kernel
theorem test_load_line : ((after .recordRead (loadOf 44 ([3, 13, 3] ++ be 4 115200 ++ [0, 8, 0, 1, 0, 80] ++ be 2 250) demo)).lines.get 3).settings.threshold
    = 63 ∧ (after .recordRead (loadOf 44 ([3, 13, 3] ++ be 4 115200 ++ [0, 8, 0, 1, 0, 80] ++ be 2 250) demo)).loader = ⟨.loading 59, 3, 1, 1⟩ := by
  decide +kernel
theorem test_load_unknown : (after .recordRead (loadOf 59 [12, 3, 0, 0, 0] demo)).loader = ⟨.loading 64, 2, 0, 2⟩ := by decide +kernel
theorem test_load_end : (after .recordRead (loadOf 70 [0] demo)).up.macEnabled = true ∧
    (after .recordRead (loadOf 70 [0] demo)).su.commissioning = .commissioned := by decide +kernel

/-- R195: the longest list is 2,897 bytes; PART takes 16, a STATION 14, a node's six records without further candidates 6 + 15 + 16 + 8 + 11 + 4. -/
theorem test_save_list : (encodeRecord .part (encodePart demo.partSettings)).length = 16 ∧
    (encodeRecord .station (encodeStation 0 (demo.station 0))).length = 14 ∧ (demo.nodeRecords 0).length = 60 ∧
    16 + 2 * 14 + 8 * 60 + 1 = demo.saveList.length := by decide +kernel

/-- R183: the default station address carries the straps. -/
theorem test_default_address : (State.reset.powerOnReset.up.addr) = 0x02A000000000 ∧ defaultAddress 5 = 0x02A000000005 := by decide +kernel

/-- R185: the part's status is 55 bytes for a station without ADMIN, a node's 71. -/
theorem test_status_lengths : (demo.statusPart false).length = 55 ∧ (demo.statusNode 0).length = 71 := by decide +kernel

end Sys2Proof.Tests
end

section
/-! PROOFS. The elements of a pattern and the framed value they are compared with (R29, R72). -/
namespace Sys2Proof.Machine

theorem byte_eq_zero_iff (b : Byte) : b = 0 ↔ ∀ j, j < 8 → b.getLsbD j = false := by
  constructor
  · rintro rfl j _
    exact BitVec.getLsbD_zero
  · intro h
    exact BitVec.eq_of_getLsbD_eq fun j hj => (h j hj).trans BitVec.getLsbD_zero.symm

/-! ## Elements (R72) -/

theorem Element.accepts_exact_iff (v m c : Byte) :
    (⟨false, v, m⟩ : Element).accepts c = true ↔ ∀ j, j < 8 → m.getLsbD j = false → c.getLsbD j = v.getLsbD j := by
  have compared (j : Nat) (hj : j < 8) :
      ((c ^^^ v) &&& ~~~m).getLsbD j = false ↔ (m.getLsbD j = false → c.getLsbD j = v.getLsbD j) := by
    rw [BitVec.getLsbD_and, BitVec.getLsbD_xor, BitVec.getLsbD_not, decide_eq_true hj, Bool.true_and]
    cases m.getLsbD j with
    | true => simp
    | false => simp only [Bool.not_false, Bool.and_true, bne_eq_false_iff_eq, forall_const]
  calc (⟨false, v, m⟩ : Element).accepts c = true
      ↔ (c ^^^ v) &&& ~~~m = 0 := by simp [Element.accepts]
    _ ↔ ∀ j, j < 8 → ((c ^^^ v) &&& ~~~m).getLsbD j = false := byte_eq_zero_iff _
    _ ↔ _ := forall₂_congr compared

theorem Element.accepts_anyOf_iff (v m c : Byte) :
    (⟨true, v, m⟩ : Element).accepts c = true ↔ ∃ j, j < 8 ∧ v.getLsbD j = true ∧ c.getLsbD j = true := by
  calc (⟨true, v, m⟩ : Element).accepts c = true
      ↔ ¬ c &&& v = 0 := by simp [Element.accepts]
    _ ↔ ¬ ∀ j, j < 8 → (c &&& v).getLsbD j = false := not_congr (byte_eq_zero_iff _)
    _ ↔ _ := by simp [and_comm]

/-- No bit position is asked for. -/
theorem Element.accepts_anyOf_zero (m c : Byte) : (⟨true, 0, m⟩ : Element).accepts c = false := by
  rw [Bool.eq_false_iff, ne_eq, Element.accepts_anyOf_iff]
  rintro ⟨j, -, hj, -⟩
  simp at hj

/-- No bit position is compared. -/
theorem Element.accepts_exact_allMasked (v c : Byte) : (⟨false, v, 0xFF⟩ : Element).accepts c = true := by
  rw [Element.accepts_exact_iff]
  intro j hj hm
  have masked : (0xFF : Byte).getLsbD j = true := BitVec.getLsbD_allOnes.trans (decide_eq_true hj)
  exact nomatch masked.symm.trans hm

/-! ## The framed value (R29) -/

theorem getLsbD_lowBits (k : Nat) (b : Byte) (j : Nat) : (lowBits k b).getLsbD j = (decide (j < k) && b.getLsbD j) := by
  have above (hj : 8 ≤ j) : b.getLsbD j = false := BitVec.getLsbD_of_ge b j hj
  rw [lowBits, BitVec.getLsbD_ofNat, Nat.testBit_mod_two_pow, BitVec.testBit_toNat]
  by_cases hj : j < 8
  · simp [hj]
  · simp [above (Nat.le_of_not_lt hj)]

theorem Line.frame_eq_char (l : Line) (data : Byte) (p q : Bool) :
    ∃ x y z, l.frame data p q = .char (lowBits l.settings.framing.dataBits data) x y z := ⟨_, _, _, rfl⟩

/-- Settles O46, from what each kind of element accepts, bit by bit, and the bits of the framed value. -/
theorem elementsMatchTheFramedValue : Obligations.ElementsMatchTheFramedValue := by
  intro v m c data l p q
  obtain ⟨x, y, z, framed⟩ := l.frame_eq_char data p q
  refine ⟨Element.accepts_exact_iff v m c, Element.accepts_anyOf_iff v m c, Element.accepts_anyOf_zero m c,
    Element.accepts_exact_allMasked v c, _, x, y, z, framed, ?_, ?_⟩
  · intro j within
    simp [getLsbD_lowBits, within]
  · intro j above
    simp [getLsbD_lowBits, Nat.not_lt.mpr above]

end Sys2Proof.Machine
end

section
/-! PROOFS. Block requests that end at once (R121, R125, R126), and the changed-pending flag that READ and WRITE leave (R125). -/
namespace Sys2Proof.Machine

variable (s : State) (n : NodeId)

/-! ## The port after an answer (R121) -/

@[simp] theorem State.putPort_putPort (x y : MediaPort) : (s.putPort n x).putPort n y = s.putPort n y := by
  simp [State.putPort]

/-- An outcome in the sense record and a reply to the node, written one after the other. -/
theorem putSense_give_eq (k : SenseKey) (i : Option (BitVec 32)) (r : UsbReply) :
    (s.putSense n k i).give n r = s.putPort n { s.port n with sense := ⟨k, i⟩, usb := r } := by
  simp [State.putSense, State.give]

theorem status_eq (k : SenseKey) (i : Option (BitVec 32)) :
    s.status n k i = s.putPort n { s.port n with sense := ⟨k, i⟩, usb := .status k } := putSense_give_eq s n k i _

/-- A status after a change of the port itself. -/
theorem putPort_status_eq (x : MediaPort) (k : SenseKey) (i : Option (BitVec 32)) :
    (s.putPort n x).status n k i = s.putPort n { x with sense := ⟨k, i⟩, usb := .status k } := by
  simp [status_eq]

/-! ## The answers (R125, R126) -/

theorem answerIdentify_eq : s.answerIdentify n = s.putPort n { s.port n with
    sense := ⟨.none, none⟩, usb := .identify "Ancitra" "Vafrel Virtual Medium" true (s.port n).bootFirst } :=
  putSense_give_eq s n _ _ _

theorem answerSense_eq : s.answerSense n =
    s.putPort n { s.port n with sense := ⟨.none, none⟩, usb := .senseData (s.port n).sense } := by
  simp [State.answerSense, State.putSense, State.give]

theorem setLock_eq (b : Bool) : s.setLock n b =
    s.putPort n { s.port n with lock := b, sense := ⟨.none, none⟩, usb := .status .none } :=
  putPort_status_eq s n _ _ _

variable {s n}

theorem answerReady_absent (h : (s.port n).medium.isPresent = false) : s.answerReady n = s.status n .notReady none := by
  simp [State.answerReady, h]

theorem answerReady_changed (h : (s.port n).medium.isPresent = true) (hc : (s.port n).changed = true) :
    s.answerReady n = (s.putPort n { s.port n with changed := false }).status n .mediumChanged none := by
  simp [State.answerReady, h, hc]

theorem answerReady_unchanged (h : (s.port n).medium.isPresent = true) (hc : (s.port n).changed = false) :
    s.answerReady n = s.status n .none none := by
  simp [State.answerReady, h, hc]

theorem answerCapacity_absent (h : (s.port n).medium.isPresent = false) : s.answerCapacity n = s.status n .notReady none := by
  unfold State.answerCapacity
  split
  · next hm => simp [hm, Medium.isPresent] at h
  all_goals rfl

theorem answerCapacity_present {m : MediumRef} {b : Nat} (h : (s.port n).medium = .present m b) :
    s.answerCapacity n = s.putPort n { s.port n with sense := ⟨.none, none⟩, usb := .capacity b m.size } := by
  simp [State.answerCapacity, h, putSense_give_eq]

/-- A request offered to a port that takes it completes with its answer (R121). -/
theorem offered_completes {c : Instr} {f : State → State} {q : MediaPort} (hp : s.porn = true)
    (ha : (s.port n).attached = true) (hi : (s.port n).active = none)
    (hc : exec c s = s.whenRunning (·.offerRequest n f)) (hf : f s = s.putPort n q) : Completes c s (s.putPort n q) := by
  have taken : s.offerRequest n f = s.putPort n q := by simp [State.offerRequest, State.takesRequest, ha, hi, hf]
  obtain ⟨t, ht, hs⟩ := whenRunning_settles s (·.offerRequest n f) hp
  exact ⟨t, hc.trans ht, taken ▸ hs⟩

/-! ## What leaves the changed-pending flag (R125) -/

theorem PoolWork.ports_eq {t : State} (h : PoolWork s t) : t.ports = s.ports := by
  obtain ⟨st, p, nd, fs, q, rfl, -⟩ := h
  rfl

theorem Settles.ports_eq {e t : State} (h : Settles e t) : t.ports = e.ports := by
  obtain ⟨⟨-, -, -, -, -, -, -, -, -, ports, -⟩, -⟩ := h
  exact ports

variable (s n)

@[simp] theorem changed_give (r : UsbReply) : ((s.give n r).port n).changed = (s.port n).changed := by simp [State.give]

@[simp] theorem changed_putSense (k : SenseKey) (i : Option (BitVec 32)) :
    ((s.putSense n k i).port n).changed = (s.port n).changed := by simp [State.putSense]

@[simp] theorem changed_status (k : SenseKey) (i : Option (BitVec 32)) :
    ((s.status n k i).port n).changed = (s.port n).changed := by simp [State.status]

@[simp] theorem changed_putRead (l c d : Nat) (p : ReadPhase) :
    ((s.putRead n l c d p).port n).changed = (s.port n).changed := by simp [State.putRead]

@[simp] theorem changed_pin (i : ExtentIx) : ((s.pin i).port n).changed = (s.port n).changed := by
  simp [State.port, (pin_work s i).ports_eq]

@[simp] theorem changed_handNeed (k : NodeId) (r : ImageIx) (e : BitVec 32) :
    ((s.handNeed k r e).port n).changed = (s.port n).changed := by
  simp [State.port, (handNeed_work s k r e).ports_eq]

/-- Turning to the next extent ends the READ, pins an extent or waits for one. -/
@[simp] theorem changed_advanceRead : ((s.advanceRead n).port n).changed = (s.port n).changed := by
  unfold State.advanceRead
  split
  · split
    · simp
    · split
      · rfl
      · split
        · split
          · simp
          · simp
        · simp
  · rfl

theorem changed_decideRead (l c : Nat) : ((s.decideRead n l c).port n).changed = (s.port n).changed := by
  simp only [State.decideRead]
  split
  · split
    · simp
    · split
      · simp
      · split
        · split
          · simp
          · simp
        · simp
  all_goals simp

theorem changed_decideWrite (l c : Nat) : ((s.decideWrite n l c).port n).changed = (s.port n).changed := by
  unfold State.decideWrite
  split
  · split
    · simp
    · split
      · simp
      · split
        · simp
        · simp
  all_goals simp

variable {s n}

/-- What a request leaves at the port where it is taken, it leaves when it is offered, and the end of the step leaves it too. -/
theorem changed_offered {f : State → State} {t : State} (hp : s.porn = true)
    (hf : ((f s).port n).changed = (s.port n).changed) (h : s.whenRunning (·.offerRequest n f) = .next t) :
    (t.port n).changed = (s.port n).changed := by
  obtain ⟨u, hu, settles⟩ := whenRunning_settles s (·.offerRequest n f) hp
  obtain rfl : u = t := Host.Outcome.next.inj (hu.symm.trans h)
  calc (u.port n).changed
      = ((s.offerRequest n f).port n).changed := by simp [State.port, settles.ports_eq]
    _ = (s.port n).changed := by
      unfold State.offerRequest
      split
      · exact hf
      · rfl

/-- Settles O49: each answer written out as one update of the port, and the flag followed through every end of a READ or WRITE. -/
theorem describingRequestsEndAtOnce : Obligations.DescribingRequestsEndAtOnce := by
  intro s t n m blocks lba count porn
  refine ⟨fun attached idle => ?_, ?_⟩
  · have does {c : Instr} {f : State → State} {q : MediaPort} (hc : exec c s = s.whenRunning (·.offerRequest n f))
        (hf : f s = s.putPort n q) : Completes c s (s.putPort n q) := offered_completes porn attached idle hc hf
    refine ⟨does rfl (answerIdentify_eq s n), fun absent => ⟨?_, ?_⟩, fun present => ?_, does rfl (answerSense_eq s n),
      does rfl (setLock_eq s n true), does rfl (setLock_eq s n false)⟩
    · exact does rfl ((answerReady_absent absent).trans (status_eq s n _ _))
    · exact does rfl ((answerCapacity_absent absent).trans (status_eq s n _ _))
    · have isPresent : (s.port n).medium.isPresent = true := by rw [present]; rfl
      refine ⟨fun changed => ?_, fun unchanged => ?_, does rfl (answerCapacity_present present)⟩
      · exact does rfl ((answerReady_changed isPresent changed).trans (putPort_status_eq s n _ _ _))
      · exact does rfl ((answerReady_unchanged isPresent unchanged).trans (status_eq s n _ _))
  · rintro (read | write)
    · exact changed_offered porn (changed_decideRead s n _ _) read
    · exact changed_offered porn (changed_decideWrite s n _ _) write

end Sys2Proof.Machine
end

section
/-! PROOFS. The law of the pool's cells (R163, R164, R167, R172, R173, R175): the claims that nodes and extents make on the 1,024
cells, and what grants, drops, evictions and allocations do to them. -/
namespace Sys2Proof.Machine

-- Side by side, the proofs of this text would need more thread stacks than the check's memory limit holds.
set_option Elab.async false

/-! ## The law in terms of the nodes' cells -/

/-- The history cells of node `n`, oldest first. -/
def State.cellsOf (s : State) (n : NodeId) : List Nat := (s.streams.get n).chain.map HistCell.cell

/-- The cells of the extent table. -/
def Pool.cells (p : Pool) : List Nat := p.used.flatMap (fun x => x.2.cells)

/-- What the nodes hold or may still claim: for each the larger of its minimum and its held count (R164). -/
def claims (held : NodeId → List Nat) (least : NodeId → Nat) : Nat := (allNodes.map (fun n => max (least n) (held n).length)).sum

/-- No cell has two owners, every cell is one of the 1,024, extents have eight each and stand in the recency order. -/
structure CellsOwned (held : NodeId → List Nat) (p : Pool) : Prop where
  nodup : (allNodes.flatMap held ++ p.cells).Nodup
  below : ∀ c ∈ allNodes.flatMap held ++ p.cells, c < 1024
  eight : ∀ x ∈ p.used, x.2.cells.length = 8
  recent : ∀ x ∈ p.used, x.1 ∈ p.recency

/-- The cells have one owner each, and the claims fit. -/
structure CellsFit (held : NodeId → List Nat) (least : NodeId → Nat) (p : Pool) : Prop extends CellsOwned held p where
  fits : claims held least + 8 * p.used.length ≤ 1024

variable (s : State)

theorem length_cellsOf (n : NodeId) : (s.cellsOf n).length = s.heldCells n := by simp [State.cellsOf, State.heldCells]

/-- Held counts and the reservation make up the claims. -/
theorem historyCells_add_reservation : s.historyCells + s.reservation = claims s.cellsOf s.histMin := by
  rw [State.historyCells, State.reservation, ← List.sum_map_add, claims]
  refine congrArg List.sum (List.map_congr_left fun n _ => ?_)
  rw [length_cellsOf]
  omega

theorem length_flatMap_cellsOf : (allNodes.flatMap s.cellsOf).length = s.historyCells := by
  simp [State.historyCells, List.length_flatMap, length_cellsOf]

theorem length_poolCells {p : Pool} (h : ∀ x ∈ p.used, x.2.cells.length = 8) : p.cells.length = 8 * p.used.length := by
  rw [Pool.cells, List.length_flatMap, List.map_congr_left h]
  simp [mul_comm]

/-- Different numbers below a bound are no more than the bound. -/
theorem length_le_of_nodup_below {l : List Nat} {k : Nat} (h : l.Nodup) (hb : ∀ c ∈ l, c < k) : l.length ≤ k := by
  have hs : l ⊆ List.range k := fun c hc => List.mem_range.mpr (hb c hc)
  simpa using (h.subperm hs).length_le

/-- The cells with an owner are no more than the pool has. -/
theorem CellsOwned.total {s : State} {p : Pool} (h : CellsOwned s.cellsOf p) : s.historyCells + 8 * p.used.length ≤ 1024 := by
  have hl := length_le_of_nodup_below h.nodup h.below
  rwa [List.length_append, length_flatMap_cellsOf, length_poolCells h.eight] at hl

/-- The law of the pool, with the held counts and the reservation taken together. -/
theorem cellLaw_iff {s : State} : CellLaw s ↔ CellsFit s.cellsOf s.histMin s.pool := by
  have hsum := historyCells_add_reservation s
  constructor
  · rintro ⟨nodup, below, eight, total, covered, recent⟩
    have hfree : s.freeCells = 1024 - s.historyCells - 8 * s.pool.used.length := rfl
    exact ⟨⟨nodup, below, eight, recent⟩, by omega⟩
  · rintro ⟨⟨nodup, below, eight, recent⟩, fits⟩
    have hfree : s.freeCells = 1024 - s.historyCells - 8 * s.pool.used.length := rfl
    exact ⟨nodup, below, eight, by omega, by omega, recent⟩

theorem slack_eq : s.slack = 1024 - claims s.cellsOf s.histMin - 8 * s.pool.used.length := by
  have hsum := historyCells_add_reservation s
  unfold State.slack State.freeCells
  omega

/-! ## The nodes' cells change -/

variable {held held' : NodeId → List Nat} {least : NodeId → Nat} {p : Pool}

theorem CellsOwned.shrink (h : CellsOwned held p) (hs : ∀ n, (held' n).Subperm (held n)) : CellsOwned held' p := by
  have sub : ∀ c ∈ allNodes.flatMap held' ++ p.cells, c ∈ allNodes.flatMap held ++ p.cells := by
    intro c hc
    simp only [List.mem_append, List.mem_flatMap] at hc ⊢
    exact hc.imp_left fun ⟨n, hn, hm⟩ => ⟨n, hn, (hs n).subset hm⟩
  obtain ⟨nodup, below, eight, recent⟩ := h
  rw [List.nodup_append, List.nodup_flatMap] at nodup
  obtain ⟨⟨each, apart⟩, cells, disjoint⟩ := nodup
  refine ⟨?_, fun c hc => below c (sub c hc), eight, recent⟩
  rw [List.nodup_append, List.nodup_flatMap]
  refine ⟨⟨fun n hn => ?_, apart.imp fun hd => ?_⟩, cells, fun a ha b hb => ?_⟩
  · obtain ⟨l, hl, hsub⟩ := hs n
    exact (hl.nodup_iff).mp ((each n hn).sublist hsub)
  · exact fun c ha hb => hd ((hs _).subset ha) ((hs _).subset hb)
  · obtain ⟨n, hn, hm⟩ := List.mem_flatMap.mp ha
    exact disjoint a (List.mem_flatMap.mpr ⟨n, hn, (hs n).subset hm⟩) b hb

theorem claims_mono {least' : NodeId → Nat} (h : ∀ n, max (least' n) (held' n).length ≤ max (least n) (held n).length) :
    claims held' least' ≤ claims held least := List.sum_le_sum fun n _ => h n

/-- Cells given back leave the law as it is. -/
theorem CellsFit.shrink (h : CellsFit held least p) (hs : ∀ n, (held' n).Subperm (held n)) : CellsFit held' least p where
  toCellsOwned := h.toCellsOwned.shrink hs
  fits := by
    have := claims_mono (least := least) (least' := least) (held := held) (held' := held') fun n => by
      have := (hs n).length_le
      omega
    have := h.fits
    omega

theorem allNodes_perm (n : NodeId) : allNodes.Perm (n :: allNodes.filter (· ≠ n)) := by revert n; decide

/-- Node `n`'s cells apart from all others'. -/
theorem owned_perm (held : NodeId → List Nat) (p : Pool) (n : NodeId) :
    (allNodes.flatMap held ++ p.cells).Perm (held n ++ ((allNodes.filter (· ≠ n)).flatMap held ++ p.cells)) := by
  have := ((allNodes_perm n).flatMap_right held).append_right p.cells
  simpa using this

theorem claims_split (held : NodeId → List Nat) (least : NodeId → Nat) (n : NodeId) :
    claims held least =
      max (least n) (held n).length + ((allNodes.filter (· ≠ n)).map (fun k => max (least k) (held k).length)).sum := by
  simpa [claims] using ((allNodes_perm n).map (fun k => max (least k) (held k).length)).sum_eq

/-- A free cell that joins node `n`'s chain, below its minimum or out of the slack (R165). -/
theorem CellsFit.grant (h : CellsFit held least p) {n : NodeId} {c : Nat} (hc : c ∉ allNodes.flatMap held ++ p.cells)
    (hb : c < 1024) (hn : held' n = held n ++ [c]) (hk : ∀ k, k ≠ n → held' k = held k)
    (room : (held n).length < least n ∨ claims held least + 8 * p.used.length < 1024) : CellsFit held' least p := by
  have others : (allNodes.filter (· ≠ n)).flatMap held' = (allNodes.filter (· ≠ n)).flatMap held :=
    List.flatMap_congr fun k hk' => hk k (by simpa using (List.mem_filter.mp hk').2)
  have sums : (allNodes.filter (· ≠ n)).map (fun k => max (least k) (held' k).length) =
      (allNodes.filter (· ≠ n)).map (fun k => max (least k) (held k).length) :=
    List.map_congr_left fun k hk' => by rw [hk k (by simpa using (List.mem_filter.mp hk').2)]
  have joined : (allNodes.flatMap held' ++ p.cells).Perm (c :: (allNodes.flatMap held ++ p.cells)) := by
    have a := owned_perm held' p n
    rw [hn, others] at a
    refine a.trans (.trans ?_ ((owned_perm held p n).symm.cons c))
    rw [List.append_assoc, List.singleton_append]
    exact List.perm_middle
  refine ⟨⟨joined.nodup_iff.mpr (List.nodup_cons.mpr ⟨hc, h.nodup⟩), fun x hx => ?_, h.eight, h.recent⟩, ?_⟩
  · rcases List.mem_cons.mp (joined.subset hx) with rfl | hx
    · exact hb
    · exact h.below x hx
  · have fits := h.fits
    have a := claims_split held least n
    have b := claims_split held' least n
    rw [sums, hn, List.length_append, List.length_singleton] at b
    omega

/-! ## The extent table changes -/

theorem indices_perm {k : Nat} (i : Fin k) : (indices k).Perm (i :: (indices k).filter (· ≠ i)) := by
  have h := List.perm_cons_erase (mem_indices i)
  rw [List.Nodup.erase_eq_filter (l := indices k) (List.nodup_finRange k)] at h
  refine h.trans (.cons i (.of_eq (List.filter_congr fun j _ => ?_)))
  rw [Bool.eq_iff_iff]
  simp

/-- The entries at other places than `i`. -/
theorem used_free (p : Pool) (i : ExtentIx) :
    (p.free i).used = ((indices 128).filter (· ≠ i)).filterMap (fun j => (p.extents.get j).map (fun e => (j, e))) := by
  simp only [Pool.used, Pool.free, List.filterMap_filter]
  refine List.filterMap_congr fun j _ => ?_
  by_cases e : j = i
  · subst e; simp
  · simp [e]

/-- An entry in use apart from all others. -/
theorem used_perm {p : Pool} {i : ExtentIx} {e : Extent} (h : p.extents.get i = some e) :
    p.used.Perm ((i, e) :: (p.free i).used) := by
  have hp := (indices_perm i).filterMap (fun j => (p.extents.get j).map (fun e => (j, e)))
  rw [List.filterMap_cons_some (b := (i, e)) (by simp [h]), ← used_free] at hp
  exact hp

theorem mem_used {p : Pool} {x : ExtentIx × Extent} : x ∈ p.used ↔ p.extents.get x.1 = some x.2 := by
  obtain ⟨i, e⟩ := x
  simp [Pool.used]

theorem free_of_unused {p : Pool} {i : ExtentIx} (h : p.extents.get i = none) : (p.free i).used = p.used := by
  simp only [Pool.used, Pool.free]
  refine List.filterMap_congr fun j _ => ?_
  by_cases e : j = i
  · subst e; simp [h]
  · simp [e]

theorem length_used_free {p : Pool} {i : ExtentIx} {e : Extent} (h : p.extents.get i = some e) :
    p.used.length = (p.free i).used.length + 1 := by simpa using (used_perm h).length_eq

/-- A freed place gives its cells back. -/
theorem CellsOwned.free (h : CellsOwned held p) (i : ExtentIx) : CellsOwned held (p.free i) := by
  have recent : ∀ x ∈ (p.free i).used, x.1 ∈ (p.free i).recency := by
    intro x hx
    have hx' := mem_used.mp hx
    have ne : x.1 ≠ i := by
      intro e
      simp [Pool.free, e] at hx'
    have := h.recent x (mem_used.mpr (by simpa [Pool.free, ne] using hx'))
    simpa [Pool.free, ne] using this
  cases e : p.extents.get i with
  | none =>
    have hu := free_of_unused e
    exact ⟨by simpa [Pool.cells, hu] using h.nodup, by simpa [Pool.cells, hu] using h.below,
      by simpa [hu] using h.eight, recent⟩
  | some x =>
    have hp := used_perm e
    have cells : p.cells.Perm (x.cells ++ (p.free i).cells) := by simpa [Pool.cells] using hp.flatMap_right (fun y => y.2.cells)
    have all : (allNodes.flatMap held ++ p.cells).Perm (x.cells ++ (allNodes.flatMap held ++ (p.free i).cells)) :=
      (cells.append_left _).trans (by
        rw [← List.append_assoc, ← List.append_assoc]
        exact List.perm_append_comm.append_right _)
    exact ⟨(List.nodup_append.mp (all.nodup_iff.mp h.nodup)).2.1,
      fun c hc => h.below c (all.symm.subset (List.mem_append_right _ hc)),
      fun y hy => h.eight y (hp.symm.subset (List.mem_cons_of_mem _ hy)), recent⟩

theorem length_used_free_le (p : Pool) (i : ExtentIx) : (p.free i).used.length ≤ p.used.length := by
  cases e : p.extents.get i with
  | none => rw [free_of_unused e]
  | some x => have := length_used_free e; omega

theorem CellsFit.free (h : CellsFit held least p) (i : ExtentIx) : CellsFit held least (p.free i) where
  toCellsOwned := h.toCellsOwned.free i
  fits := by
    have := h.fits
    have := length_used_free_le p i
    omega

/-- What the cells of a pool's entries are, place by place. -/
def Pool.placed (p : Pool) (i : ExtentIx) : Option (List Nat) := (p.extents.get i).map Extent.cells

/-- A pool whose entries have the same cells at the same places keeps the law. -/
theorem CellsOwned.relabel {q : Pool} (h : CellsOwned held p) (hc : ∀ i, q.placed i = p.placed i)
    (hr : ∀ i ∈ p.recency, i ∈ q.recency) : CellsOwned held q ∧ q.used.length = p.used.length := by
  have tags : q.used.map (fun x => (x.1, x.2.cells)) = p.used.map (fun x => (x.1, x.2.cells)) := by
    simp only [Pool.used, List.map_filterMap]
    refine List.filterMap_congr fun i _ => ?_
    have := hc i
    simp only [Pool.placed] at this
    cases hq : q.extents.get i with
    | none =>
      cases hp : p.extents.get i with
      | none => rfl
      | some y => simp [hq, hp] at this
    | some x =>
      cases hp : p.extents.get i with
      | none => simp [hq, hp] at this
      | some y => simp [hq, hp] at this; simp [this]
  have cells : q.cells = p.cells := by
    have := congrArg (fun l : List (ExtentIx × List Nat) => l.flatMap (fun x => x.2)) tags
    simpa [Pool.cells, List.flatMap_map] using this
  have back : ∀ x ∈ q.used, ∃ y ∈ p.used, y.1 = x.1 ∧ y.2.cells = x.2.cells := by
    intro x hx
    have hm : (x.1, x.2.cells) ∈ p.used.map (fun x => (x.1, x.2.cells)) := tags ▸ List.mem_map_of_mem hx
    obtain ⟨y, hy, e⟩ := List.mem_map.mp hm
    exact ⟨y, hy, (Prod.ext_iff.mp e).1, (Prod.ext_iff.mp e).2⟩
  refine ⟨⟨cells ▸ h.nodup, cells ▸ h.below, fun x hx => ?_, fun x hx => ?_⟩, by simpa using congrArg List.length tags⟩
  · obtain ⟨y, hy, -, e⟩ := back x hx
    exact e ▸ h.eight y hy
  · obtain ⟨y, hy, e, -⟩ := back x hx
    exact hr _ (e ▸ h.recent y hy)

theorem CellsFit.relabel {q : Pool} (h : CellsFit held least p) (hc : ∀ i, q.placed i = p.placed i)
    (hr : ∀ i ∈ p.recency, i ∈ q.recency) : CellsFit held least q := by
  obtain ⟨owned, same⟩ := h.toCellsOwned.relabel hc hr
  exact ⟨owned, by rw [same]; exact h.fits⟩

/-- A new entry in an unused place, with eight free cells out of the slack (R172). -/
theorem CellsFit.place {q : Pool} {i : ExtentIx} {e : Extent} (h : CellsFit held least p) (hi : p.extents.get i = none)
    (hq : q.extents = p.extents.put i (some e)) (hr : q.recency = p.recency ++ [i])
    (nodup : e.cells.Nodup) (fresh : ∀ c ∈ e.cells, c ∉ allNodes.flatMap held ++ p.cells ∧ c < 1024) (eight : e.cells.length = 8)
    (room : claims held least + 8 * p.used.length + 8 ≤ 1024) : CellsFit held least q := by
  have rest : (q.free i).used = p.used := by
    simp only [Pool.used, Pool.free, hq]
    refine List.filterMap_congr fun j _ => ?_
    by_cases hj : j = i
    · subst hj; simp [hi]
    · simp [hj]
  have hp : q.used.Perm ((i, e) :: p.used) := rest ▸ used_perm (p := q) (i := i) (e := e) (by simp [hq])
  have cells : q.cells.Perm (e.cells ++ p.cells) := by simpa [Pool.cells] using hp.flatMap_right (fun y => y.2.cells)
  have all : (allNodes.flatMap held ++ q.cells).Perm (e.cells ++ (allNodes.flatMap held ++ p.cells)) :=
    (cells.append_left _).trans (by
      rw [← List.append_assoc, ← List.append_assoc]
      exact List.perm_append_comm.append_right _)
  refine ⟨⟨all.nodup_iff.mpr (List.nodup_append.mpr ⟨nodup, h.nodup, fun a ha b hb => ?_⟩), fun c hc => ?_, fun x hx => ?_,
    fun x hx => ?_⟩, ?_⟩
  · rintro rfl
    exact (fresh a ha).1 hb
  · rcases List.mem_append.mp (all.subset hc) with hc | hc
    · exact (fresh c hc).2
    · exact h.below c hc
  · rcases List.mem_cons.mp (hp.subset hx) with rfl | hx
    · exact eight
    · exact h.eight x hx
  · rw [hr]
    rcases List.mem_cons.mp (hp.subset hx) with rfl | hx
    · simp
    · exact List.mem_append_left _ (h.recent x hx)
  · have := hp.length_eq
    simp only [List.length_cons] at this
    omega

/-! ## Fresh cells -/

theorem mem_freshCells {owned : List Nat} {fuel c k x : Nat} (h : x ∈ freshCells owned fuel c k) :
    x ∉ owned ∧ c ≤ x ∧ x < c + fuel := by
  induction fuel generalizing c k with
  | zero => simp [freshCells] at h
  | succ fuel ih =>
    unfold freshCells at h
    split at h
    · simp at h
    · split at h
      · obtain ⟨a, b, d⟩ := ih h
        exact ⟨a, by omega, by omega⟩
      · next hc =>
        rcases List.mem_cons.mp h with rfl | h
        · exact ⟨by simpa using hc, le_refl _, by omega⟩
        · obtain ⟨a, b, d⟩ := ih h
          exact ⟨a, by omega, by omega⟩

theorem nodup_freshCells (owned : List Nat) (fuel c k : Nat) : (freshCells owned fuel c k).Nodup := by
  induction fuel generalizing c k with
  | zero => exact List.nodup_nil
  | succ fuel ih =>
    unfold freshCells
    split
    · exact List.nodup_nil
    · split
      · exact ih _ _
      · exact List.nodup_cons.mpr ⟨fun h => by have := (mem_freshCells h).2.1; omega, ih _ _⟩

/-- The cells found are as many as asked for, or all that have no owner. -/
theorem length_freshCells (owned : List Nat) (fuel c k : Nat) :
    (freshCells owned fuel c k).length = min k ((List.range' c fuel).filter (fun x => !owned.contains x)).length := by
  induction fuel generalizing c k with
  | zero => simp [freshCells]
  | succ fuel ih =>
    unfold freshCells
    rw [List.range'_succ, List.filter_cons]
    split
    · next h => simp [h]
    · split
      · next h => simp only [h, Bool.not_true, Bool.false_eq_true, ite_false, ih]
      · next h =>
        simp only [h, Bool.not_false, ite_true, List.length_cons, ih]
        omega

/-- Eight cells are found where eight have no owner. -/
theorem length_freshCells_eight {owned : List Nat} (h : owned.length + 8 ≤ 1024) : (freshCells owned 1024 0 8).length = 8 := by
  have taken : ((List.range' 0 1024).filter (fun x => owned.contains x)).length ≤ owned.length := by
    refine (List.Nodup.subperm (List.Nodup.filter _ List.nodup_range') fun x hx => ?_).length_le
    simpa using (List.mem_filter.mp hx).2
  have both := (List.filter_append_perm (fun x => owned.contains x) (List.range' 0 1024)).length_eq
  simp only [List.length_append, List.length_range'] at both
  rw [length_freshCells]
  omega

end Sys2Proof.Machine
end

section
/-! PROOFS. What an operation keeps: the laws of the part, and the state that no operation of a block touches. -/
namespace Sys2Proof.Machine

-- Side by side, the proofs of this text would need more thread stacks than the check's memory limit holds.
set_option Elab.async false

/-! ## The laws, record by record -/

/-- The bounds of one line (R33 to R40). -/
def Line.inBounds (l : Line) : Prop :=
  l.errors ≤ l.settings.threshold ∧ l.candidate < l.settings.rates.length ∧ l.goodRun < 32 ∧ l.laps < 4 ∧ l.discard ≤ 2 ∧
    (l.hunting = false → l.goodRun = 0 ∧ l.laps = 0) ∧ l.rxdFits = true ∧ l.txQueue.length ≤ 256 ∧
    (l.transmitter = .idle → l.txQueue = [])

theorem lineLaw_iff {s : State} : LineLaw s ↔ ∀ n, (s.lines.get n).inBounds ∧ (s.streams.get n).ring.length ≤ 1024 := by
  refine forall_congr' fun n => ⟨?_, ?_⟩
  · rintro ⟨e, c, g, l, d, h, r, ring, q, i⟩
    exact ⟨⟨e, c, g, l, d, h, r, q, i⟩, ring⟩
  · rintro ⟨⟨e, c, g, l, d, h, r, q, i⟩, ring⟩
    exact ⟨e, c, g, l, d, h, r, ring, q, i⟩

/-- A boot watch in order (R106, R114, R115). -/
def Watch.fits (w : Watch) : Prop :=
  w.count ≤ w.limit ∧ (w.timer.isSome ↔ w.state = .watching) ∧ (w.state = .held → w.faultHeld = true)

/-- A port in line with its power record (R96, R120). -/
def PortFits (porn : Bool) (p : Power) (q : MediaPort) : Prop :=
  (p.granted = true → p.state = .on ∨ p.state = .softStopping) ∧
    (p.reattach.isSome → p.granted = false ∧ (p.state = .on ∨ p.state = .softStopping)) ∧
    q.attached = (p.granted && q.busPower) ∧ (q.active.isSome → q.attached = true) ∧ (porn = false → p.granted = false)

/-- Attachments a node may have (R54). -/
def AttsFit (s : State) (n : NodeId) (as : List Attachment) : Prop :=
  as.length ≤ 4 ∧ (as.map Attachment.station).Nodup ∧
    (∀ a ∈ as, s.holds a.station n .watch = true ∧ (a.mode = .typing → s.holds a.station n .typing = true)) ∧
    (s.loading = true → as = [])

theorem attachLaw_iff {s : State} :
    AttachLaw s ↔ (∀ n, AttsFit s n (s.streams.get n).atts) ∧ (s.loading = true → s.up.macEnabled = false) := by
  constructor
  · rintro ⟨each, empty, mac⟩
    refine ⟨fun n => ?_, mac⟩
    obtain ⟨four, nodup, entitled⟩ := each n
    exact ⟨four, nodup, entitled, fun h => empty h n⟩
  · rintro ⟨each, mac⟩
    refine ⟨fun n => ?_, fun h n => ?_, mac⟩
    · obtain ⟨four, nodup, entitled, -⟩ := each n
      exact ⟨four, nodup, entitled⟩
    · obtain ⟨-, -, -, empty⟩ := each n
      exact empty h

/-- A pending set in order (R188). -/
def PendingSet.fits (id : SetId) (p : PendingSet) : Prop :=
  (p.members.map (fun m => m.event.code)).Nodup ∧
    ∀ m ∈ p.members, 1 ≤ m.count ∧ m.count ≤ 255 ∧ (m.event.rank = 10 ↔ id = none)

/-- A port whose request and write agree with its medium (R121, R126, R136, R155). -/
def PortEngaged (q : MediaPort) (w : Option WriteOp) : Prop :=
  (q.active.isSome → q.medium.isPresent = true) ∧ ∀ x, w = some x →
    match q.medium with
    | .present m _ => m.image = x.image
    | .ejecting m _ _ => m.image = x.image
    | .empty => False
    | .loading _ => False

theorem fetchLaw_iff {s : State} : FetchLaw s ↔
    (∀ f l, (s.images.fetches.get f).live = some l → (s.image l.image).isSome) ∧
      ∀ n, PortEngaged (s.port n) (s.images.writes.get n).live := by
  constructor
  · rintro ⟨live, active, writes⟩
    exact ⟨live, fun n => ⟨active n, writes n⟩⟩
  · rintro ⟨live, each⟩
    exact ⟨live, fun n => (each n).1, fun n => (each n).2⟩

/-! ## What is kept -/

/-- What no operation of a block on its own records touches: the pins, the queue of commands, the Steering Unit, the loader, the
configuration memory, the promises and the MAC. -/
structure RestKept (s t : State) : Prop where
  porn : t.porn = s.porn := by rfl
  straps : t.straps = s.straps := by rfl
  pending : t.pending = s.pending := by rfl
  su : t.su = s.su := by rfl
  loader : t.loader = s.loader := by rfl
  config : t.config = s.config := by rfl
  promised : t.up.promised = s.up.promised := by rfl
  mac : t.up.macEnabled = s.up.macEnabled := by rfl

/-- The laws that concern one record each, and the pool. -/
structure LocalKept (s t : State) : Prop where
  power : PowerLaw s → PowerLaw t := by exact id
  watch : WatchLaw s → WatchLaw t := by exact id
  line : LineLaw s → LineLaw t := by exact id
  attach : AttachLaw s → AttachLaw t := by exact id
  descriptor : DescriptorLaw s → DescriptorLaw t := by exact id
  notice : NoticeLaw s → NoticeLaw t := by exact id
  cell : CellLaw s → CellLaw t := by exact id

/-- An operation that leaves the rest and keeps every law but that of the ports and their permissions. -/
structure KeepsOffPort (s t : State) : Prop where
  rest : RestKept s t := by exact {}
  laws : LocalKept s t := by exact {}
  image : ImageLaw s → ImageLaw t := by exact id
  fetch : FetchLaw s → FetchLaw t := by exact id

/-- An operation that leaves the rest and keeps every law. -/
structure Keeps (s t : State) : Prop extends KeepsOffPort s t where
  port : PortLaw s → PortLaw t := by exact id

variable {s t u : State}

theorem RestKept.trans (h : RestKept s t) (k : RestKept t u) : RestKept s u where
  porn := k.porn.trans h.porn
  straps := k.straps.trans h.straps
  pending := k.pending.trans h.pending
  su := k.su.trans h.su
  loader := k.loader.trans h.loader
  config := k.config.trans h.config
  promised := k.promised.trans h.promised
  mac := k.mac.trans h.mac

theorem LocalKept.trans (h : LocalKept s t) (k : LocalKept t u) : LocalKept s u where
  power := k.power ∘ h.power
  watch := k.watch ∘ h.watch
  line := k.line ∘ h.line
  attach := k.attach ∘ h.attach
  descriptor := k.descriptor ∘ h.descriptor
  notice := k.notice ∘ h.notice
  cell := k.cell ∘ h.cell

theorem KeepsOffPort.trans (h : KeepsOffPort s t) (k : KeepsOffPort t u) : KeepsOffPort s u :=
  ⟨h.rest.trans k.rest, h.laws.trans k.laws, k.image ∘ h.image, k.fetch ∘ h.fetch⟩

theorem Keeps.refl (s : State) : Keeps s s := {}

theorem Keeps.trans (h : Keeps s t) (k : Keeps t u) : Keeps s u :=
  ⟨h.toKeepsOffPort.trans k.toKeepsOffPort, k.port ∘ h.port⟩

theorem RestKept.loading (h : RestKept s t) : t.loading = s.loading := by simp [State.loading, h.loader]

theorem RestKept.holds (h : RestKept s t) (i : StationIx) (n : NodeId) (x : Right) : t.holds i n x = s.holds i n x := by
  simp [State.holds, State.station, h.su]

theorem AttsFit.congr (h : RestKept s t) {n : NodeId} {as : List Attachment} : AttsFit t n as ↔ AttsFit s n as := by
  simp [AttsFit, h.holds, h.loading]

/-! ## Single changes -/

variable (s)

theorem reachUs_keeps (us : Nat) : Keeps s (s.reachUs us) := {}

theorem reachMs_keeps (ms : Nat) : Keeps s (s.reachMs ms) := {}

theorem putMatcher_keeps (m : Matcher) : Keeps s (s.putMatcher m) := {}

theorem putNeeds_keeps (ns : List Need) : Keeps s (s.putNeeds ns) := {}

/-- A table with one row replaced meets what every row meets. -/
theorem Tab.forall_put {α : Type} {k : Nat} {P : Fin k → α → Prop} {t : Tab α k} {i : Fin k} {x : α} (h : ∀ j, P j (t.get j))
    (hx : P i (t.get i) → P i x) (j : Fin k) : P j ((t.put i x).get j) := by
  by_cases e : j = i
  · subst e; rw [Tab.get_put_same]; exact hx (h j)
  · rw [Tab.get_put_ne _ _ e]; exact h j

theorem putLine_keeps {n : NodeId} {l : Line} (h : (s.lines.get n).inBounds → l.inBounds) : Keeps s (s.putLine n l) where
  laws := {
    line := fun hs => lineLaw_iff.mpr fun m =>
      ⟨Tab.forall_put (P := fun _ x => Line.inBounds x) (fun j => (lineLaw_iff.mp hs j).1) h m, (lineLaw_iff.mp hs m).2⟩ }

theorem putWatch_keeps {n : NodeId} {w : Watch} (h : (s.wt n).fits → w.fits) : Keeps s (s.putWatch n w) where
  laws := { watch := fun hs m => Tab.forall_put (P := fun _ x => Watch.fits x) hs h m }

/-- A power record replaced, the ports left out of account. -/
theorem putPower_local {n : NodeId} {p : Power} (h : (s.pw n).fits → p.fits) : LocalKept s (s.putPower n p) where
  power := fun hs m => Tab.forall_put (P := fun _ x => Power.fits x) hs h m

theorem putPower_rest (n : NodeId) (p : Power) : RestKept s (s.putPower n p) := {}

/-- A power record replaced by one that asks nothing else of its port. -/
theorem putPower_keeps {n : NodeId} {p : Power} (h : (s.pw n).fits → p.fits)
    (hp : PortFits s.porn (s.pw n) (s.port n) → PortFits s.porn p (s.port n)) : Keeps s (s.putPower n p) where
  laws := putPower_local s h
  port := fun hs m => Tab.forall_put (P := fun m x => PortFits s.porn x (s.port m)) hs hp m

theorem portLaw_putPort {n : NodeId} {q : MediaPort} (h : PortFits s.porn (s.pw n) (s.port n) → PortFits s.porn (s.pw n) q)
    (hs : PortLaw s) : PortLaw (s.putPort n q) := fun m => Tab.forall_put (P := fun m x => PortFits s.porn (s.pw m) x) hs h m

theorem fetchLaw_putPort {n : NodeId} {q : MediaPort}
    (h : PortEngaged (s.port n) (s.images.writes.get n).live → PortEngaged q (s.images.writes.get n).live)
    (hs : FetchLaw s) : FetchLaw (s.putPort n q) := by
  obtain ⟨live, each⟩ := fetchLaw_iff.mp hs
  exact fetchLaw_iff.mpr ⟨live, fun m => Tab.forall_put (P := fun m x => PortEngaged x (s.images.writes.get m).live) each h m⟩

theorem imageLaw_congr {s t : State} (hi : ∀ r, t.image r = s.image r) (hm : ∀ n, (t.port n).medium.ref? = (s.port n).medium.ref?)
    (h : ImageLaw s) : ImageLaw t := by
  simpa only [ImageLaw, hi, hm] using h

theorem medium_putPort {n : NodeId} {q : MediaPort} (h : q.medium.ref? = (s.port n).medium.ref?) (m : NodeId) :
    ((s.putPort n q).port m).medium.ref? = (s.port m).medium.ref? := by
  by_cases e : m = n
  · subst e; simp [h]
  · simp [e]

/-- A port replaced by one that refers to the same record. -/
theorem putPort_keeps {n : NodeId} {q : MediaPort} (h : PortFits s.porn (s.pw n) (s.port n) → PortFits s.porn (s.pw n) q)
    (hm : q.medium.ref? = (s.port n).medium.ref?)
    (hf : PortEngaged (s.port n) (s.images.writes.get n).live → PortEngaged q (s.images.writes.get n).live) :
    Keeps s (s.putPort n q) where
  port := portLaw_putPort s h
  image := imageLaw_congr (fun _ => rfl) (medium_putPort s hm)
  fetch := fetchLaw_putPort s hf

/-- A port that stays attached as it is, its medium as it is, and begins no request. -/
theorem putPort_keeps_of_same {n : NodeId} {q : MediaPort} (ha : q.attached = (s.port n).attached := by rfl)
    (hb : q.busPower = (s.port n).busPower := by rfl) (hm : q.medium = (s.port n).medium := by rfl)
    (hr : q.active.isSome → (s.port n).active.isSome := by exact id) : Keeps s (s.putPort n q) := by
  refine putPort_keeps s ?_ (by rw [hm]) ?_
  · rintro ⟨granted, reattach, attached, active, porn⟩
    exact ⟨granted, reattach, by rw [ha, hb, attached], fun h => by rw [ha]; exact active (hr h), porn⟩
  · rintro ⟨active, write⟩
    exact ⟨fun h => by rw [hm]; exact active (hr h), by rw [hm]; exact write⟩

theorem putPool_keeps {p : Pool} (h : CellLaw s → CellLaw (s.putPool p)) : Keeps s (s.putPool p) where
  laws := { cell := h }

/-- A stream and the pool replaced: what the ring, the attachments and the cells are asked for. -/
theorem putStream_putPool_keeps {n : NodeId} {x : Stream} {p : Pool}
    (ring : (s.streams.get n).ring.length ≤ 1024 → x.ring.length ≤ 1024)
    (atts : AttsFit s n (s.streams.get n).atts → AttsFit s n x.atts)
    (cells : CellLaw s → CellLaw ((s.putStream n x).putPool p)) : Keeps s ((s.putStream n x).putPool p) where
  laws := {
    line := fun hs => lineLaw_iff.mpr fun m => ⟨(lineLaw_iff.mp hs m).1,
      Tab.forall_put (P := fun _ x => (Stream.ring x).length ≤ 1024) (fun j => (lineLaw_iff.mp hs j).2) ring m⟩
    attach := fun hs => attachLaw_iff.mpr ⟨fun m =>
      Tab.forall_put (P := fun m x => AttsFit s m (Stream.atts x)) (attachLaw_iff.mp hs).1 atts m, (attachLaw_iff.mp hs).2⟩
    cell := cells }

theorem putStream_keeps {n : NodeId} {x : Stream}
    (ring : (s.streams.get n).ring.length ≤ 1024 → x.ring.length ≤ 1024)
    (atts : AttsFit s n (s.streams.get n).atts → AttsFit s n x.atts) (cells : CellLaw s → CellLaw (s.putStream n x)) :
    Keeps s (s.putStream n x) := putStream_putPool_keeps (p := s.pool) s ring atts cells

theorem putFetch_keeps {f : FetchIx} {x : FetchEntry}
    (h : ∀ l, x.live = some l → (∃ k, (s.images.fetches.get f).live = some k ∧ k.image = l.image) ∨ (s.image l.image).isSome) :
    Keeps s (s.putFetch f x) where
  fetch := fun hs => by
    obtain ⟨live, each⟩ := fetchLaw_iff.mp hs
    refine fetchLaw_iff.mpr ⟨fun g l hl => ?_, each⟩
    exact Tab.forall_put (P := fun _ x => ∀ l, FetchEntry.live x = some l → (s.image l.image).isSome) live (fun old l hl => by
      rcases h l hl with ⟨k, hk, e⟩ | h
      · exact e ▸ old k hk
      · exact h) g l hl

theorem putWrite_keeps {n : NodeId} {x : WriteEntry}
    (h : PortEngaged (s.port n) (s.images.writes.get n).live → PortEngaged (s.port n) x.live) : Keeps s (s.putWrite n x) where
  fetch := fun hs => by
    obtain ⟨live, each⟩ := fetchLaw_iff.mp hs
    exact fetchLaw_iff.mpr ⟨live, fun m =>
      Tab.forall_put (P := fun m x => PortEngaged (s.port m) (WriteEntry.live x)) each h m⟩

/-- A write ended, or changed but for the record it is on. -/
theorem putWrite_keeps_of_same {n : NodeId} {x : WriteEntry}
    (h : ∀ w, x.live = some w → ∃ v, (s.images.writes.get n).live = some v ∧ v.image = w.image) : Keeps s (s.putWrite n x) := by
  refine putWrite_keeps s fun hs => ⟨hs.1, fun w hw => ?_⟩
  obtain ⟨v, hv, e⟩ := h w hw
  have := hs.2 v hv
  rwa [e] at this

theorem fetchLaw_putImage {r : ImageIx} {y : ImageRec} (hs : FetchLaw s) : FetchLaw (s.putImage r (some y)) := by
  obtain ⟨live, each⟩ := fetchLaw_iff.mp hs
  refine fetchLaw_iff.mpr ⟨fun f l hl => ?_, each⟩
  by_cases e : l.image = r
  · rw [e, State.image_putImage_same]; rfl
  · rw [State.image_putImage_ne _ _ e]; exact live f l hl

/-- An image record whose server, image, users and writable flag stay. -/
theorem putImage_keeps {r : ImageIx} {x y : ImageRec} (hx : s.image r = some x) (hs : y.server = x.server) (hi : y.image = x.image)
    (hu : y.users = x.users) (hw : y.writable = x.writable) : Keeps s (s.putImage r (some y)) where
  image := fun ⟨users, known, distinct, alone⟩ => by
    have at_ : ∀ q z, (s.putImage r (some y)).image q = some z → ∃ v, s.image q = some v ∧ z.server = v.server ∧
        z.image = v.image ∧ z.users = v.users ∧ z.writable = v.writable := by
      intro q z hz
      by_cases e : q = r
      · subst e
        rw [State.image_putImage_same, Option.some_inj] at hz
        subst hz
        exact ⟨x, hx, hs, hi, hu, hw⟩
      · rw [State.image_putImage_ne _ _ e] at hz
        exact ⟨z, hz, rfl, rfl, rfl, rfl⟩
    refine ⟨fun q z hz n => ?_, fun n m hm => ?_, fun q p z v hz hv h1 h2 => ?_, fun q z hz h n k hn hk => ?_⟩
    · obtain ⟨v, hv, -, -, eu, -⟩ := at_ q z hz
      rw [eu]; exact users q v hv n
    · by_cases e : m.image = r
      · rw [e, State.image_putImage_same]; rfl
      · rw [State.image_putImage_ne _ _ e]; exact known n m hm
    · obtain ⟨a, ha, as, ai, -, -⟩ := at_ q z hz
      obtain ⟨b, hb, bs, bi, -, -⟩ := at_ p v hv
      exact distinct q p a b ha hb (by rw [← as, ← bs, h1]) (by rw [← ai, ← bi, h2])
    · obtain ⟨v, hv, -, -, eu, ew⟩ := at_ q z hz
      rw [eu] at hn hk
      exact alone q v hv (ew ▸ h) n k hn hk
  fetch := fetchLaw_putImage s

/-! ## Frames and events -/

/-- Frames of the classes other than ANSWER that find descriptors outside the reserve (R186). -/
theorem enqueueAll_keeps {fs : List TxFrame} (hc : ∀ f ∈ fs, f.cls ≠ .answer) (ho : fs.length ≤ s.up.outside) :
    Keeps s (s.enqueueAll fs) where
  laws := {
    descriptor := fun ⟨room, reserve⟩ => by
      have all : fs.filter (fun f => f.cls ≠ .answer) = fs := List.filter_eq_self.mpr fun f hf => by simpa using hc f hf
      have frames : (s.enqueueAll fs).up.frames.length = s.up.frames.length + fs.length := by
        simp [State.enqueueAll, Uplink.frames, Nat.add_assoc]
      have others : (s.enqueueAll fs).up.others = s.up.others + fs.length := by
        simp only [State.enqueueAll, Uplink.others, Uplink.frames, ← List.append_assoc, List.filter_append, all,
          List.length_append]
      have promised : (s.enqueueAll fs).up.promised = s.up.promised := rfl
      have out : s.up.outside = min (56 - s.up.others) (64 - s.up.frames.length - s.up.promised) := rfl
      exact ⟨by omega, by omega⟩ }

theorem enqueue_keeps {f : TxFrame} (hc : f.cls ≠ .answer) (ho : 1 ≤ s.up.outside) : Keeps s (s.enqueue f) :=
  enqueueAll_keeps s (fs := [f]) (by simpa using hc) (by simpa using ho)

theorem noticeLaw_putSet {id : SetId} {p : PendingSet} (h : (s.pendingSet id).fits id → p.fits id) (hs : NoticeLaw s) :
    NoticeLaw (s.putSet id p) := by
  intro q
  by_cases e : q = id
  · subst e; rw [State.pendingSet_putSet_same]; exact h (hs q)
  · rw [State.pendingSet_putSet_ne _ _ e]; exact hs q

theorem putSet_keeps {id : SetId} {p : PendingSet} (h : (s.pendingSet id).fits id → p.fits id) : Keeps s (s.putSet id p) where
  rest := { porn := by simp, straps := by simp, pending := by simp, su := by simp, loader := by simp, config := by simp,
            promised := by simp, mac := by simp }
  laws := {
    power := fun hs => by simpa [PowerLaw, State.pw] using hs
    watch := fun hs => by simpa [WatchLaw, State.wt] using hs
    line := fun hs => by simpa [LineLaw] using hs
    attach := fun hs => by simpa [AttachLaw, State.holds, State.station, State.loading] using hs
    descriptor := fun hs => by simpa [DescriptorLaw] using hs
    notice := noticeLaw_putSet s h
    cell := fun hs => by cases id <;> exact hs }
  port := fun hs => by cases id <;> exact hs
  image := fun hs => by cases id <;> exact hs
  fetch := fun hs => by cases id <;> exact hs

theorem PendingSet.raise_fits {p : PendingSet} {id : SetId} {e : Event} (he : e.rank = 10 ↔ id = none) (h : p.fits id) :
    (p.raise e).fits id := by
  obtain ⟨nodup, each⟩ := h
  unfold PendingSet.raise
  split
  · have codes : (p.members.map (fun m => if m.event.code = e.code then (⟨e, min (m.count + 1) 255⟩ : Member) else m)).map
        (fun m => m.event.code) = p.members.map (fun m => m.event.code) := by
      rw [List.map_map]
      refine List.map_congr_left fun m _ => ?_
      by_cases c : m.event.code = e.code <;> simp [c]
    refine ⟨codes ▸ nodup, fun m hm => ?_⟩
    obtain ⟨x, hx, rfl⟩ := List.mem_map.mp hm
    obtain ⟨low, high, rank⟩ := each x hx
    split
    · exact ⟨by simp, by simp, he⟩
    · exact ⟨low, high, rank⟩
  · next new =>
    refine ⟨?_, fun m hm => ?_⟩
    · rw [List.map_append, List.nodup_append]
      refine ⟨nodup, by simp, fun a ha b hb => ?_⟩
      obtain ⟨m, hm, rfl⟩ := List.mem_map.mp ha
      rintro rfl
      exact new (List.any_eq_true.mpr ⟨m, hm, by simpa using hb⟩)
    · rcases List.mem_append.mp hm with hm | hm
      · exact each m hm
      · rw [List.mem_singleton] at hm
        subst hm
        exact ⟨le_refl 1, by simp, he⟩

theorem raise_keeps {id : SetId} {e : Event} (he : e.rank = 10 ↔ id = none) : Keeps s (s.raise id e) :=
  putSet_keeps s (PendingSet.raise_fits he)

/-- An event of a node, which is none of the part's. -/
theorem raise_node_keeps {n : NodeId} {e : Event} (he : e.rank ≠ 10) : Keeps s (s.raise (some n) e) :=
  raise_keeps s (by simpa using he)

/-- A relation that is reflexive and transitive holds over a fold of operations that keep the laws. -/
theorem foldl_keep {α : Type} {f : State → α → State} {l : List α} (h : ∀ a, ∀ x ∈ l, Keeps a (f a x)) : Keeps s (l.foldl f s) :=
  foldl_keeps Keeps.refl Keeps.trans l h s

end Sys2Proof.Machine
end

section
/-! PROOFS. The laws under the operations of the Buffer Pool, the history chains and the need list (chapters 3, 8 and 9). -/
namespace Sys2Proof.Machine

-- Side by side, the proofs of this text would need more thread stacks than the check's memory limit holds.
set_option Elab.async false

variable (s : State)

/-! ## The pool law of a state -/

theorem cellLaw_congr {s t : State} (hc : ∀ n, t.cellsOf n = s.cellsOf n) (hm : ∀ n, t.histMin n = s.histMin n)
    (hp : t.pool = s.pool) (h : CellLaw s) : CellLaw t := by
  rw [cellLaw_iff] at h ⊢
  rwa [funext hc, funext hm, hp]

/-- Cells given back and a pool with no new entry keep the law. -/
theorem cellLaw_of_shrink {s t : State} (hc : ∀ n, (t.cellsOf n).Subperm (s.cellsOf n)) (hm : ∀ n, t.histMin n = s.histMin n)
    (hp : t.pool = s.pool) (h : CellLaw s) : CellLaw t := by
  rw [cellLaw_iff] at h ⊢
  rw [funext hm, hp]
  exact h.shrink hc

theorem cellsOf_putStream (n : NodeId) (x : Stream) (m : NodeId) :
    (s.putStream n x).cellsOf m = if m = n then x.chain.map HistCell.cell else s.cellsOf m := by
  by_cases e : m = n
  · subst e; simp [State.cellsOf]
  · simp [State.cellsOf, e]

theorem histMin_putStream {n : NodeId} {x : Stream} (h : x.settings = (s.streams.get n).settings) (m : NodeId) :
    (s.putStream n x).histMin m = s.histMin m := by
  by_cases e : m = n
  · subst e; simp [State.histMin, h]
  · simp [State.histMin, e]

/-- A stream that keeps its minimum and holds no other cells than before. -/
theorem cellLaw_putStream {n : NodeId} {x : Stream} (hc : (x.chain.map HistCell.cell).Subperm (s.cellsOf n))
    (hm : x.settings = (s.streams.get n).settings) (h : CellLaw s) : CellLaw (s.putStream n x) := by
  refine cellLaw_of_shrink (fun m => ?_) (histMin_putStream s hm) rfl h
  rw [cellsOf_putStream]
  by_cases e : m = n
  · subst e; simpa using hc
  · simpa [e] using List.Subperm.refl _

/-- A stream that keeps its history and its settings. -/
theorem putStream_keeps_of_history {n : NodeId} {x : Stream}
    (ring : (s.streams.get n).ring.length ≤ 1024 → x.ring.length ≤ 1024)
    (atts : AttsFit s n (s.streams.get n).atts → AttsFit s n x.atts) (hc : x.chain = (s.streams.get n).chain)
    (hm : x.settings = (s.streams.get n).settings) : Keeps s (s.putStream n x) :=
  putStream_keeps s ring atts (cellLaw_putStream s (by rw [hc]; exact List.Subperm.refl _) hm)

/-- A stream whose history alone changes. -/
theorem putHistory_keeps {n : NodeId} {c : List HistCell} {a : Offset} {r : Option Replay}
    (h : CellLaw s → CellLaw (s.putStream n ((s.streams.get n).withHistory c a r))) :
    Keeps s (s.putStream n ((s.streams.get n).withHistory c a r)) := putStream_keeps s (by simp) (by simp) h

/-! ## History (R52, R53) -/

theorem cells_adjustReplay (t : Stream) : t.adjustReplay.chain = t.chain := by
  obtain ⟨r, h⟩ := t.adjustReplay_eq
  simp [h]

theorem cells_append (t : Stream) (e : Entry) : (t.append e).chain.map HistCell.cell = t.chain.map HistCell.cell := by
  unfold Stream.append
  split
  · rfl
  · next c hc =>
    have := List.dropLast_append_getLast? c hc
    conv_rhs => rw [← this]
    simp

theorem cells_dropOldest (t : Stream) : t.dropOldest.chain = t.chain.drop 1 := by simp [Stream.dropOldest, cells_adjustReplay]

theorem cells_recycle (t : Stream) : (t.recycle.chain.map HistCell.cell).Perm (t.chain.map HistCell.cell) := by
  unfold Stream.recycle
  split
  · exact .refl _
  · next c rest hc =>
    simp only [cells_adjustReplay, hc, List.map_append, List.map_cons, List.map_nil]
    exact List.perm_append_singleton _ _

theorem ownedCells_eq : s.ownedCells = allNodes.flatMap s.cellsOf ++ s.pool.cells := rfl

theorem grant_spec {n : NodeId} {c : Nat} (h : s.grant n = some c) :
    (s.heldCells n < s.histMin n ∨ 1 ≤ s.slack) ∧ c ∉ s.ownedCells ∧ c < 1024 := by
  unfold State.grant at h
  split at h
  · next room =>
    have hc := mem_freshCells (List.mem_of_mem_head? h)
    exact ⟨room.imp_right And.right, hc.1, by omega⟩
  · cases h

/-- An entry that passes to history takes a granted cell, or none (R52, R165). -/
theorem cellLaw_pass (n : NodeId) (o : Offset) (e : Entry) (h : CellLaw s) : CellLaw (s.pass n o e) := by
  have kept : ∀ x : Stream, x.settings = (s.streams.get n).settings → (x.chain.map HistCell.cell).Subperm (s.cellsOf n) →
      ∀ a, CellLaw (s.putStream n (({ x with oldest := a } : Stream).append e)) := by
    intro x hx hc a
    obtain ⟨c, happ⟩ := Stream.append_eq ({ x with oldest := a } : Stream) e
    exact cellLaw_putStream s (by rw [cells_append]; exact hc) (by rw [happ]; exact hx) h
  simp only [State.pass]
  generalize (if (s.streams.get n).chain = [] then o else (s.makeRoom n).oldest) = a
  simp only [State.makeRoom]
  split
  · exact kept _ rfl (List.Subperm.refl _) a
  · split
    · next c hg =>
      obtain ⟨room, new, below⟩ := grant_spec s hg
      have fit := cellLaw_iff.mp h
      obtain ⟨c', happ⟩ := Stream.append_eq
        ({ s.streams.get n with chain := (s.streams.get n).chain ++ [⟨c, []⟩], oldest := a } : Stream) e
      rw [cellLaw_iff, funext (histMin_putStream s (by rw [happ]; rfl))]
      refine fit.grant new below (n := n) ?_ (fun k hk => ?_) ?_
      · rw [cellsOf_putStream, cells_append]
        simp [State.cellsOf]
      · rw [cellsOf_putStream]
        simp [hk]
      · rw [length_cellsOf]
        have := slack_eq s
        omega
    · obtain ⟨c, b, r, hr⟩ := Stream.recycle_eq (s.streams.get n)
      exact kept _ (by rw [hr]; rfl) (cells_recycle _).subperm a

theorem pass_keeps (n : NodeId) (o : Offset) (e : Entry) : Keeps s (s.pass n o e) := by
  obtain ⟨c, a, r, h⟩ := s.pass_eq n o e
  have cells := cellLaw_pass s n o e
  rw [h] at cells ⊢
  exact putHistory_keeps s cells

theorem passAll_keeps (n : NodeId) (o : Offset) (es : List Entry) : Keeps s (s.passAll n o es) := by
  induction es generalizing s o with
  | nil => exact .refl s
  | cons e es ih => exact (pass_keeps s n o e).trans (ih _ _)

theorem dropOldest_keeps (n : NodeId) : Keeps s (s.putStream n (s.streams.get n).dropOldest) := by
  have cells := cellLaw_putStream s (n := n) (x := (s.streams.get n).dropOldest)
  obtain ⟨r, h⟩ := Stream.dropOldest_eq (s.streams.get n)
  have sub : ((s.streams.get n).dropOldest.chain.map HistCell.cell).Subperm (s.cellsOf n) := by
    rw [cells_dropOldest]
    exact ((List.drop_sublist 1 _).map _).subperm
  have := cells sub (by rw [h]; rfl)
  rw [h] at this ⊢
  exact putHistory_keeps s this

/-! ## The extent table (R167 to R171) -/

/-- A pool whose entries have the same cells at the same places. -/
theorem relabel_keeps {p : Pool} (hc : ∀ i, p.placed i = s.pool.placed i) (hr : ∀ i ∈ s.pool.recency, i ∈ p.recency) :
    Keeps s (s.putPool p) := putPool_keeps s fun h => by
  rw [cellLaw_iff] at h ⊢
  exact h.relabel hc hr

theorem poolFree_keeps (i : ExtentIx) : Keeps s (s.putPool (s.pool.free i)) := putPool_keeps s fun h => by
  rw [cellLaw_iff] at h ⊢
  exact h.free i

theorem CellsFit.evict {held : NodeId → List Nat} {least : NodeId → Nat} {p : Pool} (h : CellsFit held least p) (i : ExtentIx) :
    CellsFit held least (p.evict i) := (h.free i).relabel (fun _ => rfl) (fun _ hj => hj)

theorem evict_keeps (i : ExtentIx) : Keeps s (s.putPool (s.pool.evict i)) := putPool_keeps s fun h => by
  rw [cellLaw_iff] at h ⊢
  exact h.evict i

theorem putPool_waiting_keeps (b : Bool) : Keeps s (s.putPool { s.pool with waiting := b }) :=
  relabel_keeps s (fun _ => rfl) (fun _ h => h)

theorem mem_touch {p : Pool} {i j : ExtentIx} (h : j ∈ p.recency) : j ∈ (p.touch i).recency := by
  by_cases e : j = i
  · simp [Pool.touch, e]
  · simp [Pool.touch, e, h]

theorem placed_putExtent {p : Pool} {i : ExtentIx} {e x : Extent} (h : p.extents.get i = some e) (hx : x.cells = e.cells)
    (j : ExtentIx) : (p.putExtent i x).placed j = p.placed j := by
  by_cases c : j = i
  · subst c; simp [Pool.placed, Pool.putExtent, h, hx]
  · simp [Pool.placed, Pool.putExtent, c]

theorem putExtent_keeps {i : ExtentIx} {e x : Extent} (h : s.pool.extents.get i = some e) (hx : x.cells = e.cells) :
    Keeps s (s.putPool (s.pool.putExtent i x)) := relabel_keeps s (placed_putExtent h hx) (fun _ h => h)

theorem putExtent_touch_keeps {i : ExtentIx} {e x : Extent} (h : s.pool.extents.get i = some e) (hx : x.cells = e.cells) :
    Keeps s (s.putPool ((s.pool.putExtent i x).touch i)) := relabel_keeps s (placed_putExtent h hx) (fun _ h => mem_touch h)

theorem setOwned_keeps (v : StationIx) (g : BitVec 32) (b : Bool) : Keeps s (s.putPool (s.pool.setOwned v g b)) := by
  refine relabel_keeps s (fun i => ?_) (fun _ h => h)
  cases e : s.pool.extents.get i with
  | none => simp [Pool.placed, Pool.setOwned, e]
  | some x =>
    simp only [Pool.placed, Pool.setOwned, Tab.get_map, e, Option.map_some, Option.some_inj]
    split <;> rfl

/-! ## Allocation (R172, R173) -/

theorem reclaim_keeps (n : NodeId) : Keeps s (s.reclaim n) :=
  (dropOldest_keeps s n).trans (relabel_keeps _ (fun _ => rfl) (fun _ h => h))

theorem obtain_keeps (k : Nat) : Keeps s (State.obtain k s) := by
  induction k generalizing s with
  | zero => exact .refl s
  | succ k ih =>
    unfold State.obtain
    split
    · exact .refl s
    · split
      · exact (evict_keeps s _).trans (ih _)
      · split
        · exact (reclaim_keeps s _).trans (ih _)
        · exact .refl s

theorem victim_spec {p : Pool} {i : ExtentIx} (h : p.victim = some i) : ∃ e, p.extents.get i = some e ∧ e.evictable = true := by
  unfold Pool.victim at h
  rw [Option.orElse_eq_or, Option.or_eq_some_iff] at h
  have found : ∀ b, p.recency.find? (fun i => match p.extents.get i with
      | some e => e.evictable && e.owned == b
      | none => false) = some i → ∃ e, p.extents.get i = some e ∧ e.evictable = true := by
    intro b hb
    have := List.find?_some hb
    split at this
    · next e he => exact ⟨e, he, by simp at this; exact this.1⟩
    · cases this
  rcases h with h | ⟨-, h⟩
  · exact found _ h
  · exact found _ h

theorem victim_none {p : Pool} (hr : ∀ x ∈ p.used, x.1 ∈ p.recency) (h : p.victim = none) : p.evictableCount = 0 := by
  unfold Pool.victim at h
  rw [Option.orElse_eq_or, Option.or_eq_none_iff, List.find?_eq_none, List.find?_eq_none] at h
  obtain ⟨unowned, owned⟩ := h
  rw [Pool.evictableCount, List.length_eq_zero_iff, List.filter_eq_nil_iff]
  intro x hx he
  have hm := mem_used.mp hx
  have a := unowned _ (hr x hx)
  have b := owned _ (hr x hx)
  simp only [hm, he, Bool.true_and, beq_iff_eq] at a b
  cases ho : x.2.owned <;> simp_all

theorem evictableCount_free {p : Pool} {i : ExtentIx} {e : Extent} (h : p.extents.get i = some e) (he : e.evictable = true) :
    p.evictableCount = (p.free i).evictableCount + 1 := by
  have := ((used_perm h).filter (fun x => x.2.evictable)).length_eq
  simpa [Pool.evictableCount, he] using this

/-- The best of a list by a measure, as `State.richest` folds it: one of positive measure wherever there is one. -/
theorem richest_fold (l : List NodeId) (b : Option NodeId) (hb : ∀ n, b = some n → s.aboveMin n ≠ 0) :
    let r := l.foldl (fun best n =>
      if s.aboveMin n = 0 then best
      else
        match best with
        | none => some n
        | some b => if s.aboveMin b < s.aboveMin n then some n else best) b
    (∀ n, r = some n → s.aboveMin n ≠ 0) ∧ (r = none → b = none ∧ ∀ n ∈ l, s.aboveMin n = 0) := by
  induction l generalizing b with
  | nil => exact ⟨hb, fun h => ⟨h, by simp⟩⟩
  | cons m l ih =>
    simp only [List.foldl_cons]
    by_cases hm : s.aboveMin m = 0
    · simp only [hm, if_true]
      obtain ⟨some_, none_⟩ := ih b hb
      exact ⟨some_, fun h => ⟨(none_ h).1, fun n hn => (List.mem_cons.mp hn).elim (fun e => e ▸ hm) ((none_ h).2 n)⟩⟩
    · simp only [hm, if_false]
      cases b with
      | none =>
        obtain ⟨some_, none_⟩ := ih (some m) (by simpa using hm)
        exact ⟨some_, fun h => by simpa using (none_ h).1⟩
      | some c =>
        dsimp only
        split
        · obtain ⟨some_, none_⟩ := ih (some m) (by simpa using hm)
          exact ⟨some_, fun h => by simpa using (none_ h).1⟩
        · obtain ⟨some_, none_⟩ := ih (some c) hb
          exact ⟨some_, fun h => by simpa using (none_ h).1⟩

theorem richest_some {n : NodeId} (h : s.richest = some n) : s.aboveMin n ≠ 0 :=
  (richest_fold s allNodes none (by simp)).1 n h

theorem richest_none (h : s.richest = none) (n : NodeId) : s.aboveMin n = 0 :=
  ((richest_fold s allNodes none (by simp)).2 h).2 n (mem_allNodes n)

/-- What the nodes hold above their minima. -/
def State.above (s : State) : Nat := (allNodes.map s.aboveMin).sum

theorem obtainable_eq : s.obtainable = s.slack + 8 * s.pool.evictableCount + s.above := rfl

theorem sum_split (f : NodeId → Nat) (n : NodeId) :
    (allNodes.map f).sum = f n + ((allNodes.filter (· ≠ n)).map f).sum := by
  simpa using ((allNodes_perm n).map f).sum_eq

variable {s}

theorem evict_obtainable (h : CellLaw s) {i : ExtentIx} (hv : s.pool.victim = some i) :
    s.pool.evictableCount = (s.putPool (s.pool.evict i)).pool.evictableCount + 1 ∧
      (s.putPool (s.pool.evict i)).above = s.above ∧ (s.putPool (s.pool.evict i)).obtainable = s.obtainable := by
  obtain ⟨e, he, hev⟩ := victim_spec hv
  have count : s.pool.evictableCount = (s.putPool (s.pool.evict i)).pool.evictableCount + 1 := evictableCount_free he hev
  have used : s.pool.used.length = (s.putPool (s.pool.evict i)).pool.used.length + 1 := length_used_free he
  have above : (s.putPool (s.pool.evict i)).above = s.above := rfl
  have sl := slack_eq s
  have sl' := slack_eq (s.putPool (s.pool.evict i))
  have same : claims (s.putPool (s.pool.evict i)).cellsOf (s.putPool (s.pool.evict i)).histMin = claims s.cellsOf s.histMin := rfl
  have fits := (cellLaw_iff.mp h).fits
  refine ⟨count, above, ?_⟩
  rw [obtainable_eq, obtainable_eq]
  omega

theorem heldCells_reclaim (n m : NodeId) :
    (s.reclaim n).heldCells m = if m = n then s.heldCells m - 1 else s.heldCells m := by
  by_cases e : m = n
  · subst e; simp [State.reclaim, State.heldCells, cells_dropOldest]
  · simp [State.reclaim, State.heldCells, e]

theorem histMin_reclaim (n m : NodeId) : (s.reclaim n).histMin m = s.histMin m := by
  obtain ⟨r, h⟩ := Stream.dropOldest_eq (s.streams.get n)
  exact histMin_putStream s (by rw [h]; rfl) m

theorem reclaim_obtainable (h : CellLaw s) {n : NodeId} (hn : s.aboveMin n ≠ 0) :
    (s.reclaim n).pool.evictableCount = s.pool.evictableCount ∧ s.above = (s.reclaim n).above + 1 ∧
      (s.reclaim n).obtainable = s.obtainable := by
  have count : (s.reclaim n).pool.evictableCount = s.pool.evictableCount := rfl
  have used : (s.reclaim n).pool.used = s.pool.used := rfl
  have more : s.histMin n < s.heldCells n := by unfold State.aboveMin at hn; omega
  have above : s.above = (s.reclaim n).above + 1 := by
    unfold State.above
    rw [sum_split s.aboveMin n, sum_split (s.reclaim n).aboveMin n]
    have others : (allNodes.filter (· ≠ n)).map (s.reclaim n).aboveMin = (allNodes.filter (· ≠ n)).map s.aboveMin :=
      List.map_congr_left fun k hk => by
        have : k ≠ n := by simpa using (List.mem_filter.mp hk).2
        simp [State.aboveMin, heldCells_reclaim, histMin_reclaim, this]
    rw [others]
    simp only [State.aboveMin, heldCells_reclaim, histMin_reclaim, if_true]
    omega
  have lower : claims s.cellsOf s.histMin = claims (s.reclaim n).cellsOf (s.reclaim n).histMin + 1 := by
    rw [claims_split s.cellsOf s.histMin n, claims_split (s.reclaim n).cellsOf (s.reclaim n).histMin n]
    have others : (allNodes.filter (· ≠ n)).map (fun k => max ((s.reclaim n).histMin k) ((s.reclaim n).cellsOf k).length) =
        (allNodes.filter (· ≠ n)).map (fun k => max (s.histMin k) (s.cellsOf k).length) :=
      List.map_congr_left fun k hk => by
        have : k ≠ n := by simpa using (List.mem_filter.mp hk).2
        simp [length_cellsOf, heldCells_reclaim, histMin_reclaim, this]
    rw [others]
    simp only [length_cellsOf, heldCells_reclaim, histMin_reclaim, if_true]
    omega
  have sl := slack_eq s
  have sl' := slack_eq (s.reclaim n)
  have fits := (cellLaw_iff.mp h).fits
  refine ⟨count, above, ?_⟩
  rw [obtainable_eq, obtainable_eq]
  rw [used] at sl'
  omega

/-- Where eight cells can be obtained, the order of R173 obtains them. -/
theorem slack_obtain (k : Nat) (h : CellLaw s) (ho : 8 ≤ s.obtainable) (hk : s.pool.evictableCount + s.above ≤ k) :
    8 ≤ (State.obtain k s).slack := by
  induction k generalizing s with
  | zero =>
    have := obtainable_eq s
    simp only [State.obtain]
    omega
  | succ k ih =>
    unfold State.obtain
    split
    · assumption
    · next few =>
      split
      · next i hv =>
        obtain ⟨count, above, same⟩ := evict_obtainable h hv
        exact ih ((evict_keeps s i).laws.cell h) (by omega) (by omega)
      · next hv =>
        have none := victim_none (cellLaw_iff.mp h).recent hv
        split
        · next n hr =>
          obtain ⟨count, above, same⟩ := reclaim_obtainable h (richest_some s hr)
          exact ih ((reclaim_keeps s n).laws.cell h) (by omega) (by omega)
        · next hr =>
          have zero : s.above = 0 := by
            unfold State.above
            rw [List.map_congr_left (fun n _ => richest_none s hr n)]
            rfl
          have := obtainable_eq s
          omega

theorem evictableCount_le (p : Pool) : p.evictableCount ≤ 128 := by
  have used : p.used.length ≤ 128 := by
    have := List.length_filterMap_le (fun i => (p.extents.get i).map (fun e => (i, e))) (indices 128)
    simpa [Pool.used, indices] using this
  exact (List.length_filter_le _ _).trans used

theorem above_le (h : CellLaw s) : s.above ≤ 1024 := by
  have : s.above ≤ s.historyCells := List.sum_le_sum fun n _ => by unfold State.aboveMin; omega
  have := (cellLaw_iff.mp h).toCellsOwned.total
  omega

theorem unusedPlace_spec {p : Pool} {i : ExtentIx} (h : p.unusedPlace = some i) : p.extents.get i = none := by
  simpa using List.find?_some h

theorem cellLaw_placeExtent {k : ExtentKey} {i : ExtentIx} (hi : s.pool.extents.get i = none)
    (slack : 8 ≤ s.slack) (h : CellLaw s) : CellLaw (s.placeExtent k i) := by
  have fit := cellLaw_iff.mp h
  have total := fit.toCellsOwned.total
  have sl := slack_eq s
  have owned : s.ownedCells.length + 8 ≤ 1024 := by
    rw [ownedCells_eq, List.length_append, length_flatMap_cellsOf, length_poolCells fit.eight]
    have := historyCells_add_reservation s
    omega
  rw [cellLaw_iff]
  refine fit.place (q := (s.placeExtent k i).pool) hi rfl rfl (nodup_freshCells _ _ _ _) (fun c hc => ?_) (length_freshCells_eight owned) (by omega)
  obtain ⟨new, -, below⟩ := mem_freshCells hc
  exact ⟨new, by omega⟩

/-- A change of the pool after others: what it leaves is decided by the law of the state that all began from. -/
theorem Keeps.putPool {s t : State} (h : Keeps s t) {p : Pool} (hc : CellLaw s → CellLaw (t.putPool p)) :
    Keeps s (t.putPool p) where
  rest := h.rest.trans {}
  laws := {
    power := h.laws.power, watch := h.laws.watch, line := h.laws.line, attach := h.laws.attach
    descriptor := h.laws.descriptor, notice := h.laws.notice, cell := hc }
  port := h.port
  image := h.image
  fetch := h.fetch

variable (s)

theorem allocate_keeps (k : ExtentKey) : Keeps s (s.allocate k).1 := by
  unfold State.allocate
  split
  · exact putPool_waiting_keeps s true
  · next enough =>
    split
    · next i hi =>
      refine (obtain_keeps s 1200).putPool fun h => ?_
      have count := evictableCount_le s.pool
      have above := above_le h
      exact cellLaw_placeExtent (unusedPlace_spec hi) (slack_obtain 1200 h (by omega) (by omega))
        ((obtain_keeps s 1200).laws.cell h)
    · exact putPool_waiting_keeps s true

/-- What an allocation can change: the chains and the pool. -/
theorem obtain_eq (k : Nat) : ∃ st p, State.obtain k s = { s with streams := st, pool := p } := by
  induction k generalizing s with
  | zero => exact ⟨_, _, rfl⟩
  | succ k ih =>
    unfold State.obtain
    split
    · exact ⟨_, _, rfl⟩
    · split
      · exact ih (s.putPool _)
      · split
        · exact ih (s.reclaim _)
        · exact ⟨_, _, rfl⟩

theorem allocate_eq (k : ExtentKey) : ∃ st p, (s.allocate k).1 = { s with streams := st, pool := p } := by
  obtain ⟨st, p, h⟩ := obtain_eq s 1200
  unfold State.allocate
  rw [h]
  split
  · exact ⟨_, _, rfl⟩
  · split <;> exact ⟨_, _, rfl⟩

/-! ## The need list (R149, R150) -/

theorem issue_keeps {x : Need} {r : ImageRec} {f : FetchIx} {i : ExtentIx} (hr : (s.image x.image).isSome)
    (ho : 1 ≤ s.up.outside) : Keeps s (s.issue x r f i) :=
  ((enqueue_keeps s (by simp [State.readFrame, serverFrame]) ho).trans
    (putFetch_keeps _ fun l hl => .inr (by rw [← Option.some_inj.mp hl]; exact hr))).trans (putNeeds_keeps _ _)

theorem tryOne_keeps : Keeps s s.tryOne.1 := by
  unfold State.tryOne
  split
  · exact .refl s
  · next x hx =>
    split
    · next r f hr hf =>
      split
      · next may =>
        have ho : 1 ≤ s.up.outside := by simp [State.mayIssue] at may; exact may.2
        have kept := allocate_keeps s (r.key x.extent)
        obtain ⟨st, p, parts⟩ := allocate_eq s (r.key x.extent)
        cases e : s.allocate (r.key x.extent) with
        | mk a o =>
          rw [e] at kept parts
          dsimp only at kept parts
          cases o with
          | some i =>
            have image : (a.image x.image).isSome := by
              show (a.images.images.get x.image).isSome
              rw [parts]
              exact Option.isSome_of_eq_some hr
            have outside : 1 ≤ a.up.outside := by rw [parts]; exact ho
            exact kept.trans (issue_keeps a image outside)
          | none => exact kept
      · exact .refl s
    · exact .refl s

theorem tryLoop_keeps (k : Nat) : Keeps s (State.tryLoop k s) := by
  induction k generalizing s with
  | zero => exact .refl s
  | succ k ih =>
    unfold State.tryLoop
    split
    · exact (tryOne_keeps s).trans (ih _)
    · exact tryOne_keeps s

theorem tryNeeds_keeps : Keeps s s.tryNeeds := tryLoop_keeps s 64

/-- The need list tried after the pool's waiting flag is put. -/
theorem putPool_waiting_tryNeeds_keeps (b : Bool) : Keeps s (s.putPool { s.pool with waiting := b }).tryNeeds :=
  (putPool_waiting_keeps s b).trans (tryNeeds_keeps _)

theorem report_keeps : Keeps s s.report := by
  unfold State.report
  split
  · exact putPool_waiting_tryNeeds_keeps s false
  · exact .refl s

/-! ## Frees, unpins and stale marks (R168, R170, R171) -/

theorem freeExtent_keeps (i : ExtentIx) : Keeps s (s.freeExtent i) := (poolFree_keeps s i).trans (report_keeps _)

theorem poolUnpin_keeps (i : ExtentIx) : Keeps s (s.putPool (s.pool.unpin i)) := by
  unfold Pool.unpin
  split
  · next e he => exact putExtent_keeps s he rfl
  · exact relabel_keeps s (fun _ => rfl) (fun _ h => h)

theorem unpin_keeps (i : ExtentIx) : Keeps s (s.unpin i) := by
  unfold State.unpin
  split
  · split
    · exact (poolUnpin_keeps s i).trans (report_keeps _)
    · exact poolUnpin_keeps s i
  · exact .refl s

theorem pin_keeps (i : ExtentIx) : Keeps s (s.pin i) := by
  unfold State.pin
  split
  · next e he => exact putExtent_touch_keeps s he rfl
  · exact .refl s

theorem markStale_keeps (i : ExtentIx) : Keeps s (s.markStale i) := by
  unfold State.markStale
  split
  · next e he =>
    split
    · exact freeExtent_keeps s i
    · exact putExtent_keeps s he rfl
  · exact .refl s

theorem markStaleIf_keeps (p : ExtentKey → Bool) (i : ExtentIx) : Keeps s (s.markStaleIf p i) := by
  unfold State.markStaleIf
  split
  · split
    · exact markStale_keeps s i
    · exact .refl s
  · exact .refl s

theorem staleWhere_keeps (p : ExtentKey → Bool) : Keeps s (s.staleWhere p) := foldl_keep s fun a i _ => markStaleIf_keeps a p i

theorem leaveNeeds_keeps (n : NodeId) : Keeps s (s.leaveNeeds n) := putNeeds_keeps s _

theorem handNeed_keeps (n : NodeId) (r : ImageIx) (e : BitVec 32) : Keeps s (s.handNeed n r e) := by
  simp only [State.handNeed]
  split
  · exact putNeeds_keeps s _
  · exact (putNeeds_keeps s _).trans (tryNeeds_keeps _)

theorem readAhead_keeps (n : NodeId) (r : ImageIx) (e : Nat) : Keeps s (s.readAhead n r e) := by
  simp only [State.readAhead]
  split
  · exact .refl s
  · split
    · exact (putNeeds_keeps s _).trans (tryNeeds_keeps _)
    · exact .refl s

/-! ## Limits (R175) -/

theorem cellsOwned_iff_of_pool {s t : State} (hp : t.pool = s.pool) (hc : ∀ n, (t.cellsOf n).Subperm (s.cellsOf n))
    (h : CellsOwned s.cellsOf s.pool) : CellsOwned t.cellsOf t.pool := by
  rw [hp]
  exact h.shrink hc

/-- What `State.dropTo` leaves: node `n` holds at most `hi` cells, the others theirs. -/
theorem dropTo_spec (n : NodeId) (hi k : Nat) (hk : s.heldCells n ≤ k + hi) :
    (State.dropTo n hi k s).pool = s.pool ∧ (∀ m, (State.dropTo n hi k s).histMin m = s.histMin m) ∧
      (∀ m, ((State.dropTo n hi k s).cellsOf m).Subperm (s.cellsOf m)) ∧
      ∀ m, (State.dropTo n hi k s).heldCells m = if m = n then min (s.heldCells m) hi else s.heldCells m := by
  induction k generalizing s with
  | zero =>
    refine ⟨rfl, fun _ => rfl, fun _ => List.Subperm.refl _, fun m => ?_⟩
    by_cases e : m = n
    · subst e
      simp only [State.dropTo, if_true]
      omega
    · simp [State.dropTo, e]
  | succ k ih =>
    unfold State.dropTo
    split
    · next le =>
      refine ⟨rfl, fun _ => rfl, fun _ => List.Subperm.refl _, fun m => ?_⟩
      by_cases e : m = n
      · subst e; simp [le]
      · simp [e]
    · next gt =>
      obtain ⟨r, hd⟩ := Stream.dropOldest_eq (s.streams.get n)
      have held : ∀ m, (s.putStream n (s.streams.get n).dropOldest).heldCells m =
          if m = n then s.heldCells m - 1 else s.heldCells m := fun m => by
        by_cases e : m = n
        · subst e; simp [State.heldCells, cells_dropOldest]
        · simp [State.heldCells, e]
      obtain ⟨pool, least, cells, left⟩ := ih (s.putStream n (s.streams.get n).dropOldest) (by rw [held]; simp; omega)
      refine ⟨pool, fun m => (least m).trans (histMin_putStream s (by rw [hd]; rfl) m), fun m => (cells m).trans ?_, fun m => ?_⟩
      · rw [cellsOf_putStream]
        by_cases e : m = n
        · subst e
          simp only [if_true, cells_dropOldest]
          exact ((List.drop_sublist 1 _).map _).subperm
        · simpa [e] using List.Subperm.refl _
      · rw [left, held]
        by_cases e : m = n
        · subst e; simp only [if_true]; omega
        · simp [e]

/-- Evictions down to the reservation end with the reservation covered, where enough entries can be evicted (R175). -/
theorem evictToReserve_covers (k : Nat) (h : CellsOwned s.cellsOf s.pool) (hk : s.pool.evictableCount ≤ k)
    (cover : s.reservation ≤ s.freeCells + 8 * s.pool.evictableCount) :
    CellsOwned (State.evictToReserve k s).cellsOf (State.evictToReserve k s).pool ∧
      (State.evictToReserve k s).reservation ≤ (State.evictToReserve k s).freeCells := by
  induction k generalizing s with
  | zero => exact ⟨h, by simp only [State.evictToReserve]; omega⟩
  | succ k ih =>
    unfold State.evictToReserve
    split
    · next le => exact ⟨h, le⟩
    · next gt =>
      split
      · next i hv =>
        obtain ⟨e, he, hev⟩ := victim_spec hv
        have count : s.pool.evictableCount = (s.putPool (s.pool.evict i)).pool.evictableCount + 1 := evictableCount_free he hev
        have used : s.pool.used.length = (s.putPool (s.pool.evict i)).pool.used.length + 1 := length_used_free he
        have total := h.total
        have free : s.freeCells = 1024 - s.historyCells - 8 * s.pool.used.length := rfl
        have free' : (s.putPool (s.pool.evict i)).freeCells =
          1024 - s.historyCells - 8 * (s.putPool (s.pool.evict i)).pool.used.length := rfl
        have res : (s.putPool (s.pool.evict i)).reservation = s.reservation := rfl
        refine ih (s.putPool (s.pool.evict i)) ?_ (by omega) (by omega)
        exact ((h.free i).relabel (q := s.pool.evict i) (fun _ => rfl) (fun _ hj => hj)).1
      · next hv =>
        have := victim_none h.recent hv
        omega

theorem evictToReserve_eq (k : Nat) : ∃ p, State.evictToReserve k s = s.putPool p := by
  induction k generalizing s with
  | zero => exact ⟨s.pool, rfl⟩
  | succ k ih =>
    unfold State.evictToReserve
    split
    · exact ⟨s.pool, rfl⟩
    · split
      · exact ih (s.putPool _)
      · exact ⟨s.pool, rfl⟩

theorem dropTo_eq (n : NodeId) (hi k : Nat) :
    ∃ c a r, State.dropTo n hi k s = s.putStream n ((s.streams.get n).withHistory c a r) := by
  have none_ : ∃ c a r, s = s.putStream n ((s.streams.get n).withHistory c a r) :=
    ⟨_, _, _, by rw [Stream.withHistory_self, State.putStream_self]⟩
  induction k generalizing s with
  | zero => exact none_
  | succ k ih =>
    unfold State.dropTo
    split
    · exact none_
    · obtain ⟨r, hd⟩ := Stream.dropOldest_eq (s.streams.get n)
      obtain ⟨c, a, r', h⟩ := ih (s.putStream n (s.streams.get n).dropOldest)
        ⟨_, _, _, by rw [Stream.withHistory_self, State.putStream_self]⟩
      refine ⟨c, a, r', ?_⟩
      rw [h, hd]
      simp

theorem historyCells_eq (n : NodeId) :
    s.historyCells = s.heldCells n + ((allNodes.filter (· ≠ n)).map s.heldCells).sum := sum_split s.heldCells n

/-- New limits that the pool can cover leave its law (R175). -/
theorem cellLaw_applyLimits {n : NodeId} {x : StreamSettings} (hc : s.limitsCovered n x.histMin x.histMax = true)
    (h : CellLaw s) : CellLaw (s.applyLimits n x) := by
  have fit := cellLaw_iff.mp h
  have total := fit.toCellsOwned.total
  set a := s.putStream n { s.streams.get n with settings := x } with ha
  have cellsA : ∀ m, a.cellsOf m = s.cellsOf m := fun m => by
    rw [ha, cellsOf_putStream]
    by_cases e : m = n
    · subst e; simp [State.cellsOf]
    · simp [e]
  have heldA : ∀ m, a.heldCells m = s.heldCells m := fun m => by rw [← length_cellsOf, cellsA, length_cellsOf]
  have minA : ∀ m, a.histMin m = if m = n then x.histMin else s.histMin m := fun m => by
    by_cases e : m = n
    · subst e; simp [ha, State.histMin]
    · simp [ha, State.histMin, e]
  have few : a.heldCells n ≤ 1024 + x.histMax := by
    have := historyCells_eq s n
    rw [heldA]
    omega
  obtain ⟨pool, least, cells, left⟩ := dropTo_spec a n x.histMax 1024 few
  set b := State.dropTo n x.histMax 1024 a with hb
  have poolB : b.pool = s.pool := pool
  have owned : CellsOwned b.cellsOf b.pool :=
    cellsOwned_iff_of_pool (s := s) poolB (fun m => cellsA m ▸ cells m) fit.toCellsOwned
  have historyB : b.historyCells + (s.heldCells n - min (s.heldCells n) x.histMax) = s.historyCells := by
    rw [historyCells_eq b n, historyCells_eq s n]
    have others : (allNodes.filter (· ≠ n)).map b.heldCells = (allNodes.filter (· ≠ n)).map s.heldCells :=
      List.map_congr_left fun k hk => by
        have : k ≠ n := by simpa using (List.mem_filter.mp hk).2
        rw [left, heldA]
        simp [this]
    rw [others, left, heldA]
    simp only [if_true]
    omega
  have res : b.reservation = (allNodes.map (fun k =>
      if k = n then x.histMin - min (s.heldCells n) x.histMax else s.histMin k - s.heldCells k)).sum := by
    unfold State.reservation
    refine congrArg List.sum (List.map_congr_left fun k _ => ?_)
    rw [least, minA, left, heldA]
    by_cases e : k = n
    · subst e; simp
    · simp [e]
  have cover : b.reservation ≤ b.freeCells + 8 * b.pool.evictableCount := by
    simp only [State.limitsCovered, decide_eq_true_eq] at hc
    have free : s.freeCells = 1024 - s.historyCells - 8 * s.pool.used.length := rfl
    have freeB : b.freeCells = 1024 - b.historyCells - 8 * s.pool.used.length := by rw [← poolB]; rfl
    rw [res, poolB]
    omega
  obtain ⟨ownedC, covered⟩ := evictToReserve_covers b 128 owned (evictableCount_le _) cover
  have done : s.applyLimits n x = State.evictToReserve 128 b := rfl
  rw [done, cellLaw_iff]
  refine ⟨ownedC, ?_⟩
  have := historyCells_add_reservation (State.evictToReserve 128 b)
  have := ownedC.total
  have : (State.evictToReserve 128 b).freeCells = 1024 - (State.evictToReserve 128 b).historyCells -
    8 * (State.evictToReserve 128 b).pool.used.length := rfl
  omega

theorem applyLimits_eq (n : NodeId) (x : StreamSettings) : ∃ c a r p, s.applyLimits n x =
    (s.putStream n (({ s.streams.get n with settings := x } : Stream).withHistory c a r)).putPool p := by
  obtain ⟨c, a, r, hd⟩ := dropTo_eq (s.putStream n { s.streams.get n with settings := x }) n x.histMax 1024
  obtain ⟨p, he⟩ := evictToReserve_eq (State.dropTo n x.histMax 1024 (s.putStream n { s.streams.get n with settings := x })) 128
  refine ⟨c, a, r, p, ?_⟩
  rw [State.applyLimits, he, hd]
  simp

theorem applyLimits_keeps {n : NodeId} {x : StreamSettings} (hc : s.limitsCovered n x.histMin x.histMax = true) :
    Keeps s (s.applyLimits n x) := by
  have law := cellLaw_applyLimits s hc
  obtain ⟨c, a, r, p, h⟩ := applyLimits_eq s n x
  rw [h] at law ⊢
  exact putStream_putPool_keeps s (by simp) (by simp) law

end Sys2Proof.Machine
end

section
/-! PROOFS. The laws under the operations of the Media Ports and the Image Fetch Unit (chapters 7 and 8). -/
namespace Sys2Proof.Machine

-- Side by side, the proofs of this text would need more thread stacks than the check's memory limit holds.
set_option Elab.async false

variable (s : State)

/-! ## What the pool's work leaves -/

theorem PoolWork.image_eq {s t : State} (h : PoolWork s t) (r : ImageIx) : t.image r = s.image r := by
  obtain ⟨st, p, nd, fs, q, rfl, -⟩ := h
  rfl

theorem PoolWork.writes_eq {s t : State} (h : PoolWork s t) : t.images.writes = s.images.writes := by
  obtain ⟨st, p, nd, fs, q, rfl, -⟩ := h
  rfl

theorem PoolWork.port_eq {s t : State} (h : PoolWork s t) (n : NodeId) : t.port n = s.port n := by
  simp [State.port, h.ports_eq]

/-! ## Image records leave (R145) -/

theorem closeRecord_keeps (x : ImageRec) : Keeps s (s.closeRecord x) := by
  unfold State.closeRecord
  split
  · exact .refl s
  · split
    · next ho => exact enqueue_keeps s (by simp [State.closeFrame, serverFrame]) ho
    · exact {}

theorem closeRecord_eq (x : ImageRec) : ∃ q k, s.closeRecord x =
    { s with up := { s.up with queue := s.up.queue ++ q }, images := { s.images with unsentClose := k } } := by
  unfold State.closeRecord
  split
  · exact ⟨[], s.images.unsentClose, by simp⟩
  · split
    · exact ⟨[s.closeFrame x], s.images.unsentClose, rfl⟩
    · exact ⟨[], satInc s.images.unsentClose, by simp [State.putImages]⟩

theorem dropFetch_keeps (f : FetchIx) : Keeps s (s.dropFetch f) := by
  unfold State.dropFetch
  split
  · exact (putFetch_keeps s (by simp)).trans (poolFree_keeps _ _)
  · exact .refl s

theorem live_dropFetch (f g : FetchIx) :
    ((s.dropFetch f).images.fetches.get g).live = if g = f then none else (s.images.fetches.get g).live := by
  unfold State.dropFetch
  by_cases e : g = f
  · subst e
    split
    · simp [State.putFetch, State.putImages]
    · simp_all
  · split
    · simp [State.putFetch, State.putImages, e]
    · simp [e]

theorem live_foldl_dropFetch (l : List FetchIx) (g : FetchIx) :
    ((l.foldl State.dropFetch s).images.fetches.get g).live = if g ∈ l then none else (s.images.fetches.get g).live := by
  induction l generalizing s with
  | nil => simp
  | cons f l ih =>
    rw [List.foldl_cons, ih, live_dropFetch]
    by_cases e : g = f
    · simp [e]
    · simp [e]

theorem foldl_dropFetch_work (l : List FetchIx) : PoolWork s (l.foldl State.dropFetch s) :=
  foldl_keeps PoolWork.refl PoolWork.trans l (fun a f _ => dropFetch_work a f) s

theorem mem_fetchesOf {r : ImageIx} {f : FetchIx} {l : Fetch} (h : (s.images.fetches.get f).live = some l) (e : l.image = r) :
    f ∈ s.fetchesOf r := by simp [State.fetchesOf, h, e]

/-- A record cleared that no medium and no fetch refers to. -/
theorem clearImage_keeps {r : ImageIx} (hm : ImageLaw s → ∀ n m, (s.port n).medium.ref? = some m → m.image ≠ r)
    (hf : ∀ f l, (s.images.fetches.get f).live = some l → l.image ≠ r) : Keeps s (s.putImage r none) where
  image := fun h => by
    have apart := hm h
    obtain ⟨users, known, distinct, alone⟩ := h
    have kept : ∀ q x, (s.putImage r none).image q = some x → s.image q = some x := by
      intro q x hx
      by_cases e : q = r
      · subst e; simp at hx
      · rwa [State.image_putImage_ne _ _ e] at hx
    refine ⟨fun q x hx => users q x (kept q x hx), fun n m h => ?_,
      fun q p x y hx hy => distinct q p x y (kept q x hx) (kept p y hy), fun q x hx => alone q x (kept q x hx)⟩
    rw [State.image_putImage_ne _ _ (apart n m h)]
    exact known n m h
  fetch := fun h => by
    obtain ⟨live, each⟩ := fetchLaw_iff.mp h
    refine fetchLaw_iff.mpr ⟨fun f l hl => ?_, each⟩
    rw [State.image_putImage_ne _ _ (hf f l hl)]
    exact live f l hl

/-- A record without users removed. -/
theorem removeRecord_keeps {r : ImageIx} (hu : ∀ x, s.image r = some x → x.users = 0) : Keeps s (s.removeRecord r) := by
  unfold State.removeRecord
  split
  · exact .refl s
  · next x hx =>
    obtain ⟨q, k, close⟩ := closeRecord_eq s x
    have live := live_foldl_dropFetch (s.closeRecord x) (s.fetchesOf r)
    have work := foldl_dropFetch_work (s.closeRecord x) (s.fetchesOf r)
    have kept := (closeRecord_keeps s x).trans (foldl_keep (l := s.fetchesOf r) (s.closeRecord x) fun a f _ => dropFetch_keeps a f)
    dsimp only
    generalize (s.fetchesOf r).foldl State.dropFetch (s.closeRecord x) = a at live work kept ⊢
    have image : a.image r = some x := by rw [work.image_eq, close]; exact hx
    have cleared : Keeps s (((a.putNeeds (a.images.needs.filter (fun y => y.image ≠ r))).putPool
        ((a.putNeeds (a.images.needs.filter (fun y => y.image ≠ r))).pool.setOwned x.server x.image false)).putImage r none) := by
      refine ((kept.trans (putNeeds_keeps _ _)).trans (setOwned_keeps _ _ _ _)).trans (clearImage_keeps _ ?_ ?_)
      · rintro ⟨users, -⟩ n m hm rfl
        have := (users _ x image n).mpr ⟨m, hm, rfl⟩
        simp [hu x hx] at this
      · intro f l hl e
        have hl : (a.images.fetches.get f).live = some l := hl
        rw [live] at hl
        split at hl
        · cases hl
        · next hn =>
          rw [close] at hl
          exact hn (mem_fetchesOf s hl e)
    split
    · exact cleared
    · exact cleared.trans (putPool_waiting_tryNeeds_keeps _ false)

theorem getLsbD_withoutNode (m : BitVec 8) (n k : NodeId) :
    (withoutNode m n).getLsbD k.val = (m.getLsbD k.val && decide (k ≠ n)) := by
  have hk := k.isLt
  rw [Bool.eq_iff_iff]
  simp [withoutNode, hk, Fin.ext_iff]
  omega

theorem getLsbD_withNode (m : BitVec 8) (n k : NodeId) : (withNode m n).getLsbD k.val = (m.getLsbD k.val || decide (k = n)) := by
  have hk := k.isLt
  rw [Bool.eq_iff_iff]
  simp [withNode, hk, Fin.ext_iff]
  exact or_congr_right (by rw [Fin.le_def]; omega)

/-- Node `n`'s medium leaves its record's mask: port and record change together. -/
theorem leaveMask_keeps {n : NodeId} {m : MediumRef} {x : ImageRec} {q : MediaPort} (hm : (s.port n).medium.ref? = some m)
    (hx : s.image m.image = some x) (ha : q.attached = (s.port n).attached) (hb : q.busPower = (s.port n).busPower)
    (hr : q.active = (s.port n).active) (he : q.medium = .empty)
    (idle : PortEngaged (s.port n) (s.images.writes.get n).live →
      (s.port n).active = none ∧ (s.images.writes.get n).live = none) :
    Keeps s ((s.putPort n q).putImage m.image (some { x with users := withoutNode x.users n })) where
  port := portLaw_putPort s fun ⟨granted, reattach, attached, active, porn⟩ =>
    ⟨granted, reattach, by rw [ha, hb, attached], by rw [ha, hr]; exact active, porn⟩
  image := fun ⟨users, known, distinct, alone⟩ => by
    have at_ : ∀ r z, ((s.putPort n q).putImage m.image (some { x with users := withoutNode x.users n })).image r = some z →
        ∃ v, s.image r = some v ∧ z.server = v.server ∧ z.image = v.image ∧ z.writable = v.writable ∧
          ∀ k : NodeId, z.users.getLsbD k.val = (v.users.getLsbD k.val && decide (k ≠ n)) := by
      intro r z hz
      by_cases e : r = m.image
      · subst e
        rw [State.image_putImage_same, Option.some_inj] at hz
        subst hz
        exact ⟨x, hx, rfl, rfl, rfl, getLsbD_withoutNode _ _⟩
      · rw [State.image_putImage_ne _ _ e] at hz
        refine ⟨z, hz, rfl, rfl, rfl, fun k => ?_⟩
        by_cases hk : k = n
        · subst hk
          have : ¬ (z.users.getLsbD k.val = true) := fun hb => by
            obtain ⟨m', hm', e'⟩ := (users r z hz k).mp hb
            rw [hm, Option.some_inj] at hm'
            exact e (e' ▸ hm' ▸ rfl)
          simpa using this
        · simp [hk]
    have port_ : ∀ k, (((s.putPort n q).putImage m.image (some { x with users := withoutNode x.users n })).port k).medium.ref? =
        if k = n then none else (s.port k).medium.ref? := by
      intro k
      show ((s.putPort n q).port k).medium.ref? = _
      by_cases hk : k = n
      · subst hk; simp [he, Medium.ref?]
      · simp [hk]
    refine ⟨fun r z hz k => ?_, fun k m' hm' => ?_, fun r p z v hz hv h1 h2 => ?_, fun r z hz h k j hk hj => ?_⟩
    · obtain ⟨v, hv, -, -, -, bits⟩ := at_ r z hz
      rw [bits, port_]
      by_cases hk : k = n
      · simp [hk]
      · simpa [hk] using users r v hv k
    · rw [port_] at hm'
      split at hm'
      · cases hm'
      · by_cases e : m'.image = m.image
        · rw [e, State.image_putImage_same]; rfl
        · rw [State.image_putImage_ne _ _ e]; exact known k m' hm'
    · obtain ⟨a, ha', as, ai, -, -⟩ := at_ r z hz
      obtain ⟨b, hb', bs, bi, -, -⟩ := at_ p v hv
      exact distinct r p a b ha' hb' (by rw [← as, ← bs, h1]) (by rw [← ai, ← bi, h2])
    · obtain ⟨v, hv, -, -, ew, bits⟩ := at_ r z hz
      rw [bits, Bool.and_eq_true] at hk hj
      exact alone r v hv (ew ▸ h) k j hk.1 hj.1
  fetch := fun h => by
    obtain ⟨live, each⟩ := fetchLaw_iff.mp h
    obtain ⟨none_, noWrite⟩ := idle (each n)
    have port : FetchLaw (s.putPort n q) := fetchLaw_putPort s (fun _ => by
      refine ⟨fun hs => ?_, fun w hw => ?_⟩
      · simp [hr, none_] at hs
      · simp [noWrite] at hw) h
    exact fetchLaw_putImage _ port

/-! ## Requests (R121) -/

theorem clearActive_keeps (n : NodeId) : Keeps s (s.clearActive n) :=
  putPort_keeps_of_same s (by rfl) (by rfl) (by rfl) (by simp)

theorem dropActive_keeps (n : NodeId) : Keeps s (s.dropActive n) := by
  unfold State.dropActive
  split
  · exact .refl s
  · exact (clearActive_keeps s n).trans (unpin_keeps _ _)
  · exact (clearActive_keeps s n).trans (leaveNeeds_keeps _ _)
  · exact clearActive_keeps s n

/-- The active request dropped: what is left of the port (R121). -/
theorem port_dropActive (n : NodeId) :
    (s.dropActive n).port n = if (s.port n).active.isSome then (s.clearActive n).port n else s.port n := by
  unfold State.dropActive
  split
  · next h => simp [h]
  · next h => simp [h, (unpin_work (s.clearActive n) _).port_eq]
  · next h => simp [h, (leaveNeeds_work (s.clearActive n) n).port_eq]
  · next h => simp [h]

theorem dropActive_works (n : NodeId) : PoolWork (if (s.port n).active.isSome then s.clearActive n else s) (s.dropActive n) := by
  match h : (s.port n).active with
  | none => simpa [State.dropActive, h] using PoolWork.refl s
  | some (.read _ _ _ (.delivering i)) => simpa [State.dropActive, h] using unpin_work (s.clearActive n) i
  | some (.read _ _ _ .waiting) => simpa [State.dropActive, h] using leaveNeeds_work (s.clearActive n) n
  | some (.write _ _ _ _) => simpa [State.dropActive, h] using PoolWork.refl (s.clearActive n)

theorem active_dropActive (n : NodeId) : ((s.dropActive n).port n).active = none := by
  rw [port_dropActive]
  cases h : (s.port n).active with
  | none => simp [h]
  | some q => simp [State.clearActive]

theorem medium_dropActive (n : NodeId) : ((s.dropActive n).port n).medium = (s.port n).medium := by
  rw [port_dropActive]
  split
  · simp [State.clearActive]
  · rfl

theorem attached_dropActive (n : NodeId) : ((s.dropActive n).port n).attached = (s.port n).attached ∧
    ((s.dropActive n).port n).busPower = (s.port n).busPower := by
  rw [port_dropActive]
  split
  · simp [State.clearActive]
  · exact ⟨rfl, rfl⟩

theorem writes_dropActive (n : NodeId) : (s.dropActive n).images.writes = s.images.writes := by
  rw [(dropActive_works s n).writes_eq]
  split <;> rfl

theorem image_dropActive (n : NodeId) (r : ImageIx) : (s.dropActive n).image r = s.image r := by
  rw [(dropActive_works s n).image_eq]
  split <;> rfl

theorem putSense_keeps (n : NodeId) (k : SenseKey) (i : Option (BitVec 32)) : Keeps s (s.putSense n k i) := putPort_keeps_of_same s

theorem give_keeps (n : NodeId) (r : UsbReply) : Keeps s (s.give n r) := putPort_keeps_of_same s

theorem status_keeps (n : NodeId) (k : SenseKey) (i : Option (BitVec 32)) : Keeps s (s.status n k i) :=
  (putSense_keeps s n k i).trans (give_keeps _ n _)

theorem endRequest_keeps (n : NodeId) (k : SenseKey) (i : Option (BitVec 32)) : Keeps s (s.endRequest n k i) :=
  (dropActive_keeps s n).trans (status_keeps _ n k i)

theorem endNotReady_keeps (n : NodeId) : Keeps s (s.endNotReady n) := by
  unfold State.endNotReady
  split
  · exact endRequest_keeps s n _ _
  · exact .refl s

theorem active_endNotReady (n : NodeId) : ((s.endNotReady n).port n).active = none := by
  unfold State.endNotReady
  split
  · simp [State.endRequest, status_eq, active_dropActive]
  · next h => simpa using h

theorem medium_endNotReady (n : NodeId) : ((s.endNotReady n).port n).medium = (s.port n).medium := by
  unfold State.endNotReady
  split
  · simp [State.endRequest, status_eq, medium_dropActive]
  · rfl

/-! ## The port (R120, R139) -/

/-- The ports are in order, but for node `n`'s being attached or not. -/
def PortLawBut (n : NodeId) (s : State) : Prop :=
  (∀ m, m ≠ n → PortFits s.porn (s.pw m) (s.port m)) ∧
    ((s.pw n).granted = true → (s.pw n).state = .on ∨ (s.pw n).state = .softStopping) ∧
    ((s.pw n).reattach.isSome → (s.pw n).granted = false ∧ ((s.pw n).state = .on ∨ (s.pw n).state = .softStopping)) ∧
    ((s.port n).active.isSome → (s.port n).attached = true) ∧ (s.porn = false → (s.pw n).granted = false)

theorem MediaWork.porn_eq {ns : NodeId → Prop} {s t : State} (h : MediaWork ns s t) : t.porn = s.porn := by
  obtain ⟨st, p, im, q, pt, nt, rfl, -⟩ := h
  rfl

theorem MediaWork.pw_eq {ns : NodeId → Prop} {s t : State} (h : MediaWork ns s t) (n : NodeId) : t.pw n = s.pw n := by
  obtain ⟨st, p, im, q, pt, nt, rfl, -⟩ := h
  rfl

theorem MediaWork.port_eq {ns : NodeId → Prop} {s t : State} (h : MediaWork ns s t) {n : NodeId} (hn : ¬ns n) :
    t.port n = s.port n := by
  obtain ⟨st, p, im, q, pt, nt, rfl, -, hp, -⟩ := h
  exact hp n hn

/-- A port that is DETACHED, its request gone: all but the ports' law. -/
theorem portDetach_offPort (n : NodeId) : KeepsOffPort s (s.portDetach n) := by
  refine (dropActive_keeps s n).toKeepsOffPort.trans ?_
  have none_ := active_dropActive s n
  exact {
    image := imageLaw_congr (fun _ => rfl) (medium_putPort _ rfl)
    fetch := fetchLaw_putPort _ fun ⟨_, write⟩ => ⟨fun h => by simp [none_] at h, write⟩ }

theorem portAttach_offPort (n : NodeId) : KeepsOffPort s (s.portAttach n) where
  image := imageLaw_congr (fun _ => rfl) (medium_putPort _ rfl)
  fetch := fetchLaw_putPort _ fun ⟨_, write⟩ => ⟨fun h => by simp at h, write⟩

theorem portUpdate_offPort (n : NodeId) : KeepsOffPort s (s.portUpdate n) := by
  unfold State.portUpdate
  dsimp only
  split
  · exact portAttach_offPort s n
  · split
    · exact portDetach_offPort s n
    · exact (Keeps.refl s).toKeepsOffPort

/-- Bringing the port in line with permission and bus power mends the law at its node (R120). -/
theorem portUpdate_port {n : NodeId} (h : PortLawBut n s) : PortLaw (s.portUpdate n) := by
  obtain ⟨others, granted, reattach, active, porn⟩ := h
  have work := portUpdate_media s (ns := (· = n)) rfl
  intro m
  by_cases e : m = n
  · subst e
    show PortFits _ _ _
    rw [work.porn_eq, work.pw_eq]
    suffices hp : ((s.portUpdate m).port m).attached = ((s.pw m).granted && ((s.portUpdate m).port m).busPower) ∧
        (((s.portUpdate m).port m).active.isSome → ((s.portUpdate m).port m).attached = true) from
      ⟨granted, reattach, hp.1, hp.2, porn⟩
    unfold State.portUpdate
    dsimp only
    split
    · next hw =>
      simp only [Bool.and_eq_true] at hw
      simp only [State.portAttach, State.port_putPort_same]
      exact ⟨by simp [State.pw, hw.1.1, hw.1.2], by simp⟩
    · split
      · next hw =>
        simp only [Bool.and_eq_true, Bool.not_eq_true'] at hw
        simp only [State.portDetach, State.port_putPort_same, active_dropActive, (attached_dropActive s m).2]
        exact ⟨by simpa [State.pw] using hw.1.symm, by simp⟩
      · next h1 h2 =>
        refine ⟨?_, active⟩
        cases ha : (s.port m).attached <;> simp_all [State.pw]
  · show PortFits _ _ _
    rw [work.porn_eq, work.pw_eq, work.port_eq e]
    exact others m e

/-- A law of ports in order is a law but for one node. -/
theorem PortLaw.but {s : State} (h : PortLaw s) (n : NodeId) : PortLawBut n s := by
  obtain ⟨granted, reattach, -, active, porn⟩ := h n
  exact ⟨fun m _ => h m, granted, reattach, active, porn⟩

theorem setBusPower_keeps (n : NodeId) (on : Bool) : Keeps s (s.setBusPower n on) where
  toKeepsOffPort := by
    have put : KeepsOffPort s (s.putPort n { s.port n with busPower := on }) := {
      image := imageLaw_congr (fun _ => rfl) (medium_putPort _ rfl)
      fetch := fetchLaw_putPort _ id }
    exact put.trans (portUpdate_offPort _ n)
  port := fun h => by
    obtain ⟨others, granted, reattach, active, porn⟩ := h.but n
    refine portUpdate_port _ ⟨fun m hm => ?_, granted, reattach, by simpa using active, porn⟩
    rw [State.port_putPort_ne _ _ hm]
    exact others m hm

theorem abortRequest_keeps (n : NodeId) : Keeps s (s.abortRequest n) := by
  unfold State.abortRequest
  split
  · exact ((dropActive_keeps s n).trans (putSense_keeps _ n _ _)).trans (give_keeps _ n _)
  · exact .refl s

/-! ## Ejecting (R136 to R138) -/

theorem image_putPort (n : NodeId) (q : MediaPort) (r : ImageIx) : (s.putPort n q).image r = s.image r := rfl

/-- The medium enters EMPTY where no request and no write is left. -/
theorem emptyMedium_keeps (n : NodeId) (lock changed : Bool)
    (idle : PortEngaged (s.port n) (s.images.writes.get n).live →
      (s.port n).active = none ∧ (s.images.writes.get n).live = none) : Keeps s (s.emptyMedium n lock changed) := by
  have quiet : PortEngaged (s.port n) (s.images.writes.get n).live →
      PortEngaged { s.port n with medium := .empty, lock := lock, changed := changed, bootFirst := false, grantBoot := false }
        (s.images.writes.get n).live := fun h => by
    obtain ⟨none_, noWrite⟩ := idle h
    exact ⟨fun h => by simp [none_] at h, fun w hw => by simp [noWrite] at hw⟩
  unfold State.emptyMedium
  dsimp only
  split
  · next m hm =>
    unfold State.leaveRecord
    simp only [image_putPort]
    split
    · next hx =>
      exact {
        port := portLaw_putPort s id
        image := fun ⟨_, known, _⟩ => absurd (known n m hm) (by simp [hx])
        fetch := fetchLaw_putPort s quiet }
    · next x hx =>
      have left := leaveMask_keeps s (q := { s.port n with
        medium := .empty, lock := lock, changed := changed, bootFirst := false, grantBoot := false }) hm hx rfl rfl rfl rfl idle
      split
      · next zero =>
        refine left.trans (removeRecord_keeps _ fun y hy => ?_)
        rw [State.image_putImage_same, Option.some_inj] at hy
        rw [← hy]
        exact zero
      · exact left
  · next hm => exact putPort_keeps s id (by rw [hm]; rfl) quiet

theorem finishEject_keeps (n : NodeId) (c : EjectCause)
    (idle : PortEngaged (s.port n) (s.images.writes.get n).live →
      (s.port n).active = none ∧ (s.images.writes.get n).live = none) : Keeps s (s.finishEject n c) :=
  (emptyMedium_keeps s n false true idle).trans (raise_node_keeps _ (by simp [Event.rank]))

theorem eject_keeps (n : NodeId) (c : EjectCause) : Keeps s (s.eject n c) := by
  have none_ := active_endNotReady s n
  refine (endNotReady_keeps s n).trans ?_
  unfold State.eject
  dsimp only
  split
  · next m b hm =>
    split
    · refine putPort_keeps _ ?_ (by simp [hm, Medium.ref?]) ?_
      · exact id
      · rintro ⟨-, write⟩
        refine ⟨fun h => by simp [none_] at h, fun w hw => ?_⟩
        have := write w hw
        simpa [hm] using this
    · next quiet =>
      refine finishEject_keeps _ n c fun _ => ⟨none_, ?_⟩
      simpa [State.outstanding] using quiet
  · next m hm =>
    refine finishEject_keeps _ n c fun h => ⟨none_, Option.eq_none_iff_forall_ne_some.mpr fun w hw => ?_⟩
    have := h.2 w hw
    simp [hm] at this
  · exact .refl _
  · exact .refl _

theorem abandonWrite_keeps (n : NodeId) : Keeps s (s.abandonWrite n) := by
  unfold State.abandonWrite
  split
  · exact (putWrite_keeps_of_same s (by simp)).trans (putPort_keeps_of_same _)
  · exact .refl s

theorem write_abandonWrite (n : NodeId) : ((s.abandonWrite n).images.writes.get n).live = none := by
  unfold State.abandonWrite
  split
  · simp [State.putWrite, State.putImages, State.putPort]
  · next h => simpa [State.outstanding] using h

theorem port_abandonWrite (n : NodeId) :
    ((s.abandonWrite n).port n).active = (s.port n).active ∧ ((s.abandonWrite n).port n).medium = (s.port n).medium := by
  unfold State.abandonWrite
  split
  · simp
  · exact ⟨rfl, rfl⟩

/-- A request and a write ended, so that nothing is left of the medium's use. -/
theorem idle_abandoned (n : NodeId) :
    (((s.endNotReady n).abandonWrite n).port n).active = none ∧
      (((s.endNotReady n).abandonWrite n).images.writes.get n).live = none :=
  ⟨by rw [(port_abandonWrite _ n).1, active_endNotReady], write_abandonWrite _ n⟩

theorem forceEjectLost_keeps (n : NodeId) : Keeps s (s.forceEjectLost n) := by
  unfold State.forceEjectLost
  split
  · exact .refl s
  · refine (((endNotReady_keeps s n).trans (abandonWrite_keeps _ n)).trans
      (emptyMedium_keeps _ n false true fun _ => idle_abandoned s n)).trans (raise_node_keeps _ ?_)
    split <;> simp [Event.rank]

theorem handoverPort_keeps (n : NodeId) : Keeps s (s.handoverPort n) := by
  have ended := (endNotReady_keeps s n).trans (abandonWrite_keeps _ n)
  unfold State.handoverPort
  split
  · exact ended.trans (putPort_keeps_of_same _)
  · exact ended.trans (emptyMedium_keeps _ n false false fun _ => idle_abandoned s n)

theorem stationEject_keeps (n : NodeId) (i : StationIx) (f : Bool) : Keeps s (s.stationEject n i f).1 := by
  unfold State.stationEject
  split
  · exact .refl s
  · exact .refl s
  all_goals
    split
    · exact .refl s
    · exact eject_keeps s n _

theorem patternEject_keeps (n : NodeId) (p : PatternIx) : Keeps s (s.patternEject n p) := by
  unfold State.patternEject
  split
  · exact .refl s
  · exact .refl s
  all_goals
    split
    · exact raise_node_keeps s (by simp [Event.rank])
    · exact eject_keeps s n _

theorem nodeEject_keeps (n : NodeId) : Keeps s (s.nodeEject n) := by
  unfold State.nodeEject
  split
  · exact status_keeps s n _ _
  · exact status_keeps s n _ _
  all_goals exact (eject_keeps s n _).trans (status_keeps _ n _ _)

/-! ## Reading (R128 to R130) -/

theorem putRead_keeps {n : NodeId} (h : (s.port n).active.isSome) (l c d : Nat) (p : ReadPhase) :
    Keeps s (s.putRead n l c d p) := putPort_keeps_of_same s (by rfl) (by rfl) (by rfl) (fun _ => h)

/-- A request begins at a port that is attached, on a PRESENT medium. -/
theorem beginRequest_keeps {n : NodeId} {q : Request} (ha : (s.port n).attached = true)
    (hm : (s.port n).medium.isPresent = true) : Keeps s (s.putPort n { s.port n with active := some q }) := by
  refine putPort_keeps s ?_ rfl ?_
  · rintro ⟨granted, reattach, attached, -, porn⟩
    exact ⟨granted, reattach, attached, fun _ => ha, porn⟩
  · rintro ⟨-, write⟩
    exact ⟨fun _ => hm, write⟩

theorem advanceRead_keeps (n : NodeId) : Keeps s (s.advanceRead n) := by
  unfold State.advanceRead
  split
  · next lba count delivered ph m ha hm =>
    have some_ : (s.port n).active.isSome := by simp [ha]
    split
    · exact (putPort_keeps_of_same s (by rfl) (by rfl) (by rfl) (by simp)).trans (putSense_keeps _ n _ _)
    · split
      · exact .refl s
      · split
        · split
          · exact (putRead_keeps s some_ _ _ _ _).trans (pin_keeps _ _)
          · exact putRead_keeps s some_ _ _ _ _
        · exact (putRead_keeps s some_ _ _ _ _).trans (handNeed_keeps _ _ _ _)
  · exact .refl s

theorem pollRead_keeps {n : NodeId} (h : (s.port n).active.isSome) (m : MediumRef) (l c d r : Nat) (i : ExtentIx) (e : Extent) :
    Keeps s (s.pollRead n m l c d r i e) := by
  unfold State.pollRead
  dsimp only
  have given := fun d' => (putRead_keeps s h l c d' (.delivering i)).trans (give_keeps _ n
    (.data (e.bytes (readPos m.size l d % 4096) (pollSize m.size l c d r)) (decide (c * m.size.bytes ≤ d + pollSize m.size l c d r))))
  split
  · exact (((given _).trans (unpin_keeps _ _)).trans (readAhead_keeps _ _ _ _)).trans (advanceRead_keeps _ n)
  · split
    · exact ((given _).trans (unpin_keeps _ _)).trans (advanceRead_keeps _ n)
    · exact given _

theorem poll_keeps (n : NodeId) (r : Nat) : Keeps s (s.poll n r) := by
  unfold State.poll
  split
  · exact give_keeps s n _
  · next ha hm =>
    split
    · exact pollRead_keeps s (by simp [ha]) _ _ _ _ _ _ _
    · exact .refl s
  · exact give_keeps s n _
  · exact .refl s

theorem decideRead_keeps {n : NodeId} (ha : (s.port n).attached = true) (l c : Nat) : Keeps s (s.decideRead n l c) := by
  unfold State.decideRead
  split
  · next m blocks hm =>
    split
    · exact status_keeps s n _ _
    · split
      · exact status_keeps s n _ _
      · have begun : Keeps s ((s.putRead n l c 0 .waiting).give n .notYet) :=
          (beginRequest_keeps s ha (by simp [hm, Medium.isPresent])).trans (give_keeps _ n _)
        dsimp only
        split
        · split
          · exact (begun.trans (give_keeps _ n _)).trans (advanceRead_keeps _ n)
          · exact begun.trans (advanceRead_keeps _ n)
        · exact begun.trans (advanceRead_keeps _ n)
  all_goals exact status_keeps s n _ _

/-! ## Messages sent or sent again (R144, R153, R155) -/

theorem sendOpen_keeps {r : ImageIx} (ho : 1 ≤ s.up.outside) : Keeps s (s.sendOpen r) := by
  unfold State.sendOpen
  split
  · next x hx =>
    split
    · exact (enqueue_keeps s (by simp [State.openFrame, serverFrame]) ho).trans
        (putImage_keeps (x := x) _ hx rfl rfl rfl rfl)
    · exact .refl s
  · exact .refl s

theorem refetch_keeps {f : FetchIx} (ho : 1 ≤ s.up.outside) : Keeps s (s.refetch f) := by
  unfold State.refetch
  split
  · next l hl =>
    split
    · exact (enqueue_keeps s (by simp [State.readFrame, serverFrame]) ho).trans
        (putFetch_keeps _ fun k hk => .inl ⟨l, hl, by rw [← Option.some_inj.mp hk]⟩)
    · exact .refl s
  · exact .refl s

theorem sendWrite_keeps {n : NodeId} (ho : 1 ≤ s.up.outside) : Keeps s (s.sendWrite n) := by
  unfold State.sendWrite
  split
  · next w hw =>
    split
    · exact (enqueue_keeps s (by simp [State.writeFrame, serverFrame]) ho).trans
        (putWrite_keeps_of_same _ fun v hv => ⟨w, hw, by rw [← Option.some_inj.mp hv]⟩)
    · exact .refl s
  · exact .refl s

theorem outside_of_openReady {r : ImageIx} (h : s.openReady r = true) : 1 ≤ s.up.outside := by
  unfold State.openReady at h
  split at h
  · rw [Bool.and_eq_true] at h
    simpa using h.2
  · cases h

theorem outside_of_refetchReady {f : FetchIx} (h : s.refetchReady f = true) : 1 ≤ s.up.outside := by
  unfold State.refetchReady at h
  split at h
  · rw [Bool.and_eq_true] at h
    simpa using h.2
  · cases h

theorem outside_of_rewriteReady {n : NodeId} (h : s.rewriteReady n = true) : 1 ≤ s.up.outside := by
  unfold State.rewriteReady at h
  split at h
  · rw [Bool.and_eq_true] at h
    simpa using h.2
  · cases h

/-! ## Writing (R131 to R133, R155) -/

theorem handWrite_keeps {n : NodeId} {m : MediumRef} (ha : (s.port n).active.isSome) (hm : (s.port n).medium.ref? = some m)
    (l c h : Nat) : Keeps s (s.handWrite n m l c h) := by
  unfold State.handWrite
  dsimp only
  have marked : ∀ a : State, PoolWork s a → Keeps s a → ∀ w : WriteOp, w.image = m.image → ∀ g k,
      Keeps s ((a.putWrite n ⟨g, some w⟩).putPort n { a.port n with active := some (.write l c k true) }) := by
    intro a work kept w hw g k
    have port := work.port_eq n
    have engaged : PortEngaged (a.port n) (a.images.writes.get n).live → PortEngaged (a.port n) (some w) := by
      rw [port]
      rintro ⟨active, -⟩
      have present := active ha
      refine ⟨fun _ => present, fun v hv => ?_⟩
      rw [← Option.some_inj.mp hv, hw]
      cases e : (s.port n).medium with
      | present m' b => rw [e, Medium.ref?, Option.some_inj] at hm; exact congrArg _ hm
      | empty => simp [e, Medium.isPresent] at present
      | loading m' => simp [e, Medium.isPresent] at present
      | ejecting m' b x => simp [e, Medium.isPresent] at present
    exact (kept.trans (putWrite_keeps a (x := ⟨g, some w⟩) engaged)).trans
      (putPort_keeps_of_same _ (by rfl) (by rfl) (by rfl) fun _ => port ▸ ha)
  have sent : ∀ b : State, Keeps s b → Keeps s (if b.rewriteReady n then b.sendWrite n else b) := by
    intro b hb
    split
    · next ready => exact hb.trans (sendWrite_keeps b (outside_of_rewriteReady b ready))
    · exact hb
  split
  · exact sent _ (marked _ (staleWhere_work s _) (staleWhere_keeps s _) _ rfl _ _)
  · exact sent _ (marked _ (.refl s) (.refl s) _ rfl _ _)

theorem writeData_keeps (n : NodeId) (d : List Byte) : Keeps s (s.writeData n d) := by
  unfold State.writeData
  split
  · next lba count handed mine m ha hm =>
    split
    · exact give_keeps s n _
    · have staged := fun x => (putPort_keeps_of_same s (n := n) (q := { s.port n with staging := x })).trans (give_keeps _ n .accept)
      dsimp only
      split
      · exact (staged _).trans (handWrite_keeps _ (by simp [State.give, ha]) (by simp [State.give, hm]) _ _ _)
      · exact staged _
  · exact .refl s

theorem decideWrite_keeps {n : NodeId} (ha : (s.port n).attached = true) (l c : Nat) : Keeps s (s.decideWrite n l c) := by
  unfold State.decideWrite
  split
  · next m blocks hm =>
    split
    · exact status_keeps s n _ _
    · split
      · exact status_keeps s n _ _
      · split
        · exact status_keeps s n _ _
        · exact (beginRequest_keeps s ha (by simp [hm, Medium.isPresent])).trans (give_keeps _ n _)
  all_goals exact status_keeps s n _ _

theorem writeEnded_keeps {n : NodeId} (hw : (s.images.writes.get n).live = none) (w : WriteOp) (ok : Bool) :
    Keeps s (s.writeEnded n w ok) := by
  have freed : Keeps s (s.putPort n { s.port n with staging := [] }) := putPort_keeps_of_same s
  unfold State.writeEnded
  dsimp only
  split
  · next m b cause hm =>
    rw [State.port_putPort_same] at hm
    refine freed.trans (finishEject_keeps _ n cause fun h => ⟨?_, hw⟩)
    by_contra hs
    have := h.1 (Option.isSome_iff_ne_none.mpr hs)
    simp [hm, Medium.isPresent] at this
  · exact freed
  · exact freed
  · split
    · next ha =>
      split
      · split
        · exact freed.trans (endRequest_keeps _ n _ _)
        · exact (freed.trans (putPort_keeps_of_same _ (by rfl) (by rfl) (by rfl) fun _ => by rw [ha]; rfl)).trans (give_keeps _ n _)
      · exact freed.trans (endRequest_keeps _ n _ _)
    · exact freed

/-! ## Failures, fills and inserts (R130, R134, R135, R151 to R153, R158) -/

theorem countFailure_keeps (r : ImageIx) : Keeps s (s.countFailure r) := by
  unfold State.countFailure
  split
  · exact .refl s
  · next x hx =>
    have counted : Keeps s (s.putImage r (some { x with failures := x.failures + 1 })) := putImage_keeps s hx rfl rfl rfl rfl
    dsimp only
    split
    · exact counted.trans (foldl_keep _ fun a n _ => forceEjectLost_keeps a n)
    · exact counted

theorem clearFailures_keeps (r : ImageIx) : Keeps s (s.clearFailures r) := by
  unfold State.clearFailures
  split
  · exact .refl s
  · next x hx => exact putImage_keeps s hx rfl rfl rfl rfl

theorem endWrite_keeps (n : NodeId) (w : WriteOp) (ok : Bool) : Keeps s (s.endWrite n w ok) := by
  have ended : Keeps s ((s.putWrite n { s.images.writes.get n with live := none }).writeEnded n w ok) :=
    (putWrite_keeps_of_same s (by simp)).trans (writeEnded_keeps _ (by simp [State.putWrite, State.putImages]) w ok)
  unfold State.endWrite
  dsimp only
  split
  · exact ended.trans (clearFailures_keeps _ _)
  · exact ended.trans (countFailure_keeps _ _)

theorem filled_keeps (i : ExtentIx) (n : NodeId) : Keeps s (s.filled i n) := by
  unfold State.filled
  split
  · next ha => exact ((putRead_keeps s (by simp [ha]) _ _ _ _).trans (pin_keeps _ _)).trans (give_keeps _ n _)
  · exact .refl s

theorem fetchFailed_keeps (n : NodeId) : Keeps s (s.fetchFailed n) := by
  unfold State.fetchFailed
  split
  · exact endRequest_keeps s n _ _
  · exact .refl s

theorem complete_keeps {i : ExtentIx} {e x : Extent} (h : s.pool.extents.get i = some e) (hx : x.cells = e.cells) :
    Keeps s (s.putPool (s.pool.complete i x)) := putExtent_touch_keeps s (x := { x with valid := true }) h hx

theorem pool_clearFailures (r : ImageIx) : (s.clearFailures r).pool = s.pool := by
  unfold State.clearFailures
  split <;> rfl

theorem completeFill_keeps {f : FetchIx} {l : Fetch} {x : ImageRec} {e y : Extent} (h : s.pool.extents.get l.target = some y)
    (he : e.cells = y.cells) : Keeps s (s.completeFill f l x e) := by
  have ended : Keeps s ((s.putFetch f { s.images.fetches.get f with live := none }).clearFailures l.image) :=
    (putFetch_keeps s (by simp)).trans (clearFailures_keeps _ _)
  have pool := pool_clearFailures (s.putFetch f { s.images.fetches.get f with live := none }) l.image
  unfold State.completeFill
  dsimp only
  split
  · exact ((ended.trans (poolFree_keeps _ _)).trans (foldl_keep _ fun a n _ => advanceRead_keeps a n)).trans
      (putPool_waiting_tryNeeds_keeps _ false)
  · refine (((ended.trans (complete_keeps _ (e := y) ?_ ?_)).trans (foldl_keep _ fun a n _ => filled_keeps a _ n)).trans
      (unpin_keeps _ _)).trans (tryNeeds_keeps _)
    · rw [pool]; exact h
    · exact he

theorem takeFragment_keeps {f : FetchIx} {l : Fetch} (hl : (s.images.fetches.get f).live = some l) (x : ImageRec) (i : Nat)
    (d : List Byte) : Keeps s (s.takeFragment f l x i d) := by
  unfold State.takeFragment
  split
  · exact .refl s
  · split
    · exact .refl s
    · next e he =>
      have written : Keeps s ((s.putFetch f { s.images.fetches.get f with
          live := some { l with received := l.received ||| (1#4 <<< i) } }).putPool (s.pool.putExtent l.target (e.writeFrag i d))) :=
        (putFetch_keeps s fun k hk => .inl ⟨l, hl, by rw [← Option.some_inj.mp hk]⟩).trans
          (putExtent_keeps _ (e := e) he rfl)
      dsimp only
      split
      · exact written.trans (completeFill_keeps _ (y := e.writeFrag i d) (by simp [Pool.putExtent]) rfl)
      · exact written

theorem failFetch_keeps (f : FetchIx) (l : Fetch) : Keeps s (s.failFetch f l) := by
  unfold State.failFetch
  split
  · exact dropFetch_keeps s f
  · exact (((dropFetch_keeps s f).trans (foldl_keep _ fun a n _ => fetchFailed_keeps a n)).trans
      (putPool_waiting_tryNeeds_keeps _ false)).trans (countFailure_keeps _ _)

theorem present_keeps {n : NodeId} {m : MediumRef} (hm : (s.port n).medium = .loading m) (length : Nat) :
    Keeps s (s.present n m length) := by
  refine (putPort_keeps s (q := { s.port n with medium := .present m (blockCount length m.size), changed := true }) id
    (by rw [hm]; rfl) ?_).trans (raise_node_keeps _ (e := .mediumInserted) (by simp [Event.rank]))
  rintro ⟨-, write⟩
  refine ⟨fun _ => rfl, fun w hw => ?_⟩
  have := write w hw
  simp [hm] at this

theorem insertFailed_keeps {n : NodeId} {m : MediumRef} (hm : (s.port n).medium = .loading m) (b : Bool) :
    Keeps s (s.insertFailed n b) := by
  refine (emptyMedium_keeps s n _ _ fun ⟨active, write⟩ => ⟨?_, ?_⟩).trans (raise_node_keeps _ (by simp [Event.rank]))
  · by_contra hs
    have := active (Option.isSome_iff_ne_none.mpr hs)
    simp [hm, Medium.isPresent] at this
  · refine Option.eq_none_iff_forall_ne_some.mpr fun w hw => ?_
    have := write w hw
    simp [hm] at this

theorem opened_keeps (r : ImageIx) (length : Nat) (n : NodeId) : Keeps s (s.opened r length n) := by
  unfold State.opened
  split
  · next m hm =>
    split
    · split
      · exact insertFailed_keeps s hm true
      · exact present_keeps s hm length
    · exact .refl s
  all_goals exact .refl s

theorem openFailed_keeps (r : ImageIx) (n : NodeId) : Keeps s (s.openFailed r n) := by
  unfold State.openFailed
  split
  · next m hm =>
    split
    · exact insertFailed_keeps s hm false
    · exact .refl s
  all_goals exact .refl s

theorem takeOpen_keeps {r : ImageIx} {x : ImageRec} (hx : s.image r = some x) (h : BitVec 32) (l : Nat) :
    Keeps s (s.takeOpen r x h l) :=
  (putImage_keeps (y := { x with phase := .opened h l }) s hx rfl rfl rfl rfl).trans (foldl_keep _ fun a n _ => opened_keeps a r l n)

/-- A node with an EMPTY medium joins a record: one in use without a writer, or one that stands for no other image. -/
theorem joinRecord_keeps {n : NodeId} {r : ImageIx} {x : ImageRec} {m : MediumRef} (he : (s.port n).medium = .empty)
    (hm : m.image = r)
    (hx : (s.image r = some x ∧ x.writable = false) ∨
      (s.image r = none ∧ x.users = 0 ∧ ∀ q y, s.image q = some y → ¬(y.server = x.server ∧ y.image = x.image))) :
    Keeps s (s.joinRecord n r x (.loading m)) where
  port := fun h => portLaw_putPort (s.putImage r (some { x with users := withNode x.users n })) (n := n) id h
  image := fun ⟨users, known, distinct, alone⟩ => by
    have at_ : ∀ q z, (s.joinRecord n r x (.loading m)).image q = some z →
        (q ≠ r ∧ s.image q = some z) ∨ (q = r ∧ z = { x with users := withNode x.users n }) := by
      intro q z hz
      have hz : (s.putImage r (some { x with users := withNode x.users n })).image q = some z := hz
      by_cases e : q = r
      · subst e
        rw [State.image_putImage_same, Option.some_inj] at hz
        exact .inr ⟨rfl, hz.symm⟩
      · rw [State.image_putImage_ne _ _ e] at hz
        exact .inl ⟨e, hz⟩
    have port_ : ∀ k, ((s.joinRecord n r x (.loading m)).port k).medium.ref? =
        if k = n then some m else (s.port k).medium.ref? := by
      intro k
      by_cases hk : k = n
      · subst hk; simp [State.joinRecord, Medium.ref?]
      · simp only [State.joinRecord, State.port_putPort_ne _ _ hk, if_neg hk]
        rfl
    have none_ : (s.port n).medium.ref? = none := by rw [he]; rfl
    have usersAt : ∀ k : NodeId, x.users.getLsbD k.val = true ↔ ∃ m', (s.port k).medium.ref? = some m' ∧ m'.image = r := by
      intro k
      rcases hx with ⟨hx, -⟩ | ⟨hx, zero, -⟩
      · exact users r x hx k
      · refine ⟨fun h => by simp [zero] at h, ?_⟩
        rintro ⟨m', hm', rfl⟩
        have := known k m' hm'
        simp [hx] at this
    have differs : ∀ q z, q ≠ r → s.image q = some z → x.server = z.server → x.image = z.image → False := by
      intro q z ne hz h1 h2
      rcases hx with ⟨hx, -⟩ | ⟨-, -, new⟩
      · exact ne (distinct q r z x hz hx h1.symm h2.symm)
      · exact new q z hz ⟨h1.symm, h2.symm⟩
    refine ⟨fun q z hz k => ?_, fun k m' hm' => ?_, fun q p z v hz hv h1 h2 => ?_, fun q z hz h k j hk hj => ?_⟩
    · rw [port_]
      rcases at_ q z hz with ⟨ne, known⟩ | ⟨rfl, rfl⟩
      · by_cases hk : k = n
        · subst hk
          have := users q z known k
          simp only [none_] at this
          simp only [if_true, Option.some_inj]
          constructor
          · intro hb
            obtain ⟨m', hm', -⟩ := this.mp hb
            cases hm'
          · rintro ⟨m', rfl, e⟩
            exact absurd (hm ▸ e).symm ne
        · simpa [hk] using users q z known k
      · simp only [getLsbD_withNode]
        by_cases hk : k = n
        · subst hk; simp [hm]
        · simpa [hk] using usersAt k
    · rw [port_] at hm'
      show ((s.putImage r (some { x with users := withNode x.users n })).image m'.image).isSome
      by_cases e : m'.image = r
      · rw [e, State.image_putImage_same]; rfl
      · rw [State.image_putImage_ne _ _ e]
        split at hm'
        · exact absurd ((Option.some_inj.mp hm') ▸ hm) e
        · exact known k m' hm'
    · rcases at_ q z hz with ⟨ne, old⟩ | ⟨rfl, rfl⟩
      · rcases at_ p v hv with ⟨ne', old'⟩ | ⟨rfl, rfl⟩
        · exact distinct q p z v old old' h1 h2
        · exact (differs q z ne old h1.symm h2.symm).elim
      · rcases at_ p v hv with ⟨ne', old'⟩ | ⟨rfl, rfl⟩
        · exact (differs p v ne' old' h1 h2).elim
        · rfl
    · rcases at_ q z hz with ⟨ne, old⟩ | ⟨rfl, rfl⟩
      · exact alone q z old h k j hk hj
      · rcases hx with ⟨-, hw⟩ | ⟨-, zero, -⟩
        · simp [hw] at h
        · simp only [getLsbD_withNode, zero] at hk hj
          simp at hk hj
          rw [hk, hj]
  fetch := fun h => by
    refine fetchLaw_putPort (s.putImage r (some { x with users := withNode x.users n })) ?_ (fetchLaw_putImage s h)
    rintro ⟨active, write⟩
    have he : ((s.putImage r (some { x with users := withNode x.users n })).port n).medium = .empty := he
    refine ⟨fun hs => ?_, fun w hw => ?_⟩
    · have := active hs
      simp [he, Medium.isPresent] at this
    · have := write w hw
      simp [he] at this

theorem findImage_some {v : StationIx} {g : BitVec 32} {r : ImageIx} (h : s.findImage v g = some r) :
    ∃ x, s.image r = some x ∧ x.server = v ∧ x.image = g := by
  have := List.find?_some h
  split at this
  · next x hx => exact ⟨x, hx, by simpa using this⟩
  · cases this

theorem findImage_none {v : StationIx} {g : BitVec 32} (h : s.findImage v g = none) {r : ImageIx} {x : ImageRec}
    (hx : s.image r = some x) : ¬(x.server = v ∧ x.image = g) := by
  have := List.find?_eq_none.mp h r (mem_allNodes r)
  simpa [hx] using this

theorem insert_keeps (n : NodeId) (v : StationIx) (g : BitVec 32) (z : BlockSize) (w : Bool) : Keeps s (s.insert n v g z w).1 := by
  unfold State.insert
  split
  · exact .refl s
  · next empty =>
    have he : (s.port n).medium = .empty := by simpa using empty
    split
    · exact .refl s
    · split
      · next r hr =>
        split
        · exact .refl s
        · next x hx =>
          split
          · exact .refl s
          · next hw =>
            split
            · exact .refl s
            · have unshared : x.writable = false := by
                rw [Bool.or_eq_true, not_or] at hw
                simpa using hw.1
              have joined := joinRecord_keeps s (m := ⟨r, z, w⟩) he rfl (.inl ⟨hx, unshared⟩)
              dsimp only
              split
              · exact joined
              · exact joined.trans (present_keeps _ (by simp [State.joinRecord]) _)
      · next hr =>
        split
        · exact .refl s
        · next r hf =>
          have free : s.image r = none := by simpa using List.find?_some hf
          have joined := (joinRecord_keeps s (x := ⟨v, g, w, 0, 0, .opening (s.ms + 2000) false⟩) (m := ⟨r, z, w⟩) he rfl
            (.inr ⟨free, rfl, fun q y hy => findImage_none s hr hy⟩)).trans (setOwned_keeps _ v g true)
          dsimp only
          split
          · next ready => exact joined.trans (sendOpen_keeps _ (outside_of_openReady _ ready))
          · exact joined

/-! ## Replies (R144, R146, R151, R156) and timers (R144, R153, R155) -/

theorem countLate_keeps : Keeps s s.countLate := {}

theorem countForeign_keeps : Keeps s s.countForeign := {}

theorem countMalformed_keeps : Keeps s s.countMalformed := {}

theorem awaiting_spec {i : StationIx} {g : BitVec 32} {r : ImageIx} {x : ImageRec} (h : s.awaiting i g = some (r, x)) :
    s.image r = some x := by
  have := List.mem_of_find?_eq_some h
  simpa [State.liveImages] using this

theorem replyOpen_keeps (i : StationIx) (b : List Byte) : Keeps s (s.replyOpen i b) := by
  unfold State.replyOpen
  dsimp only
  split
  · exact countLate_keeps s
  · next r x hx =>
    split
    · exact countLate_keeps s
    · exact takeOpen_keeps s (awaiting_spec s hx) _ _

theorem replyExtent_keeps (i : StationIx) (b : List Byte) : Keeps s (s.replyExtent i b) := by
  unfold State.replyExtent
  split
  · exact countLate_keeps s
  · split
    · exact countLate_keeps s
    · next l hl =>
      split
      · exact countLate_keeps s
      · split
        · exact countForeign_keeps s
        · split
          · exact countForeign_keeps s
          · split
            · exact countMalformed_keeps s
            · exact takeFragment_keeps s hl _ _ _

theorem replyWrite_keeps (i : StationIx) (b : List Byte) : Keeps s (s.replyWrite i b) := by
  unfold State.replyWrite
  split
  · exact countLate_keeps s
  · split
    · exact countLate_keeps s
    · split
      · exact countLate_keeps s
      · split
        · exact countForeign_keeps s
        · split
          · exact countForeign_keeps s
          · exact endWrite_keeps s _ _ _

theorem takeReply_keeps (i : StationIx) (k : ReplyKind) (b : List Byte) : Keeps s (s.takeReply i k b) := by
  unfold State.takeReply
  split
  · exact countMalformed_keeps s
  · split
    · exact countForeign_keeps s
    · cases k with
      | openReply => exact replyOpen_keeps s i b
      | extentData => exact replyExtent_keeps s i b
      | writeReply => exact replyWrite_keeps s i b

theorem openExpires_keeps (r : ImageIx) : Keeps s (s.openExpires r) := by
  unfold State.openExpires
  split
  · split
    · exact (reachMs_keeps s _).trans (foldl_keep _ fun a n _ => openFailed_keeps a r n)
    · exact .refl s
  · exact .refl s

theorem retryFetch_keeps {f : FetchIx} {l : Fetch} (hl : (s.images.fetches.get f).live = some l) : Keeps s (s.retryFetch f l) := by
  have again : Keeps s (s.putFetch f { s.images.fetches.get f with live := some { l with second := true, timer := none } }) :=
    putFetch_keeps s fun k hk => .inl ⟨l, hl, by rw [← Option.some_inj.mp hk]⟩
  unfold State.retryFetch
  dsimp only
  split
  · next ready => exact again.trans (refetch_keeps _ (outside_of_refetchReady _ ready))
  · exact again

theorem fetchExpires_keeps (f : FetchIx) : Keeps s (s.fetchExpires f) := by
  unfold State.fetchExpires
  split
  · next l hl =>
    split
    · split
      · exact (reachMs_keeps s _).trans (failFetch_keeps _ f l)
      · exact (reachMs_keeps s _).trans (retryFetch_keeps _ hl)
    · exact .refl s
  · exact .refl s

theorem retryWrite_keeps {n : NodeId} {w : WriteOp} (hw : (s.images.writes.get n).live = some w) : Keeps s (s.retryWrite n w) := by
  have again : Keeps s (s.putWrite n { s.images.writes.get n with live := some { w with second := true, phase := .retryWaiting } }) :=
    putWrite_keeps_of_same s fun v hv => ⟨w, hw, by rw [← Option.some_inj.mp hv]⟩
  unfold State.retryWrite
  dsimp only
  split
  · next ready => exact again.trans (sendWrite_keeps _ (outside_of_rewriteReady _ ready))
  · exact again

theorem writeExpires_keeps (n : NodeId) : Keeps s (s.writeExpires n) := by
  unfold State.writeExpires
  split
  · next w hw =>
    split
    · split
      · exact (reachMs_keeps s _).trans (endWrite_keeps _ n w false)
      · exact (reachMs_keeps s _).trans (retryWrite_keeps _ hw)
    · exact .refl s
    · exact .refl s
  · exact .refl s

/-! ## Block requests (R121, R125, R126, R137) -/

/-- A request offered to a port acts on one that is attached (R121). -/
theorem offerRequest_keeps {n : NodeId} {f : State → State} (h : (s.port n).attached = true → Keeps s (f s)) :
    Keeps s (s.offerRequest n f) := by
  unfold State.offerRequest
  split
  · next takes =>
    rw [State.takesRequest, Bool.and_eq_true] at takes
    exact h takes.1
  · exact .refl s

theorem answerReady_keeps (n : NodeId) : Keeps s (s.answerReady n) := by
  unfold State.answerReady
  split
  · split
    · exact (putPort_keeps_of_same s).trans (status_keeps _ n _ _)
    · exact status_keeps s n _ _
  · exact status_keeps s n _ _

theorem answerCapacity_keeps (n : NodeId) : Keeps s (s.answerCapacity n) := by
  unfold State.answerCapacity
  split
  · exact (putSense_keeps s n _ _).trans (give_keeps _ n _)
  all_goals exact status_keeps s n _ _

end Sys2Proof.Machine
end

section
/-! PROOFS. The laws under the operations of lines, streams, patterns, the Power Sequencer and the boot watch (chapters 2 to 6). -/
namespace Sys2Proof.Machine

-- Side by side, the proofs of this text would need more thread stacks than the check's memory limit holds.
set_option Elab.async false

variable (s : State)

/-! ## Attachments (R54 to R57) -/

theorem AttsFit.filter {n : NodeId} {as : List Attachment} (h : AttsFit s n as) (p : Attachment → Bool) :
    AttsFit s n (as.filter p) := by
  obtain ⟨four, nodup, entitled, empty⟩ := h
  exact ⟨(List.length_filter_le _ _).trans four, nodup.sublist (List.filter_sublist.map _),
    fun a ha => entitled a (List.mem_of_mem_filter ha), fun hl => by simp [empty hl]⟩

theorem map_station_putAtt (t : Stream) (a : Attachment) :
    (t.putAtt a).atts.map Attachment.station = t.atts.map Attachment.station := by
  simp only [Stream.putAtt, List.map_map]
  refine List.map_congr_left fun b _ => ?_
  simp only [Function.comp_apply]
  split
  · next h => exact h.symm
  · rfl

/-- An attachment replaced by one of its station, in a mode the station holds. -/
theorem AttsFit.putAtt {n : NodeId} {t : Stream} {a b : Attachment} (ha : a ∈ t.atts) (hs : b.station = a.station)
    (hm : b.mode = .typing → a.mode = .typing ∨ s.holds a.station n .typing = true) (h : AttsFit s n t.atts) :
    AttsFit s n (t.putAtt b).atts := by
  obtain ⟨four, nodup, entitled, empty⟩ := h
  refine ⟨by simpa [Stream.putAtt] using four, by rwa [map_station_putAtt], fun c hc => ?_, fun hl => by
    simp [Stream.putAtt, empty hl]⟩
  obtain ⟨d, hd, rfl⟩ := List.mem_map.mp hc
  split
  · obtain ⟨watch, typing⟩ := entitled a ha
    exact ⟨hs ▸ watch, fun hb => hs ▸ (hm hb).elim typing id⟩
  · exact entitled d hd

theorem mem_of_att {t : Stream} {i : StationIx} {a : Attachment} (h : t.att i = some a) : a ∈ t.atts ∧ a.station = i :=
  ⟨List.mem_of_find?_eq_some h, by simpa using List.find?_some h⟩

theorem putAtt_keeps {n : NodeId} {i : StationIx} {a b : Attachment} (ha : (s.streams.get n).att i = some a)
    (hs : b.station = a.station) (hm : b.mode = .typing → a.mode = .typing ∨ s.holds a.station n .typing = true) :
    Keeps s (s.putStream n ((s.streams.get n).putAtt b)) :=
  putStream_keeps_of_history s id (AttsFit.putAtt s (mem_of_att ha).1 hs hm) rfl rfl

theorem renewLease_keeps (n : NodeId) (i : StationIx) : Keeps s (s.renewLease n i) := by
  unfold State.renewLease
  split
  · exact .refl s
  · next a ha => exact putAtt_keeps s ha rfl .inl

theorem setEscape_keeps (n : NodeId) (i : StationIx) (e : Option Nat) : Keeps s (s.setEscape i n e) := by
  unfold State.setEscape
  split
  · next a ha => exact putAtt_keeps s ha rfl .inl
  · exact .refl s

/-! ## Batches and the ring (R47 to R51) -/

theorem formBatch_keeps {n : NodeId} (h : s.batchReady n = true) : Keeps s (s.formBatch n) := by
  have room : (s.streams.get n).atts.length ≤ s.up.outside := by
    rw [State.batchReady, Bool.and_eq_true] at h
    simpa using h.2
  have queued : ∀ b, Keeps s (s.enqueueAll ((s.streams.get n).atts.map (fun a =>
      consoleFrame (s.addressOf a.station) n (encodeOutput (s.streams.get n).ringStart b false false false)))) := fun b =>
    enqueueAll_keeps s (fun f hf => by
      obtain ⟨a, -, rfl⟩ := List.mem_map.mp hf
      simp [consoleFrame]) (by simpa using room)
  exact ((queued ((s.streams.get n).ring.take 512)).trans (putStream_keeps_of_history _ (n := n) (x := { s.streams.get n with
    ring := (s.streams.get n).ring.drop 512
    batchDue := (s.streams.get n).batchDue && !((s.streams.get n).ring.drop 512).isEmpty })
    (fun hr => (List.drop_sublist _ _).length_le.trans hr) id rfl rfl)).trans (passAll_keeps _ _ _ _)

theorem formBatches_keeps (n : NodeId) (k : Nat) : Keeps s (State.formBatches n k s) := by
  induction k generalizing s with
  | zero => exact .refl s
  | succ k ih =>
    unfold State.formBatches
    split
    · next h => exact (formBatch_keeps s h).trans (ih _)
    · exact .refl s

theorem testBatch_keeps (n : NodeId) : Keeps s (s.testBatch n) := formBatches_keeps s n 1024

theorem drainRing_keeps (n : NodeId) : Keeps s (s.drainRing n) :=
  (putStream_keeps_of_history s (n := n) (x := { s.streams.get n with ring := [], flush := none, batchDue := false })
    (by simp) id rfl rfl).trans (passAll_keeps _ _ _ _)

theorem offer_keeps (n : NodeId) (k : EntryKind) : Keeps s (s.offer n k) := by
  unfold State.offer
  dsimp only
  split
  · next room =>
    have joined := fun d => putStream_keeps_of_history s (n := n) (x := (s.streams.get n).join k d)
      (fun _ => by simp only [Stream.join, List.length_append, List.length_singleton]; unfold ringSize at room; omega) id rfl rfl
    split
    · exact (joined _).trans (drainRing_keeps _ n)
    · exact (joined _).trans (testBatch_keeps _ n)
  · exact putStream_keeps_of_history s id id rfl rfl

theorem offerMatched_keeps (n : NodeId) (k : EntryKind) : Keeps s (s.offerMatched n k) := by
  unfold State.offerMatched
  dsimp only
  split
  · exact (offer_keeps s n k).trans (putMatcher_keeps _ _)
  · exact offer_keeps s n k

theorem offerMark_keeps (n : NodeId) (m : Mark) : Keeps s (s.offerMark n m) := offerMatched_keeps s n _

theorem detach_keeps (n : NodeId) (i : StationIx) : Keeps s (s.detach n i) := by
  have dropped : Keeps s (s.putStream n ((s.streams.get n).dropAtt i)) :=
    putStream_keeps_of_history s id (fun h => h.filter s _) rfl rfl
  unfold State.detach
  dsimp only
  split
  · exact .refl s
  · split
    · exact dropped.trans (drainRing_keeps _ n)
    · exact dropped.trans (testBatch_keeps _ n)

theorem replayFrame_keeps {n : NodeId} (h : s.replayReady n = true) : Keeps s (s.replayFrame n) := by
  have room : 1 ≤ s.up.outside := by
    rw [State.replayReady, Bool.and_eq_true] at h
    simpa using h.2
  unfold State.replayFrame
  dsimp only
  split
  · exact .refl s
  · split <;> exact (enqueue_keeps s (by simp [consoleFrame]) room).trans (putStream_keeps_of_history _ id id rfl rfl)

/-! ## The line's transmit queue (R39 to R41) -/

/-- A line changed in its transmit side alone stays in bounds where its queue does. -/
theorem Line.inBounds.transmit {l : Line} {q : List TxItem} {t : Transmitter} (h : l.inBounds) (hq : q.length ≤ 256)
    (hi : t = .idle → q = []) : ({ l with txQueue := q, transmitter := t } : Line).inBounds := by
  obtain ⟨e, c, g, p, d, u, r, -, -⟩ := h
  exact ⟨e, c, g, p, d, u, r, hq, hi⟩

theorem begin_ne_idle (l : Line) (now : Nat) (x : TxItem) : l.begin now x ≠ .idle := by cases x <;> simp [Line.begin]

/-- An IDLE transmitter that takes the item at the head leaves a line whose queue was in bounds in bounds. -/
theorem Line.inBounds.wake {l : Line} {q : List TxItem} {t : Transmitter} (h : l.inBounds) (hq : q.length ≤ 256) (now : Nat) :
    (({ l with txQueue := q, transmitter := t } : Line).wake now).inBounds := by
  unfold Line.wake
  split
  · next x rest _ hq' =>
    have hq' : q = x :: rest := hq'
    have := congrArg List.length hq'
    simp only [List.length_cons] at this
    exact h.transmit (by omega) (fun h => absurd h (begin_ne_idle _ _ _))
  · next hn =>
    refine h.transmit hq fun ht => ?_
    cases q with
    | nil => rfl
    | cons x rest => exact absurd rfl (hn x rest ht)

theorem length_wake_le (l : Line) (now : Nat) : (l.wake now).txQueue.length ≤ l.txQueue.length := by
  unfold Line.wake
  split
  · next h => simp [h]
  · rfl

theorem Line.inBounds.queue {l : Line} (h : l.inBounds) : l.txQueue.length ≤ 256 ∧ (l.transmitter = .idle → l.txQueue = []) := by
  obtain ⟨-, -, -, -, -, -, -, q, i⟩ := h
  exact ⟨q, i⟩

theorem Line.inBounds.next {l : Line} (h : l.inBounds) (now : Nat) : (l.next now).inBounds := h.wake h.queue.1 now

theorem sendItems_keeps {n : NodeId} {xs : List TxItem} (h : (s.lines.get n).txQueue.length + xs.length ≤ 256) :
    Keeps s (s.sendItems n xs) := by
  induction xs generalizing s with
  | nil => exact .refl s
  | cons x xs ih =>
    simp only [List.length_cons] at h
    refine (putLine_keeps s fun hl => hl.wake (t := (s.lines.get n).transmitter) ?_ s.now).trans (ih _ ?_)
    · simp only [List.length_append, List.length_singleton]
      omega
    · have := length_wake_le { s.lines.get n with txQueue := (s.lines.get n).txQueue ++ [x] } s.now
      simp only [List.length_append, List.length_singleton] at this
      simp only [State.putLine, Tab.get_put_same]
      omega

theorem txRoom_iff {n : NodeId} {k : Nat} : s.txRoom n k = true ↔ (s.lines.get n).txQueue.length + k ≤ 256 := by
  unfold State.txRoom txSize
  exact decide_eq_true_iff

theorem releaseByte_keeps (n : NodeId) (b : Byte) : Keeps s (s.releaseByte n b) := by
  unfold State.releaseByte
  split
  · next h => exact sendItems_keeps s ((txRoom_iff s).mp h)
  · exact .refl s

/-! ## Reboot marks (R95) -/

/-- A line at a candidate of its list, QUIET, its counters 0. -/
theorem Line.inBounds.fresh {l : Line} (h : l.inBounds) (now : Nat) {t : LineSettings} {k : Nat} (hk : k ≤ 2) (noisy suspended : Bool) :
    (({ l with
      settings := t, candidate := 0, hunting := false, errors := 0, goodRun := 0, laps := 0, discard := k, noisy := noisy,
      suspended := suspended } : Line).toQuiet now).inBounds := by
  obtain ⟨-, -, -, -, -, -, -, q, i⟩ := h
  refine ⟨Nat.zero_le _, by simp [Line.toQuiet, LineSettings.rates], Nat.zero_lt_succ _, Nat.zero_lt_succ _, hk, fun _ => ⟨rfl, rfl⟩, ?_, q, i⟩
  cases hr : l.rxd <;> simp [Line.toQuiet, Line.rxdFits]

theorem Line.inBounds.toPrimary {l : Line} (h : l.inBounds) (now : Nat) : (l.toPrimary now).inBounds :=
  h.fresh now (t := l.settings) (k := 0) (by decide) false false

theorem rebootMark_keeps (n : NodeId) : Keeps s (s.rebootMark n) :=
  ((offerMark_keeps s n _).trans (putLine_keeps _ fun h => h.toPrimary _)).trans (putMatcher_keeps _ _)

theorem offerMatched_eq (n : NodeId) (k : EntryKind) : ∃ fs u m, s.offerMatched n k = ((s.enqueueAll fs).putStream n u).putMatcher m := by
  obtain ⟨fs, u, h, -⟩ := s.offer_eq n k
  unfold State.offerMatched
  rw [h]
  dsimp only
  split
  · exact ⟨fs, u, _, rfl⟩
  · exact ⟨fs, u, s.matcher, rfl⟩

theorem power_rebootMark (n : NodeId) : (s.rebootMark n).power = s.power ∧ (s.rebootMark n).ports = s.ports ∧
    (s.rebootMark n).watches = s.watches := by
  obtain ⟨fs, u, m, h⟩ := offerMatched_eq s n (.mark .reboot)
  simp only [State.rebootMark, State.offerMark, h]
  exact ⟨rfl, rfl, rfl⟩

/-! ## Permission (R96, R97, R120) -/

/-- The ports are in order at the other nodes, and node `n`'s request needs an attached port. -/
def PortLawOff (n : NodeId) (s : State) : Prop :=
  (∀ m, m ≠ n → PortFits s.porn (s.pw m) (s.port m)) ∧ ((s.port n).active.isSome → (s.port n).attached = true)

theorem PortLaw.off {s : State} (h : PortLaw s) (n : NodeId) : PortLawOff n s := by
  obtain ⟨others, -, -, active, -⟩ := h.but n
  exact ⟨others, active⟩

variable {s}

theorem PortLawOff.putPower {n : NodeId} (h : PortLawOff n s) (p : Power) : PortLawOff n (s.putPower n p) := by
  refine ⟨fun m hm => ?_, h.2⟩
  have : (s.putPower n p).pw m = s.pw m := by simp [State.pw, hm]
  rw [this]
  exact h.1 m hm

theorem PortLawOff.raise {n : NodeId} (h : PortLawOff n s) (id : SetId) (e : Event) : PortLawOff n (s.raise id e) := by
  simpa only [PortLawOff, State.pw, State.port, State.raise_porn, State.raise_power, State.raise_ports] using h

/-- A withdrawn permission leaves the ports in order whatever the node's power state (R96). -/
theorem deny_port {n : NodeId} (h : PortLawOff n s) : PortLaw (s.deny n) := by
  obtain ⟨others, active⟩ := h.putPower { s.pw n with granted := false, reattach := none, armed := false }
  have pw : (s.putPower n { s.pw n with granted := false, reattach := none, armed := false }).pw n =
      { s.pw n with granted := false, reattach := none, armed := false } := by simp [State.pw]
  refine portUpdate_port _ ⟨fun m hm => ?_, ?_, ?_, ?_, ?_⟩
  · rw [State.port_putPort_ne _ _ hm]
    exact others m hm
  · show (State.pw (s.putPower n _) n).granted = true → _
    simp [pw]
  · show (State.pw (s.putPower n _) n).reattach.isSome → _
    simp [pw]
  · rw [State.port_putPort_same]
    exact active
  · intro _
    show (State.pw (s.putPower n _) n).granted = false
    rw [pw]

variable (s)

theorem putPower_offPort {n : NodeId} {p : Power} (h : (s.pw n).fits → p.fits) : KeepsOffPort s (s.putPower n p) where
  laws := putPower_local s h

theorem deny_offPort (n : NodeId) : KeepsOffPort s (s.deny n) :=
  ((putPower_offPort s (n := n) (p := { s.pw n with granted := false, reattach := none, armed := false }) id).trans
    (putPort_keeps_of_same _ (q := { s.port n with grantBoot := false })).toKeepsOffPort).trans (portUpdate_offPort _ n)

/-- A power record that fits, with the permission withdrawn. -/
theorem putPower_deny_keeps {n : NodeId} {p : Power} (h : (s.pw n).fits → p.fits) : Keeps s ((s.putPower n p).deny n) where
  toKeepsOffPort := (putPower_offPort s h).trans (deny_offPort _ n)
  port := fun hs => deny_port ((hs.off n).putPower p)

theorem startReattach_keeps {n : NodeId} (h : (s.pw n).state = .on) (b : Bool) : Keeps s (s.startReattach n b) := by
  unfold State.startReattach
  split
  · exact .refl s
  · next denied =>
    refine putPower_keeps s id ?_
    rintro ⟨granted, -, attached, active, porn⟩
    exact ⟨granted, fun _ => ⟨by simpa using denied, .inl h⟩, attached, active, porn⟩

theorem grantPort_keeps {n : NodeId} (hp : s.porn = true) (hr : (s.pw n).reattach.isSome) : Keeps s (s.grantPort n) where
  toKeepsOffPort :=
    ((putPower_offPort s (n := n) (p := { s.pw n with granted := true, reattach := none, armed := false }) id).trans
      (putPort_keeps_of_same _ (q := { s.port n with
        grantBoot := (s.pw n).armed && (s.port n).medium.isPresent, bootFirst := false })).toKeepsOffPort).trans
      (portUpdate_offPort _ n)
  port := fun h => by
    obtain ⟨-, reattach, -, -, -⟩ := h n
    obtain ⟨others, active⟩ := (h.off n).putPower { s.pw n with granted := true, reattach := none, armed := false }
    have pw : (s.putPower n { s.pw n with granted := true, reattach := none, armed := false }).pw n =
        { s.pw n with granted := true, reattach := none, armed := false } := by simp [State.pw]
    refine portUpdate_port _ ⟨fun m hm => ?_, fun _ => ?_, ?_, ?_, fun h0 => ?_⟩
    · rw [State.port_putPort_ne _ _ hm]
      exact others m hm
    · show (State.pw (s.putPower n _) n).state = .on ∨ (State.pw (s.putPower n _) n).state = .softStopping
      rw [pw]
      exact (reattach hr).2
    · show (State.pw (s.putPower n _) n).reattach.isSome → _
      simp [pw]
    · rw [State.port_putPort_same]
      exact active
    · have h0 : s.porn = false := h0
      simp [hp] at h0

theorem reattachExpires_keeps (n : NodeId) (hp : s.porn = true) : Keeps s (s.reattachExpires n) := by
  unfold State.reattachExpires
  split
  · next d hd => exact (reachMs_keeps s d).trans (grantPort_keeps (s.reachMs d) hp (Option.isSome_of_eq_some hd))
  · exact .refl s

/-! ## The boot watch (R108 to R116) -/

theorem Watch.stop_fits {w : Watch} (h : w.fits) : w.stop.fits := by
  unfold Watch.stop
  split
  · exact ⟨h.1, by simp, by simp⟩
  · exact h

theorem Watch.start_fits {w : Watch} (h : w.fits) (ms : Nat) : (w.start ms).fits := by
  unfold Watch.start
  split
  · exact h
  · exact ⟨h.1, by simp, by simp⟩

theorem stopWatch_keeps (n : NodeId) : Keeps s (s.stopWatch n) := putWatch_keeps s Watch.stop_fits

theorem satisfy_keeps (n : NodeId) (src : BootSource) : Keeps s (s.satisfy n src) :=
  (putWatch_keeps s fun _ => ⟨Nat.zero_le _, by simp [Watch.satisfied], by simp [Watch.satisfied]⟩).trans
    (raise_node_keeps _ (by simp [Event.rank]))

theorem bootSeen_keeps (n : NodeId) (p : PatternIx) (off : Offset) : Keeps s (s.bootSeen n p off) := by
  unfold State.bootSeen
  split
  · exact satisfy_keeps s n _
  · exact .refl s

/-! ## Entries to the resting states (R96, R98, R109, R110) -/

theorem startWatch_keeps (n : NodeId) (c : Prop) [Decidable c] :
    Keeps s (if c then s.putWatch n ((s.wt n).start s.ms) else s) := by
  split
  · exact putWatch_keeps s fun h => Watch.start_fits h _
  · exact .refl s

theorem enterOn_keeps (n : NodeId) (ev : PowerEvent) (mark keep : Bool) : Keeps s (s.enterOn n ev mark keep) := by
  unfold State.enterOn
  dsimp only
  set p : Power := { s.pw n with
    state := .on, action := none, phase := none, tick := none, button := false, reset := false } with hp
  have on_ : Keeps s (s.putPower n p) := by
    refine putPower_keeps s (fun _ => ⟨by simp [hp], by simp [hp], rfl⟩) ?_
    rintro ⟨-, reattach, attached, active, porn⟩
    exact ⟨fun _ => .inl rfl, fun h => ⟨(reattach h).1, .inl rfl⟩, attached, active, porn⟩
  have noted := on_.trans (raise_node_keeps (n := n) _ (e := .power ev .on (s.pw n).action) (by simp [Event.rank]))
  have marked : ∀ c : State, Keeps s c → (c.pw n).state = .on → ∀ b, Keeps s (c.startReattach n b) :=
    fun c hc h b => hc.trans (startReattach_keeps c h b)
  have state : (((s.putPower n p).raise (some n) (.power ev .on (s.pw n).action)).pw n).state = .on := by
    simp [State.pw, hp]
  have begun : Keeps s ((if mark = true
      then ((s.putPower n p).raise (some n) (.power ev .on (s.pw n).action)).rebootMark n
      else (s.putPower n p).raise (some n) (.power ev .on (s.pw n).action)).startReattach n (keep && (s.pw n).toMedia)) := by
    split
    · refine marked _ (noted.trans (rebootMark_keeps _ n)) ?_ _
      rw [State.pw, (power_rebootMark _ n).1]
      exact state
    · exact marked _ noted state _
  exact begun.trans (startWatch_keeps _ n _)

theorem enterOff_keeps (n : NodeId) (ev : PowerEvent) (a : Option Action) : Keeps s (s.enterOff n ev a) := by
  refine Keeps.trans (t := ((s.putPower n { s.pw n with
    state := .off, action := none, phase := none, tick := none, button := false, reset := false }).raise (some n)
      (.power ev .off a)).deny n) ⟨?_, fun h => ?_⟩ (stopWatch_keeps _ n)
  · exact ((putPower_offPort s fun _ => ⟨by simp, by simp, rfl⟩).trans
      (raise_node_keeps _ (by simp [Event.rank])).toKeepsOffPort).trans (deny_offPort _ n)
  · exact deny_port (((h.off n).putPower _).raise _ _)

/-! ## Actions (R88 to R93) -/

theorem beginStarting_keeps {n : NodeId} {a : Option Action} (ha : ∀ x, a = some x → carries .starting x.kind = true)
    (hs : a.isSome) (h1 : (s.pw n).state ≠ .on) (h2 : (s.pw n).state ≠ .softStopping) : Keeps s (s.beginStarting n a) := by
  obtain ⟨x, rfl⟩ := Option.isSome_iff_exists.mp hs
  refine putPower_keeps s (fun _ => ⟨by simp, by simp, ha x rfl⟩) ?_
  rintro ⟨granted, reattach, attached, active, porn⟩
  refine ⟨fun h => ?_, fun h => ?_, attached, active, porn⟩
  · exact ((granted h).elim h1 h2).elim
  · exact ((reattach h).2.elim h1 h2).elim

theorem beginHardStop_keeps {n : NodeId} {a : Action} (ha : carries .hardStopping a.kind = true) :
    Keeps s (s.beginHardStop n (some a)) := putPower_deny_keeps s fun _ => ⟨by simp, by simp, ha⟩

theorem preempt_keeps {n : NodeId} {a : Action} (ha : a.kind = .hardOff) : Keeps s (s.preempt n a) := by
  unfold State.preempt
  dsimp only
  split
  · split
    · exact putPower_deny_keeps s fun _ => ⟨by simp, by simp, by simp [ha, carries]⟩
    · exact beginHardStop_keeps s (by simp [ha, carries])
  · exact enterOff_keeps s n _ _

theorem availability_taken {k : ActionKind} {st : PowerState} (h : availability k st = .taken) :
    st = if k = .powerOn then .off else .on := by
  cases k <;> cases st <;> simp_all [availability]

theorem availability_preempts {k : ActionKind} {st : PowerState} (h : availability k st = .preempts) : k = .hardOff := by
  cases k <;> cases st <;> simp_all [availability]

theorem beginAction_keeps {n : NodeId} {a : Action} (h : availability a.kind (s.pw n).state = .taken) :
    Keeps s (s.beginAction n a) := by
  have st := availability_taken h
  unfold State.beginAction
  split
  · next k =>
    rw [k] at st
    simp only [if_true] at st
    exact beginStarting_keeps s (fun x hx => by rw [← Option.some_inj.mp hx, k]; rfl) rfl (by simp [st]) (by simp [st])
  · next k =>
    rw [k] at st
    refine putPower_keeps s (fun _ => ⟨by simp, by simp, by simp [k, carries]⟩) ?_
    rintro ⟨-, reattach, attached, active, porn⟩
    exact ⟨fun _ => .inr rfl, fun h => ⟨(reattach h).1, .inr rfl⟩, attached, active, porn⟩
  · next k => exact beginHardStop_keeps s (by simp [k, carries])
  · next k => exact (rebootMark_keeps s n).trans (putPower_deny_keeps _ fun _ => ⟨by simp, by simp, by simp [k, carries]⟩)
  · next k => exact (rebootMark_keeps s n).trans (beginHardStop_keeps _ (by simp [k, carries]))

theorem tellTaken_keeps (n : NodeId) (a : Action) : Keeps s (s.tellTaken n a) := by
  unfold State.tellTaken
  split
  · exact .refl s
  · exact stopWatch_keeps s n

theorem power_tellTaken (n : NodeId) (a : Action) : (s.tellTaken n a).power = s.power := by
  unfold State.tellTaken
  split <;> rfl

theorem offerAction_keeps (n : NodeId) (a : Action) : Keeps s (s.offerAction n a).1 := by
  unfold State.offerAction
  split
  · next h =>
    split
    · exact .refl s
    · refine (tellTaken_keeps s n a).trans (beginAction_keeps _ ?_)
      rw [State.pw, power_tellTaken]
      exact h
  · next h => exact (tellTaken_keeps s n a).trans (preempt_keeps _ (availability_preempts h))
  · exact .refl s

/-! ## Phases and the filter (R85, R87, R89 to R94) -/

theorem pressEnds_keeps (n : NodeId) : Keeps s (s.pressEnds n) :=
  putPower_keeps s (fun ⟨reset, _, action⟩ => ⟨reset, by simp, action⟩) id

theorem tickEnds_keeps {n : NodeId} (h : (s.pw n).state = .hardStopping) : Keeps s (s.tickEnds n) :=
  putPower_keeps s (fun ⟨reset, _, action⟩ => ⟨reset, fun _ => .inr (.inr h), action⟩) id

theorem beginDwell_keeps {n : NodeId} (h : (s.pw n).state = .hardStopping) (hc : (s.pw n).cycling = true) :
    Keeps s (s.beginDwell n) := by
  refine putPower_keeps s ?_ ?_
  · rintro ⟨reset, -, action⟩
    refine ⟨fun hr => by rw [h] at reset; exact absurd (reset hr) (by simp), by simp, ?_⟩
    unfold Power.cycling at hc
    split at hc
    · next a ha => simp only [ha]; simp at hc; simp [hc, carries]
    · cases hc
  · rintro ⟨granted, reattach, attached, active, porn⟩
    rw [h] at granted reattach
    exact ⟨fun hg => absurd (granted hg) (by simp), fun hr => absurd (reattach hr).2 (by simp), attached, active, porn⟩

theorem filteredRise_keeps (n : NodeId) : Keeps s (s.filteredRise n) := by
  unfold State.filteredRise
  split
  · exact enterOn_keeps s n _ _ _
  · exact enterOn_keeps s n _ _ _
  · exact enterOn_keeps s n _ _ _
  all_goals exact .refl s

theorem filteredFall_keeps (n : NodeId) : Keeps s (s.filteredFall n) := by
  unfold State.filteredFall
  split
  · exact enterOff_keeps s n _ _
  · exact enterOff_keeps s n _ _
  · next h =>
    split
    · next hc => exact beginDwell_keeps s h hc
    · exact enterOff_keeps s n _ _
  · exact enterOff_keeps s n _ _
  all_goals exact .refl s

theorem acquired_keeps (n : NodeId) (l : Filtered) : Keeps s (s.acquired n l) := by
  unfold State.acquired
  split
  · split
    · exact enterOn_keeps s n _ _ _
    · exact enterOff_keeps s n _ _
  · exact .refl s

theorem filterDelivers_keeps (n : NodeId) : Keeps s (s.filterDelivers n) := by
  have level : Keeps s (s.putPower n { s.pw n with filtered := (s.pw n).read, wait := none }) := putPower_keeps s id id
  unfold State.filterDelivers
  dsimp only
  split
  · exact level.trans (acquired_keeps _ n _)
  · split
    · exact level.trans (filteredRise_keeps _ n)
    · exact level.trans (filteredFall_keeps _ n)

theorem filterExpires_keeps (n : NodeId) : Keeps s (s.filterExpires n) := by
  unfold State.filterExpires
  split
  · exact (reachMs_keeps s _).trans (filterDelivers_keeps _ n)
  · exact .refl s

/-- The filter's wait is all that a change of the read level moves (R85). -/
theorem Power.rewait_eq (p : Power) (ms : Nat) (c : Bool) : ∃ w, p.rewait ms c = { p with wait := w } := by
  unfold Power.rewait
  split
  · exact ⟨p.wait, rfl⟩
  · split
    · exact ⟨_, rfl⟩
    · split <;> exact ⟨_, rfl⟩

theorem pgoodLevel_keeps (n : NodeId) (high : Bool) : Keeps s (s.pgoodLevel n high) := by
  unfold State.pgoodLevel
  dsimp only
  obtain ⟨w, h⟩ := Power.rewait_eq { s.pw n with raw := high } s.ms ((s.pw n).raw != high)
  rw [h]
  exact putPower_keeps s id id

theorem Power.setSettings_eq (p : Power) (t : PowerSettings) (ms : Nat) (l : Bool) :
    ∃ w, p.setSettings t ms l = { p with settings := t, wait := w } := by
  unfold Power.setSettings
  dsimp only
  split <;> exact Power.rewait_eq { p with settings := t } ms _

theorem setSettings_keeps (n : NodeId) (t : PowerSettings) (ms : Nat) (l : Bool) :
    Keeps s (s.putPower n ((s.pw n).setSettings t ms l)) := by
  obtain ⟨w, h⟩ := Power.setSettings_eq (s.pw n) t ms l
  rw [h]
  exact putPower_keeps s id id

theorem phaseEnds_keeps {n : NodeId} {p : Power → Bool} {f : State → State}
    (h : ∀ d, p ((s.reachMs d).pw n) = true → Keeps (s.reachMs d) (f (s.reachMs d))) : Keeps s (s.phaseEnds n p f) := by
  unfold State.phaseEnds
  split
  · next d hd =>
    split
    · next hp => exact (reachMs_keeps s d).trans (h d hp)
    · exact .refl s
  · exact .refl s

theorem tickExpires_keeps (n : NodeId) : Keeps s (s.tickExpires n) := by
  unfold State.tickExpires
  split
  · split
    · next h => exact (reachMs_keeps s _).trans (tickEnds_keeps _ h)
    · exact .refl s
  · exact .refl s

/-- A dwell that ends presses PWRBTN for the CYCLE in flight (R93). -/
theorem dwellEnds_keeps {n : NodeId} (h : (s.pw n).state = .dwelling) : Keeps s (s.beginStarting n (s.pw n).action) := by
  refine putPower_keeps s ?_ ?_
  · rintro ⟨-, -, action⟩
    refine ⟨by simp, by simp, ?_⟩
    rw [h] at action
    cases ha : (s.pw n).action with
    | none => rw [ha] at action; simp [PowerState.acting] at action
    | some a =>
      rw [ha] at action
      cases hk : a.kind <;> simp_all [carries]
  · rintro ⟨granted, reattach, attached, active, porn⟩
    rw [h] at granted reattach
    exact ⟨fun hg => absurd (granted hg) (by simp), fun hr => absurd (reattach hr).2 (by simp), attached, active, porn⟩

/-! ## Failures of the watch (R113, R114) -/

theorem holdWatch_keeps {n : NodeId} {c : Nat} (hc : (s.wt n).fits → c ≤ (s.wt n).limit) (cause : FailCause) :
    Keeps s (s.holdWatch n c cause) :=
  ((putWatch_keeps s fun h => ⟨hc h, by simp [Watch.hold], fun _ => rfl⟩).trans
    (raise_node_keeps _ (by simp [Event.rank]))).trans (raise_node_keeps _ (by simp [Event.rank]))

theorem fail_keeps (n : NodeId) (cause : FailCause) : Keeps s (s.fail n cause) := by
  unfold State.fail
  dsimp only
  split
  · exact (putWatch_keeps s fun _ => ⟨Nat.zero_le _, by simp, by simp⟩).trans (raise_node_keeps _ (by simp [Event.rank]))
  · split
    · exact holdWatch_keeps s (fun h => h.1) cause
    · next below =>
      split
      · exact holdWatch_keeps s (fun _ => by omega) cause
      · have counted : Keeps s (s.putWatch n { s.wt n with state := .idle, timer := none, count := (s.wt n).count + 1 }) :=
          putWatch_keeps s fun _ => ⟨by show (s.wt n).count + 1 ≤ (s.wt n).limit; omega, by simp, by simp⟩
        exact (counted.trans (offerAction_keeps _ n _)).trans (raise_node_keeps _ (by simp [Event.rank]))

theorem watchExpires_keeps (n : NodeId) : Keeps s (s.watchExpires n) := by
  unfold State.watchExpires
  split
  · split
    · exact (reachMs_keeps s _).trans (fail_keeps _ n _)
    · exact .refl s
  · exact .refl s

theorem faultReport_keeps (n : NodeId) (p : PatternIx) (off : Offset) : Keeps s (s.faultReport n p off) := by
  unfold State.faultReport
  split
  · exact fail_keeps s n _
  · exact raise_node_keeps s (by simp [Event.rank])

theorem patternAction_keeps (n : NodeId) (off : Offset) (x : PatternAction) (i : PatternIx) :
    Keeps s (s.patternAction n off x i) := by
  cases x with
  | notify => exact raise_node_keeps s (by simp [Event.rank])
  | bootSeen => exact bootSeen_keeps s n i off
  | faultSeen =>
    simp only [State.patternAction]
    split
    · exact faultReport_keeps s n i off
    · exact raise_node_keeps s (by simp [Event.rank])
  | ejectMedia => exact patternEject_keeps s n i

theorem patternActions_keeps (n : NodeId) (off : Offset) (l : List PatternIx) : Keeps s (s.patternActions n off l) :=
  foldl_keep s fun a i _ => by
    split
    · exact patternAction_keeps a n off _ i
    · exact .refl a

/-! ## The receiver (R28 to R37) -/

/-- A line changed in what the error counter and the hunt count (R33 to R37). -/
theorem Line.inBounds.judged {l : Line} {c e g p d : Nat} {u noisy suspended : Bool} (h : l.inBounds)
    (hc : c < l.settings.rates.length) (he : e ≤ l.settings.threshold) (hg : g < 32) (hp : p < 4) (hd : d ≤ 2)
    (hu : u = false → g = 0 ∧ p = 0) :
    ({ l with
      candidate := c, hunting := u, errors := e, goodRun := g, laps := p, discard := d, noisy := noisy,
      suspended := suspended } : Line).inBounds := by
  obtain ⟨-, -, -, -, -, -, r, q, i⟩ := h
  exact ⟨he, hc, hg, hp, hd, hu, r, q, i⟩

theorem rates_pos (t : LineSettings) : 0 < t.rates.length := by simp [LineSettings.rates]

theorem noisyOverflow_keeps (n : NodeId) : Keeps s (s.noisyOverflow n) :=
  (putLine_keeps s fun h => by
    obtain ⟨-, c, g, p, d, u, -, -, -⟩ := id h
    exact h.judged c (Nat.zero_le _) g p d u).trans (raise_node_keeps _ (by simp [Event.rank]))

theorem endHunt_keeps (n : NodeId) : Keeps s (s.endHunt n) :=
  ((putLine_keeps s fun h => h.judged (rates_pos _) (Nat.zero_le _) (by decide) (by decide) (by decide)
    (fun _ => ⟨rfl, rfl⟩)).trans (offerMark_keeps _ n _)).trans (raise_node_keeps _ (by simp [Event.rank]))

theorem nextCandidate_lt (l : Line) : l.nextCandidate.1 < l.settings.rates.length := by
  unfold Line.nextCandidate
  split
  · assumption
  · exact rates_pos _

theorem switchRate_keeps (n : NodeId) : Keeps s (s.switchRate n) := by
  unfold State.switchRate
  dsimp only
  generalize (if (s.lines.get n).nextCandidate.2 = true then (s.lines.get n).laps + 1 else (s.lines.get n).laps) = laps
  split
  · exact endHunt_keeps s n
  · next few =>
    have switched := (putLine_keeps s (n := n) fun h => h.judged (noisy := (s.lines.get n).noisy)
      (suspended := (s.lines.get n).suspended) (u := true) (p := laps) (nextCandidate_lt (s.lines.get n)) (Nat.zero_le _)
      (Nat.zero_lt_succ 31) (by omega) (le_refl 2) (by simp)).trans
        (offerMark_keeps _ n (.rate (s.lines.get n).nextCandidate.1))
    split
    · exact switched
    · exact switched.trans (raise_node_keeps _ (e := .lineHunting _) (by simp [Event.rank]))

theorem cleanRun_keeps (n : NodeId) : Keeps s (s.cleanRun n) := by
  unfold State.cleanRun
  dsimp only
  split
  · exact .refl s
  · next hunting =>
    split
    · next more =>
      refine putLine_keeps s fun h => ?_
      obtain ⟨e, c, -, p, d, -, -, -, -⟩ := id h
      exact h.judged c e more p d fun hu => by simp [hu] at hunting
    · refine (putLine_keeps s fun h => ?_).trans (raise_node_keeps _ (by simp [Event.rank]))
      obtain ⟨-, c, -, -, d, -, -, -, -⟩ := id h
      exact h.judged c (Nat.zero_le _) (by decide) (by decide) d fun _ => ⟨rfl, rfl⟩

theorem judge_keeps (n : NodeId) (f : Bool) : Keeps s (s.judge n f) := by
  unfold State.judge
  dsimp only
  split
  · split
    · next room =>
      refine putLine_keeps s fun h => ?_
      obtain ⟨-, c, -, p, d, u, -, -, -⟩ := id h
      exact h.judged c room (by decide) p d fun hu => ⟨rfl, (u hu).2⟩
    · split
      · exact noisyOverflow_keeps s n
      · exact switchRate_keeps s n
  · refine (putLine_keeps s fun h => ?_).trans (cleanRun_keeps _ n)
    obtain ⟨e, c, g, p, d, u, -, -, -⟩ := id h
    exact h.judged c (by omega) g p d u

theorem handChar_keeps (n : NodeId) (k : EntryKind) : Keeps s (s.handChar n k) := by
  unfold State.handChar
  dsimp only
  split
  · refine putLine_keeps s fun h => ?_
    obtain ⟨e, c, g, p, d, u, -, -, -⟩ := id h
    exact h.judged c e g p (by omega) u
  · exact ((offerMatched_keeps s n k).trans (patternActions_keeps _ n _ _)).trans (judge_keeps _ n _)

/-- A line whose receiver and level of RXD alone change. -/
theorem putReceiver_keeps {n : NodeId} {r : Receiver} {high : Bool}
    (h : (s.lines.get n).rxdFits = true → ({ s.lines.get n with receiver := r, rxd := high } : Line).rxdFits = true) :
    Keeps s (s.putLine n { s.lines.get n with receiver := r, rxd := high }) :=
  putLine_keeps s fun ⟨e, c, g, p, d, u, x, q, i⟩ => ⟨e, c, g, p, d, u, h x, q, i⟩

theorem toQuiet_keeps (n : NodeId) (high : Bool) (now : Nat) :
    Keeps s (s.putLine n (({ s.lines.get n with rxd := high } : Line).toQuiet now)) :=
  putReceiver_keeps s fun _ => by cases high <;> simp [Line.rxdFits]

theorem startBit_keeps (n : NodeId) : Keeps s (s.startBit n) := by
  unfold State.startBit
  dsimp only
  split
  · exact putReceiver_keeps s fun _ => rfl
  all_goals exact .refl s

theorem falseStart_keeps (n : NodeId) : Keeps s (s.falseStart n) := by
  unfold State.falseStart
  dsimp only
  split
  · exact putReceiver_keeps s fun _ => rfl
  all_goals exact .refl s

theorem stopSample_keeps (n : NodeId) (data : Byte) (parity stop : Bool) : Keeps s (s.stopSample n data parity stop) := by
  unfold State.stopSample
  dsimp only
  split
  · split
    · next candidate =>
      refine putReceiver_keeps s fun _ => ?_
      rw [Line.breakCandidate, Bool.and_eq_true] at candidate
      exact candidate.2
    · exact (putReceiver_keeps s fun _ => rfl).trans (handChar_keeps _ n _)
  all_goals exact .refl s

theorem lowRise_keeps (n : NodeId) : Keeps s (s.lowRise n) := by
  unfold State.lowRise
  dsimp only
  split
  · exact (putReceiver_keeps s fun _ => rfl).trans (handChar_keeps _ n _)
  all_goals exact .refl s

theorem breakBegins_keeps (n : NodeId) : Keeps s (s.breakBegins n) := by
  unfold State.breakBegins
  dsimp only
  split
  · next d hl =>
    have broke : Keeps (s.reachUs d) ((s.reachUs d).putLine n { s.lines.get n with receiver := .brk }) :=
      putReceiver_keeps (s.reachUs d) (high := (s.lines.get n).rxd) fun h => by
        have h : (s.lines.get n).rxdFits = true := h
        simp only [Line.rxdFits, hl] at h
        exact h
    exact ((reachUs_keeps s d).trans broke).trans (offerMatched_keeps _ n _)
  all_goals exact .refl s

theorem breakEnds_keeps (n : NodeId) : Keeps s (s.breakEnds n) := by
  unfold State.breakEnds
  dsimp only
  split
  · exact toQuiet_keeps s n true _
  all_goals exact .refl s

theorem quietEnds_keeps (n : NodeId) : Keeps s (s.quietEnds n) := by
  unfold State.quietEnds
  dsimp only
  split
  · next d _ =>
    exact (reachUs_keeps s d).trans
      (putReceiver_keeps (s.reachUs d) (r := .ready) (high := (s.lines.get n).rxd) fun _ => rfl)
  all_goals exact .refl s

theorem quietEdge_keeps (n : NodeId) (high : Bool) : Keeps s (s.quietEdge n high) := by
  unfold State.quietEdge
  dsimp only
  split
  · split
    · exact .refl s
    · exact toQuiet_keeps s n high _
  · next h => exact putReceiver_keeps s (r := (s.lines.get n).receiver) fun _ => by simp [Line.rxdFits, h]
  · next h => exact putReceiver_keeps s (r := (s.lines.get n).receiver) fun _ => by simp [Line.rxdFits, h]
  · exact .refl s
  · exact .refl s

/-! ## The transmitter (R40, R41) -/

theorem charSent_keeps (n : NodeId) : Keeps s (s.charSent n) := by
  unfold State.charSent
  dsimp only
  split
  · exact putLine_keeps s fun h => h.next _
  all_goals exact .refl s

theorem breakRises_keeps (n : NodeId) : Keeps s (s.breakRises n) := by
  unfold State.breakRises
  dsimp only
  split
  · exact (reachUs_keeps s _).trans (putLine_keeps (s.reachUs _) fun h => h.transmit h.queue.1 nofun)
  all_goals exact .refl s

theorem breakSent_keeps (n : NodeId) : Keeps s (s.breakSent n) := by
  unfold State.breakSent
  dsimp only
  split
  · exact (reachUs_keeps s _).trans (putLine_keeps (s.reachUs _) fun h => h.next _)
  all_goals exact .refl s

/-! ## The stream's timers (R50, R57, R63) -/

theorem flushExpires_keeps (n : NodeId) : Keeps s (s.flushExpires n) := by
  unfold State.flushExpires
  dsimp only
  split
  · next d _ =>
    refine ((reachUs_keeps s d).trans ?_).trans (testBatch_keeps _ n)
    exact putStream_keeps_of_history (s.reachUs d) id id rfl rfl
  · exact .refl s

theorem leaseExpires_keeps (n : NodeId) (i : StationIx) : Keeps s (s.leaseExpires n i) := by
  unfold State.leaseExpires
  split
  · exact ((reachMs_keeps s _).trans (detach_keeps _ n i)).trans (raise_node_keeps _ (by simp [Event.rank]))
  · exact .refl s

theorem windowExpires_keeps (n : NodeId) (i : StationIx) : Keeps s (s.windowExpires n i) := by
  unfold State.windowExpires
  dsimp only
  split
  · exact ((reachMs_keeps s _).trans (setEscape_keeps _ n i _)).trans (releaseByte_keeps _ n _)
  · exact .refl s

/-! ## Console input (R62 to R64) -/

theorem escapeAction_keeps (i : StationIx) (n : NodeId) (k : ActionKind) : Keeps s (s.escapeAction i n k).state := by
  unfold State.escapeAction
  split
  · exact .refl s
  · exact offerAction_keeps s n _

theorem lines_setEscape (i : StationIx) (n : NodeId) (e : Option Nat) : (s.setEscape i n e).lines = s.lines := by
  unfold State.setEscape
  split <;> rfl

theorem typeCommand_keeps {i : StationIx} {n : NodeId} {b : Byte} {r : Typed} (h : s.typeCommand i n b = some r) :
    Keeps s r.state := by
  have idle := setEscape_keeps s n i none
  have sent : ∀ xs : List TxItem, s.txRoom n xs.length = true → Keeps s ((s.setEscape i n none).sendItems n xs) := by
    intro xs room
    refine idle.trans (sendItems_keeps _ ?_)
    rw [lines_setEscape]
    exact (txRoom_iff s).mp room
  unfold State.typeCommand at h
  dsimp only at h
  split at h
  · split at h
    · next room => cases h; exact sent [.byte b] room
    · cases h
  · split at h
    · split at h
      · next room => cases h; exact sent [.brk] room
      · cases h
    · split at h
      · cases h; exact idle.trans (escapeAction_keeps _ i n _)
      · split at h
        · cases h; exact idle.trans (escapeAction_keeps _ i n _)
        · split at h
          · cases h; exact idle.trans (detach_keeps _ n i)
          · split at h
            · next room => cases h; exact sent [.byte _, .byte b] room
            · cases h

theorem typeByte_keeps {i : StationIx} {n : NodeId} {b : Byte} {r : Typed} (h : s.typeByte i n b = some r) : Keeps s r.state := by
  unfold State.typeByte at h
  dsimp only at h
  split at h
  · cases h
  · split at h
    · exact typeCommand_keeps s h
    · split at h
      · cases h; exact setEscape_keeps s n i _
      · split at h
        · next room => cases h; exact sendItems_keeps s ((txRoom_iff s).mp room)
        · cases h

theorem typeBytes_keeps (i : StationIx) (n : NodeId) (k : Nat) (e : EscapeResult) (b : List Byte) :
    Keeps s (s.typeBytes i n k e b).state := by
  induction b generalizing s k e with
  | nil => exact .refl s
  | cons x b ih =>
    unfold State.typeBytes
    split
    · exact .refl s
    · next r hr =>
      split
      · exact typeByte_keeps s hr
      · exact (typeByte_keeps s hr).trans (ih _ _ _)

end Sys2Proof.Machine
end

section
/-! PROOFS. The laws under the end of a step and under the requests that the owning blocks decide (chapters 1, 3, 5 to 7, 10). -/
namespace Sys2Proof.Machine

-- Side by side, the proofs of this text would need more thread stacks than the check's memory limit holds.
set_option Elab.async false

variable (s : State)

/-! ## The end of a step (R186 to R190) -/

theorem sendNotice_keeps (h : s.noticeReady = true) : Keeps s s.sendNotice := by
  unfold State.noticeReady at h
  unfold State.sendNotice
  split
  · next id hw =>
    rw [hw] at h
    have room : (s.noticeFrames id).length ≤ s.up.outside := by simpa using h
    refine (enqueueAll_keeps s (fun f hf => ?_) room).trans (putSet_keeps _ fun _ => ⟨by simp, by simp⟩)
    obtain ⟨i, -, hi⟩ := List.mem_filterMap.mp hf
    by_cases e : ((s.pendingSet id).members.filter (s.entitled id i)).isEmpty = true
    · simp [e] at hi
    · simp only [e] at hi
      cases hi; simp
  · exact .refl s

/-- A producer's condition holds (R186). -/
def State.ready (s : State) : Producer → Bool
  | .batch n => s.batchReady n
  | .replay n => s.replayReady n
  | .imageOpen r => s.openReady r
  | .needs => s.needsReady
  | .refetch f => s.refetchReady f
  | .rewrite n => s.rewriteReady n
  | .notice => s.noticeReady

theorem mem_ite_singleton {α : Type} {a x : α} {c : Bool} : x ∈ (if c then [a] else []) ↔ c = true ∧ x = a := by
  cases c <;> simp

theorem mem_readyProducers {needs : Bool} {p : Producer} :
    p ∈ s.readyProducers needs ↔ s.ready p = true ∧ (p = .needs → needs = true) := by
  unfold State.readyProducers
  simp only [List.mem_append, List.mem_map, List.mem_filter, mem_ite_singleton, mem_allNodes, mem_indices, true_and, Bool.and_eq_true]
  cases p <;> simp [State.ready, and_comm]

theorem serve_keeps {needs : Bool} {p : Producer} (h : p ∈ s.readyProducers needs) (b : Bool) : Keeps s (s.serve b p).1 := by
  obtain ⟨ready, -⟩ := (mem_readyProducers s).mp h
  cases p with
  | batch n => exact formBatch_keeps s ready
  | replay n => exact replayFrame_keeps s ready
  | imageOpen r => exact sendOpen_keeps s (outside_of_openReady s ready)
  | needs => exact tryOne_keeps s
  | refetch f => exact refetch_keeps s (outside_of_refetchReady s ready)
  | rewrite n => exact sendWrite_keeps s (outside_of_rewriteReady s ready)
  | notice => exact sendNotice_keeps s ready

theorem choose_keeps (p : Producer) (ps : List Producer) : Keeps s (s.choose p ps).1 := by
  unfold State.choose
  split
  · exact .refl s
  · exact {}

/-- A free choice leaves the producers that are ready. -/
theorem readyProducers_choose (p : Producer) (ps : List Producer) (b : Bool) :
    (s.choose p ps).1.readyProducers b = s.readyProducers b := by
  unfold State.choose
  split <;> rfl

theorem settle_keeps (k : Nat) (b : Bool) : Keeps s (State.settle k b s) := by
  induction k generalizing s b with
  | zero => exact .refl s
  | succ k ih =>
    unfold State.settle
    split
    · exact .refl s
    · next p ps hr =>
      have ready : (s.choose p ps).2 ∈ (s.choose p ps).1.readyProducers b := by
        rw [readyProducers_choose, hr]; exact choose_mem s p ps
      exact ((choose_keeps s p ps).trans (serve_keeps _ ready b)).trans (ih _ _)

theorem descriptorFreed_keeps : Keeps s s.descriptorFreed := settle_keeps s _ true

/-- An uplink that holds the frames of another, in whatever order, and as many promises. -/
theorem putUp_keeps_of_frames {u : Uplink} (hf : u.frames.Perm s.up.frames) (hp : u.promised = s.up.promised)
    (hm : u.macEnabled = s.up.macEnabled) : Keeps s (s.putUp u) where
  rest := { promised := hp, mac := hm }
  laws := {
    descriptor := fun ⟨room, reserve⟩ => by
      have others : u.others = s.up.others := (hf.filter _).length_eq
      exact ⟨by simpa [hf.length_eq, hp] using room, by simpa [others] using reserve⟩
    attach := fun hs => attachLaw_iff.mpr ⟨(attachLaw_iff.mp hs).1, fun h => hm.trans ((attachLaw_iff.mp hs).2 h)⟩ }

theorem takeNext_keeps : Keeps s (s.putUp s.up.takeNext) := by
  rcases takeNext_eq s.up with h | ⟨f, hn, hf, h⟩
  · rw [h]; exact .refl s
  · exact putUp_keeps_of_frames s (takeNext_frames s.up) (by rw [h]) (by rw [h])

theorem finish_keeps : Keeps s s.finish := (settle_keeps s _ false).trans (takeNext_keeps _)

/-- The frame in the port leaves it, and its descriptor is free. -/
theorem freePort_keeps {d : Nat} {l : Option WireFrame} :
    Keeps s (s.putUp { s.up with port := none, linkDiscards := d, lastSent := l }) where
  laws := {
    descriptor := fun ⟨room, reserve⟩ => by
      have fewer : s.up.queue.Sublist s.up.frames := List.sublist_append_right _ _
      refine ⟨?_, ?_⟩
      · have := fewer.length_le
        have : (s.putUp { s.up with port := none, linkDiscards := d, lastSent := l }).up.frames.length = s.up.queue.length := rfl
        have : (s.putUp { s.up with port := none, linkDiscards := d, lastSent := l }).up.promised = s.up.promised := rfl
        omega
      · exact ((fewer.filter _).length_le).trans reserve }

theorem transmit_keeps : Keeps s s.transmit := by
  unfold State.transmit
  split
  · split
    · exact (freePort_keeps s).trans (descriptorFreed_keeps _)
    · exact .refl s
  · exact .refl s

theorem discardHead_keeps : Keeps s s.discardHead := by
  unfold State.discardHead
  split
  · split
    · exact .refl s
    · exact (freePort_keeps s).trans (descriptorFreed_keeps _)
  · exact .refl s

theorem setLink_keeps (up : Bool) : Keeps s (s.setLink up) := {}

theorem gapExpires_keeps (id : SetId) : Keeps s (s.gapExpires id) := by
  unfold State.gapExpires
  split
  · exact (reachMs_keeps s _).trans (putSet_keeps _ fun h => h)
  · exact .refl s

/-! ## Requests of attachments, input and replay (R55 to R65) -/

theorem refuse_keeps (r : Result) : Keeps s (s.refuse r).state := .refl s

theorem refuseRenewed_keeps (i : StationIx) (n : NodeId) (r : Result) : Keeps s (s.refuseRenewed i n r).state :=
  renewLease_keeps s n i

/-- Attachments replaced by entitled ones. -/
theorem putAtts_keeps {n : NodeId} {as : List Attachment} (h : AttachLaw s → AttsFit s n as) :
    Keeps s (s.putStream n { s.streams.get n with atts := as }) where
  laws := {
    line := fun hs => lineLaw_iff.mpr fun m => ⟨(lineLaw_iff.mp hs m).1,
      Tab.forall_put (P := fun _ x => (Stream.ring x).length ≤ 1024) (x := { s.streams.get n with atts := as })
        (fun j => (lineLaw_iff.mp hs j).2) (fun h => h) m⟩
    attach := fun hs => attachLaw_iff.mpr ⟨fun m =>
      Tab.forall_put (P := fun m x => AttsFit s m (Stream.atts x)) (x := { s.streams.get n with atts := as })
        (attachLaw_iff.mp hs).1 (fun _ => h hs) m, (attachLaw_iff.mp hs).2⟩
    cell := cellLaw_putStream s (List.Subperm.refl _) rfl }

/-- A new attachment of a station that holds what its mode needs. -/
theorem AttsFit.append {n : NodeId} {as : List Attachment} {a : Attachment} (h : AttsFit s n as) (room : as.length < 4)
    (new : ∀ b ∈ as, b.station ≠ a.station) (watch : s.holds a.station n .watch = true)
    (typing : a.mode = .typing → s.holds a.station n .typing = true) (hl : s.loading = false) : AttsFit s n (as ++ [a]) := by
  obtain ⟨-, nodup, entitled, -⟩ := h
  refine ⟨by simpa using room, ?_, fun b hb => ?_, fun h => absurd h (by simp [hl])⟩
  · rw [List.map_append, List.nodup_append]
    refine ⟨nodup, by simp, fun x hx y hy => ?_⟩
    obtain ⟨b, hb, rfl⟩ := List.mem_map.mp hx
    rw [List.map_singleton, List.mem_singleton] at hy
    exact hy ▸ new b hb
  · rcases List.mem_append.mp hb with hb | hb
    · exact entitled b hb
    · rw [List.mem_singleton] at hb; subst hb; exact ⟨watch, typing⟩

theorem takeAttach_keeps {i : StationIx} {n : NodeId} {b : List Byte} (hm : s.up.macEnabled = true)
    (hp : s.permitted i .attach (some n) b = true) : Keeps s (s.takeAttach i n b).state := by
  have hp : s.holds i n .watch = true ∧ (modeOf b = some .typing → s.holds i n .typing = true) := by
    simp only [State.permitted, Bool.and_eq_true, Bool.or_eq_true, decide_eq_true_eq, ne_eq] at hp
    exact ⟨hp.1, fun h => hp.2.resolve_left (absurd h)⟩
  unfold State.takeAttach
  split
  · exact refuseRenewed_keeps s i n _
  · next m hmode =>
    have typing : m = .typing → s.holds i n .typing = true := fun h => hp.2 (h ▸ hmode)
    dsimp only
    split
    · next a ha =>
      have hs : a.station = i := (mem_of_att ha).2
      exact putAtt_keeps s ha rfl fun h => .inr (hs ▸ typing h)
    · next none_ =>
      split
      · exact .refl s
      · next room =>
        refine (putAtts_keeps s fun hs => ?_).trans (offerMark_keeps _ n _)
        obtain ⟨each, mac⟩ := attachLaw_iff.mp hs
        refine (each n).append s (by omega) (fun c hc => ?_) hp.1 typing ?_
        · simpa using List.find?_eq_none.mp none_ c hc
        · by_contra hl
          simp [mac (by simpa using hl)] at hm

theorem takeDetach_keeps (i : StationIx) (n : NodeId) (b : List Byte) : Keeps s (s.takeDetach i n b).state := by
  unfold State.takeDetach
  split
  · exact .refl s
  · split
    · exact detach_keeps s n i
    · exact .refl s

theorem takeRenew_keeps (i : StationIx) (n : NodeId) (b : List Byte) : Keeps s (s.takeRenew i n b).state := by
  unfold State.takeRenew
  split
  · exact refuseRenewed_keeps s i n _
  · split
    · exact renewLease_keeps s n i
    · exact .refl s

theorem startReplay_keeps (i : StationIx) (n : NodeId) (o : Offset) : Keeps s (s.startReplay i n o).state := by
  unfold State.startReplay
  dsimp only
  split
  · exact .refl s
  · split
    · exact .refl s
    · exact putStream_keeps_of_history s id id rfl rfl

theorem takeReplay_keeps (i : StationIx) (n : NodeId) (b : List Byte) : Keeps s (s.takeReplay i n b).state := by
  unfold State.takeReplay
  split
  · exact refuseRenewed_keeps s i n _
  · split
    · exact .refl s
    · exact (renewLease_keeps s n i).trans (startReplay_keeps _ i n _)

theorem takeInput_keeps (i : StationIx) (n : NodeId) (b : List Byte) : Keeps s (s.takeInput i n b).state := by
  unfold State.takeInput
  split
  · exact refuseRenewed_keeps s i n _
  · split
    · exact .refl s
    · split
      · exact refuseRenewed_keeps s i n _
      · exact (renewLease_keeps s n i).trans (typeBytes_keeps _ i n _ _ _)

/-! ## Requests of power, watch and media (R88, R112, R116, R134, R136) -/

theorem takePower_keeps (i : StationIx) (n : NodeId) (b : List Byte) : Keeps s (s.takePower i n b).state := by
  unfold State.takePower
  split
  · split
    · exact .refl s
    · dsimp only
      split
      · exact .refl s
      · exact offerAction_keeps s n _
  · exact .refl s

theorem takeClearHold_keeps (n : NodeId) (b : List Byte) : Keeps s (s.takeClearHold n b).state := by
  unfold State.takeClearHold
  split
  · exact .refl s
  · split
    · next held =>
      refine putWatch_keeps s fun ⟨_, timer, _⟩ => ⟨by simp, ?_, by simp⟩
      simpa [held] using timer
    · exact .refl s

theorem takeBootOk_keeps (i : StationIx) (n : NodeId) (b : List Byte) : Keeps s (s.takeBootOk i n b).state := by
  unfold State.takeBootOk
  split
  · exact .refl s
  · split
    · exact satisfy_keeps s n _
    · exact .refl s
    · exact .refl s

theorem takeInsert_keeps (n : NodeId) (b : List Byte) : Keeps s (s.takeInsert n b).state := by
  unfold State.takeInsert
  split
  · split
    · exact .refl s
    · exact insert_keeps s n _ _ _ _
  · exact .refl s

theorem takeEject_keeps (i : StationIx) (n : NodeId) (b : List Byte) : Keeps s (s.takeEject i n b).state := by
  unfold State.takeEject
  split
  · exact stationEject_keeps s n i _
  · exact .refl s

theorem readSection_state (c : Sec) (node : Byte) (b : List Byte) : (s.readSection c node b).state = s := by
  unfold State.readSection
  split
  · split <;> rfl
  · split
    · rfl
    · split
      · split <;> rfl
      · split <;> rfl

theorem readStatus_state (i : StationIx) (t : SetId) (b : List Byte) : (s.readStatus i t b).state = s := by
  unfold State.readStatus
  split
  · rfl
  · split <;> rfl

end Sys2Proof.Machine
end

section
/-! PROOFS. The laws under table writes, the Settings Loader and the restart (chapters 1 to 7, 10, 11). -/
namespace Sys2Proof.Machine

-- Side by side, the proofs of this text would need more thread stacks than the check's memory limit holds.
set_option Elab.async false

variable {s t u : State}

/-! ## Operations that change the part's own settings -/

/-- What every operation leaves and keeps: the straps, the queue of commands and all laws. -/
structure LawsKept (s t : State) : Prop where
  straps : t.straps = s.straps := by rfl
  pending : t.pending = s.pending := by rfl
  config : ConfigLaw s → ConfigLaw t := by exact id
  station : StationLaw s → StationLaw t := by exact id
  laws : LocalKept s t := by exact {}
  image : ImageLaw s → ImageLaw t := by exact id
  fetch : FetchLaw s → FetchLaw t := by exact id
  port : PortLaw s → PortLaw t := by exact id

/-- An operation that keeps the laws and leaves the MAC, the loader and a promise for the answer. -/
structure Decided (s t : State) : Prop extends LawsKept s t where
  owed : 0 < s.up.promised → 0 < t.up.promised := by exact id

theorem LawsKept.trans (h : LawsKept s t) (k : LawsKept t u) : LawsKept s u where
  straps := k.straps.trans h.straps
  pending := k.pending.trans h.pending
  config := k.config ∘ h.config
  station := k.station ∘ h.station
  laws := h.laws.trans k.laws
  image := k.image ∘ h.image
  fetch := k.fetch ∘ h.fetch
  port := k.port ∘ h.port

theorem Decided.trans (h : Decided s t) (k : Decided t u) : Decided s u := ⟨h.toLawsKept.trans k.toLawsKept, k.owed ∘ h.owed⟩

theorem Keeps.decided (h : Keeps s t) : Decided s t where
  straps := h.rest.straps
  pending := h.rest.pending
  config := fun hs => by rw [ConfigLaw, h.rest.config]; exact hs
  station := fun hs => by simpa [StationLaw, State.station, h.rest.su] using hs
  laws := h.laws
  image := h.image
  fetch := h.fetch
  port := h.port
  owed := fun hs => by rw [h.rest.promised]; exact hs

theorem Decided.refl (s : State) : Decided s s := {}

theorem Keeps.laws_kept (h : Keeps s t) : LawsKept s t := h.decided.toLawsKept

variable (s)

theorem refuse_decided (r : Result) : Decided s (s.refuse r).state := {}

/-! ## STATION (R11 to R14) -/

/-- Attachments of a node that are in order but for station `i`'s. -/
def AttsBut (s : State) (i : StationIx) (n : NodeId) (as : List Attachment) : Prop :=
  as.length ≤ 4 ∧ (as.map Attachment.station).Nodup ∧
    (∀ a ∈ as, a.station ≠ i → s.holds a.station n .watch = true ∧ (a.mode = .typing → s.holds a.station n .typing = true)) ∧
    (s.loading = true → as = [])

theorem AttsFit.but {s : State} {i : StationIx} {n : NodeId} {as : List Attachment} (h : AttsFit s n as) : AttsBut s i n as := by
  obtain ⟨four, nodup, entitled, empty⟩ := h
  exact ⟨four, nodup, fun a ha _ => entitled a ha, empty⟩

theorem att_eq_none {t : Stream} {i : StationIx} (h : t.att i = none) (a : Attachment) (ha : a ∈ t.atts) : a.station ≠ i := by
  simpa using List.find?_eq_none.mp h a ha

theorem mem_putAtt {t : Stream} {b c : Attachment} (h : c ∈ (t.putAtt b).atts) :
    c = b ∨ (c ∈ t.atts ∧ c.station ≠ b.station) := by
  obtain ⟨d, hd, rfl⟩ := List.mem_map.mp h
  split
  · exact .inl rfl
  · next ne => exact .inr ⟨hd, ne⟩

/-- The attachments of a node after the re-examination of station `i`'s (R13). -/
theorem reviewAttachment_eq (i : StationIx) (gone : Bool) (n : NodeId) :
    ∃ fs u, State.reviewAttachment i gone s n = (s.enqueueAll fs).putStream n u ∧
      (AttsBut s i n (s.streams.get n).atts → AttsFit s n u.atts) := by
  have self : s = (s.enqueueAll []).putStream n (s.streams.get n) := by simp [State.enqueueAll, State.putStream]
  unfold State.reviewAttachment
  split
  · next none_ =>
    refine ⟨[], _, self, fun ⟨four, nodup, entitled, empty⟩ => ⟨four, nodup, fun a ha => ?_, empty⟩⟩
    exact entitled a ha (att_eq_none none_ a ha)
  · next a ha =>
    obtain ⟨mem, station⟩ := mem_of_att ha
    split
    · obtain ⟨fs, u, h, atts, -⟩ := s.detach_eq n i
      refine ⟨fs, u, h, fun ⟨four, nodup, entitled, empty⟩ => ?_⟩
      rw [atts]
      refine ⟨(List.length_filter_le _ _).trans four, nodup.sublist (List.filter_sublist.map _), fun b hb => ?_, fun hl => by
        simp [empty hl]⟩
      obtain ⟨hb, ne⟩ := List.mem_filter.mp hb
      exact entitled b hb (by simpa using ne)
    · next keeps_ =>
      have watch : s.holds i n .watch = true := by
        simp only [Bool.or_eq_true, Bool.not_eq_true', not_or, Bool.not_eq_false] at keeps_
        exact keeps_.2
      split
      · refine ⟨[], _, by simp [State.enqueueAll, State.putStream]; rfl, fun ⟨four, nodup, entitled, empty⟩ => ?_⟩
        refine ⟨by simpa [Stream.putAtt] using four, by rwa [map_station_putAtt], fun c hc => ?_, fun hl => by
          simp [Stream.putAtt, empty hl]⟩
        rcases mem_putAtt hc with rfl | ⟨hc, ne⟩
        · exact ⟨station ▸ watch, nofun⟩
        · exact entitled c hc fun e => ne (e.trans station.symm)
      · next typing =>
        refine ⟨[], _, self, fun ⟨four, nodup, entitled, empty⟩ => ⟨four, nodup, fun c hc => ?_, empty⟩⟩
        by_cases e : c.station = i
        · have same : c = a := List.inj_on_of_nodup_map nodup hc mem (e.trans station.symm)
          subst same
          exact ⟨e ▸ watch, fun hm => by simpa [hm, e] using typing⟩
        · exact entitled c hc e

/-- The attachments of all nodes re-examined, one node after the other. -/
theorem reviewAttachments_fit (i : StationIx) (gone : Bool) (l : List NodeId) (but : ∀ n, AttsBut s i n (s.streams.get n).atts)
    (done : ∀ n, n ∉ l → AttsFit s n (s.streams.get n).atts) (n : NodeId) :
    AttsFit s n ((l.foldl (State.reviewAttachment i gone) s).streams.get n).atts := by
  induction l generalizing s with
  | nil => exact done n (by simp)
  | cons k l ih =>
    obtain ⟨fs, u, h, fit⟩ := reviewAttachment_eq s i gone k
    rw [List.foldl_cons, h]
    have at_ : ∀ m, (((s.enqueueAll fs).putStream k u).streams.get m).atts = if m = k then u.atts else (s.streams.get m).atts := by
      intro m
      by_cases e : m = k <;> simp [e]
    have fits : ∀ m, m ∉ l → AttsFit s m (((s.enqueueAll fs).putStream k u).streams.get m).atts := by
      intro m hm
      rw [at_]
      split
      · next e => subst e; exact fit (but m)
      · next e => exact done m (by simp [e, hm])
    refine ih ((s.enqueueAll fs).putStream k u) (fun m => ?_) fits
    change AttsBut s i m _
    rw [at_]
    split
    · next e => subst e; exact (fit (but m)).but
    · exact but m

theorem reviewAttachment_keeps (i : StationIx) (gone : Bool) (n : NodeId) : Keeps s (State.reviewAttachment i gone s n) := by
  unfold State.reviewAttachment
  split
  · exact .refl s
  · next a ha =>
    split
    · exact detach_keeps s n i
    · split
      · exact putAtt_keeps s ha rfl nofun
      · exact .refl s

theorem reviewMedium_keeps (i : StationIx) (gone : Bool) (n : NodeId) : Keeps s (State.reviewMedium i gone s n) := by
  unfold State.reviewMedium
  split
  · exact forceEjectLost_keeps s n
  · exact .refl s

/-- A change of the station table alone. -/
theorem station_putStation (i j : StationIx) (st : Station) :
    (s.putSu { s.su with stations := s.su.stations.put i st }).station j = if j = i then st else s.station j :=
  Tab.get_put _ _ _ _

theorem stationLaw_putStation {i : StationIx} {st : Station} (ht : s.addressTaken i st = false) (hl : s.lastOperator i st = false)
    (h : StationLaw s) : StationLaw (s.putSu { s.su with stations := s.su.stations.put i st }) := by
  obtain ⟨distinct, operator⟩ := h
  have fresh : ∀ j, j ≠ i → st.addr?.isSome → (s.station j).addr? ≠ st.addr? := by
    intro j hj hs e
    have := List.any_eq_false.mp ht j (mem_indices j)
    simp [hj, hs, e] at this
  refine ⟨fun j k hs e => ?_, fun hc => ?_⟩
  · rw [station_putStation] at e hs
    rw [station_putStation] at e
    by_cases hj : j = i <;> by_cases hk : k = i <;> simp only [hj, hk, if_true, if_false] at e hs
    · exact hj.trans hk.symm
    · exact absurd e.symm (fresh k hk hs)
    · exact absurd e (fresh j hj (e ▸ hs))
    · exact distinct j k hs e
  · by_contra none_
    have noneAt : ∀ j, ((s.putSu { s.su with stations := s.su.stations.put i st }).station j).isOperator = false := by
      simpa using none_
    have demoted : st.isOperator = false := by simpa [station_putStation] using noneAt i
    have only : ∀ j, (s.station j).isOperator = true → j = i := by
      intro j hj
      by_contra e
      have := noneAt j
      rw [station_putStation, if_neg e, hj] at this
      exact absurd this (by simp)
    obtain ⟨j, hj⟩ := operator hc
    have hi : (s.station i).isOperator = true := only j hj ▸ hj
    have one : s.operators = 1 := by
      have same : (indices 32).filter (fun j => (s.station j).isOperator) = (indices 32).filter (fun j => j == i) :=
        List.filter_congr fun j _ => by
          by_cases e : j = i
          · simp [e, hi]
          · rw [beq_eq_false_iff_ne.mpr e]
            exact Bool.eq_false_iff.mpr fun h => e (only j h)
      rw [State.operators, same, ← List.countP_eq_length_filter]
      exact List.count_eq_one_of_mem (List.nodup_finRange 32) (mem_indices i)
    have commissioned : s.su.commissioning = .commissioned := hc
    simp [State.lastOperator, commissioned, hi, demoted, one] at hl

/-- The attachments of other stations stay in order when an entry is replaced. -/
theorem AttsFit.putStation {s : State} {i : StationIx} {st : Station} {n : NodeId} {as : List Attachment} (h : AttsFit s n as) :
    AttsBut (s.putSu { s.su with stations := s.su.stations.put i st }) i n as := by
  obtain ⟨four, nodup, entitled, empty⟩ := h
  refine ⟨four, nodup, fun a ha ne => ?_, empty⟩
  have holds : ∀ x, (s.putSu { s.su with stations := s.su.stations.put i st }).holds a.station n x = s.holds a.station n x := by
    intro x
    rw [State.holds, station_putStation, if_neg ne]
    rfl
  rw [holds, holds]
  exact entitled a ha

/-- A state whose entry `i` alone is replaced, its station's attachments re-examined (R12, R13). -/
def State.reviewed (s : State) (i : StationIx) (st : Station) : State :=
  allNodes.foldl (State.reviewAttachment i (decide ((s.station i).addr? ≠ st.addr?)))
    (s.putSu { s.su with stations := s.su.stations.put i st })

theorem reviewed_keeps (i : StationIx) (st : Station) :
    Keeps (s.putSu { s.su with stations := s.su.stations.put i st }) (s.reviewed i st) :=
  foldl_keep _ fun a n _ => reviewAttachment_keeps a i _ n

theorem replaceStation_keeps (i : StationIx) (st : Station) : Keeps (s.reviewed i st) (s.replaceStation i st) := by
  have media := foldl_keep (f := State.reviewMedium i (decide ((s.station i).addr? ≠ st.addr?))) (l := allNodes)
    (s.reviewed i st) fun a n _ => reviewMedium_keeps a i _ n
  unfold State.replaceStation
  dsimp only
  split
  · exact media.trans (staleWhere_keeps _ _)
  · exact media

theorem su_replaceStation (i : StationIx) (st : Station) :
    (s.replaceStation i st).su = { s.su with stations := s.su.stations.put i st } :=
  ((reviewed_keeps s i st).trans (replaceStation_keeps s i st)).rest.su

theorem replaceStation_decided {i : StationIx} {st : Station} (ht : s.addressTaken i st = false) (hl : s.lastOperator i st = false) :
    Decided s (s.replaceStation i st) := by
  have atts := reviewed_keeps s i st
  have rest := replaceStation_keeps s i st
  have all := (atts.trans rest).decided
  exact {
    straps := all.straps, pending := all.pending, config := all.config, image := all.image, fetch := all.fetch, port := all.port
    owed := all.owed
    station := fun h => all.station (stationLaw_putStation s ht hl h)
    laws := { all.laws with
      attach := fun h => rest.laws.attach (attachLaw_iff.mpr ⟨fun n => (AttsFit.congr atts.rest).mpr
        (reviewAttachments_fit _ i _ allNodes (fun m => ((attachLaw_iff.mp h).1 m).putStation) (fun m hm => absurd (mem_allNodes m) hm) n),
        fun hl => by
          rw [atts.rest.loading] at hl
          rw [atts.rest.mac]
          exact (attachLaw_iff.mp h).2 hl⟩) } }

theorem writeStation_decided (b : List Byte) : Decided s (s.writeStation b).state := by
  unfold State.writeStation
  split
  · exact refuse_decided s _
  · split
    · exact refuse_decided s _
    · split
      · exact refuse_decided s _
      · next taken =>
        split
        · exact refuse_decided s _
        · next last => exact replaceStation_decided s (by simpa using taken) (by simpa using last)

/-! ## NODE_TENANT (R16, R17) -/

/-- Of a node handed over only the attachments of operators are left (R17). -/
theorem AttsFit.operators {s : State} {n : NodeId} {as : List Attachment} (h : AttsFit s n as) {t : State}
    (hs : ∀ i, t.station i = s.station i) (hl : t.loading = s.loading) :
    AttsFit t n (as.filter (fun a => (s.station a.station).isOperator)) := by
  obtain ⟨four, nodup, entitled, empty⟩ := h
  have all : ∀ (a : Attachment), (s.station a.station).isOperator = true → ∀ x, t.holds a.station n x = true := by
    intro a ha x
    rw [State.holds, hs]
    cases e : s.station a.station with
    | operator _ => rfl
    | empty => rw [e] at ha; cases ha
    | tenant _ _ _ _ => rw [e] at ha; cases ha
  refine ⟨(List.length_filter_le _ _).trans four, nodup.sublist (List.filter_sublist.map _), fun a ha => ?_, fun h => by
    simp [empty (hl ▸ h)]⟩
  obtain ⟨-, op⟩ := List.mem_filter.mp ha
  exact ⟨all a op _, fun _ => all a op _⟩

theorem clearSet_keeps (n : NodeId) : Keeps s (s.clearSet n) := putSet_keeps s fun _ => ⟨by simp, by simp⟩

theorem Watch.handover_fits {w : Watch} (h : w.fits) : w.handover.fits := by
  obtain ⟨-, timer, -⟩ := h
  refine ⟨Nat.zero_le _, ?_, ?_⟩
  · cases e : w.state <;> simp [Watch.handover, e, timer]
  · cases e : w.state <;> simp [Watch.handover, e]

/-- The stream's share of a handover (R17). -/
theorem handoverStream_laws (n : NodeId) (t : BitVec 4) :
    Decided s ((s.putSu (s.su.handover n t)).putStream n
      ((s.streams.get n).handover (fun i => (s.station i).isOperator))) where
  laws := {
    line := fun hs => lineLaw_iff.mpr fun m => ⟨(lineLaw_iff.mp hs m).1,
      Tab.forall_put (P := fun _ x => (Stream.ring x).length ≤ 1024) (fun j => (lineLaw_iff.mp hs j).2)
        (fun _ => by simp [Stream.handover]) m⟩
    attach := fun hs => by
      obtain ⟨each, mac⟩ := attachLaw_iff.mp hs
      refine attachLaw_iff.mpr ⟨fun m => ?_, mac⟩
      by_cases e : m = n
      · subst e
        rw [State.putStream_streams, Tab.get_put_same]
        exact (each m).operators (fun _ => rfl) rfl
      · rw [State.putStream_streams, Tab.get_put_ne _ _ e]
        obtain ⟨four, nodup, entitled, empty⟩ := each m
        have tenant : (s.su.handover n t).tenants.get m = s.su.tenants.get m := Tab.get_put_ne _ _ e
        refine ⟨four, nodup, fun a ha => ?_, empty⟩
        have holds : ∀ x, ((s.putSu (s.su.handover n t)).putStream n
            ((s.streams.get n).handover (fun i => (s.station i).isOperator))).holds a.station m x = s.holds a.station m x :=
          fun x => congrArg (fun k => (s.station a.station).holds k m x) tenant
        rw [holds, holds]
        exact entitled a ha
    cell := cellLaw_putStream s (x := (s.streams.get n).handover (fun i => (s.station i).isOperator))
      (by simp [Stream.handover]) rfl }

theorem handover_decided (n : NodeId) (t : BitVec 4) : Decided s (s.handover n t) :=
  (handoverStream_laws s n t).trans ((((((report_keeps _).trans (putMatcher_keeps _ _)).trans (handoverPort_keeps _ n)).trans
    (putWatch_keeps _ Watch.handover_fits)).trans (clearSet_keeps _ n)).trans
    (raise_node_keeps _ (by simp [Event.rank]))).decided

/-- In the load no station is attached, and so a tenant may be set without a handover (R5). -/
theorem setTenant_decided {u : Steering} (hl : s.loading = true) (hs : u.stations = s.su.stations)
    (hc : u.commissioning = s.su.commissioning) : Decided s (s.putSu u) where
  station := fun h => by simpa [StationLaw, State.station, hs, hc] using h
  laws := {
    attach := fun ⟨each, empty, mac⟩ => ⟨fun n => by simp [empty hl n], empty, mac⟩ }

theorem writeTenant_decided {load : Bool} (hl : load = true → s.loading = true) (node : Byte) (b : List Byte) :
    Decided s (s.writeTenant load node b).state := by
  unfold State.writeTenant
  split
  · exact refuse_decided s _
  · split
    · exact refuse_decided s _
    · split
      · exact refuse_decided s _
      · dsimp only
        split
        · exact refuse_decided s _
        · split
          · next h => exact setTenant_decided s (hl h) rfl rfl
          · exact handover_decided s _ _

/-! ## The other sections -/

theorem writeLine_keeps (load : Bool) (node : Byte) (b : List Byte) : Keeps s (s.writeLine load node b).state := by
  unfold State.writeLine
  split
  · exact .refl s
  · split
    · next n t _ _ =>
      have set_ : Keeps s (s.putLine n ((s.lines.get n).setSettings (clampLine t) s.now)) :=
        putLine_keeps s fun h => h.fresh s.now (k := 0) (by decide) false false
      dsimp only [State.setLine]
      split
      · exact set_
      · exact set_.trans (offerMark_keeps _ n _)
    · exact .refl s

theorem writePower_keeps (load : Bool) (node : Byte) (b : List Byte) : Keeps s (s.writePower load node b).state := by
  unfold State.writePower
  split
  · exact .refl s
  · split
    · split
      · exact .refl s
      · exact setSettings_keeps s _ _ _ _
    · exact .refl s

theorem Watch.setSettings_fits {w : Watch} (h : w.fits) (t : WatchSettings) (ms : Nat) : (w.setSettings t ms).fits := by
  obtain ⟨-, timer, held⟩ := h
  have count : min w.count t.limit ≤ t.limit := Nat.min_le_right _ _
  unfold Watch.setSettings
  dsimp only
  split
  · next e =>
    split
    · exact ⟨count, by simp, nofun⟩
    · exact ⟨count, by simp [e], by simp [e]⟩
  · next e =>
    have stopped : w.timer.isSome = false := by simpa [e] using timer
    split
    · exact ⟨count, by simpa using stopped, nofun⟩
    · exact ⟨count, by simp [e, stopped], fun _ => held e⟩
  · next e =>
    have stopped : w.timer.isSome = false := by simpa [e] using timer
    split
    · next c => exact ⟨count, by simpa using stopped, fun _ => c.2⟩
    · exact ⟨count, by simp [e, stopped], by simp [e]⟩

theorem writeWatch_keeps (node : Byte) (b : List Byte) : Keeps s (s.writeWatch node b).state := by
  unfold State.writeWatch
  split
  · exact .refl s
  · split
    · exact putWatch_keeps s fun h => Watch.setSettings_fits h _ _
    · exact .refl s

theorem AttsFit.idle {s : State} {n : NodeId} {as : List Attachment} (h : AttsFit s n as) :
    AttsFit s n (as.map (fun x => { x with escape := none })) := by
  obtain ⟨four, nodup, entitled, empty⟩ := h
  refine ⟨by simpa using four, by simpa [Function.comp_def] using nodup, fun a ha => ?_, fun hl => by simp [empty hl]⟩
  obtain ⟨b, hb, rfl⟩ := List.mem_map.mp ha
  exact entitled b hb

theorem releaseEscapes_keeps (n : NodeId) (old : Byte) : Keeps s (s.releaseEscapes n old) :=
  (putStream_keeps_of_history s (n := n) (x := { s.streams.get n with atts := (s.streams.get n).atts.map (fun x => { x with escape := none }) })
    id AttsFit.idle rfl rfl).trans (foldl_keep _ fun a b _ => releaseByte_keeps a n b)

theorem setStream_keeps {n : NodeId} {t : StreamSettings} (h : s.limitsCovered n t.histMin t.histMax = true) :
    Keeps s (s.setStream n t) := by
  have limits : Keeps s ((s.applyLimits n t).reportLimits s n) := by
    refine (applyLimits_keeps s h).trans ?_
    unfold State.reportLimits
    split
    · exact report_keeps _
    · exact .refl _
  unfold State.setStream
  dsimp only
  split
  · exact limits.trans (testBatch_keeps _ n)
  · exact (limits.trans (releaseEscapes_keeps _ n _)).trans (testBatch_keeps _ n)

theorem writeStream_keeps (node : Byte) (b : List Byte) : Keeps s (s.writeStream node b).state := by
  unfold State.writeStream
  split
  · exact .refl s
  · split
    · dsimp only
      split
      · next h => exact setStream_keeps s h
      · exact .refl s
    · exact .refl s

theorem writeMedia_keeps (node : Byte) (b : List Byte) : Keeps s (s.writeMedia node b).state := by
  unfold State.writeMedia
  split
  · exact .refl s
  · split
    · split
      · exact putPort_keeps_of_same s
      · exact .refl s
    · exact .refl s

theorem writePattern_keeps (b : List Byte) : Keeps s (s.writePattern b).state := by
  unfold State.writePattern
  split
  · exact .refl s
  · split
    · exact putMatcher_keeps s _
    · exact .refl s

theorem setPart_keeps (p : PartSettings) : Keeps s (s.setPart p) := {}

theorem writePart_keeps (b : List Byte) : Keeps s (s.writePart b).state := by
  unfold State.writePart
  split
  · exact .refl s
  · split
    · exact .refl s
    · split
      · exact .refl s
      · exact setPart_keeps s _

theorem writeSection_decided {load : Bool} (hl : load = true → s.loading = true) (c : Sec) (node : Byte) (b : List Byte) :
    Decided s (s.writeSection load c node b).state := by
  cases c with
  | station => exact writeStation_decided s b
  | nodeTenant => exact writeTenant_decided s hl node b
  | nodeLine => exact (writeLine_keeps s load node b).decided
  | nodePower => exact (writePower_keeps s load node b).decided
  | nodeWatch => exact (writeWatch_keeps s node b).decided
  | nodeStream => exact (writeStream_keeps s node b).decided
  | nodeMedia => exact (writeMedia_keeps s node b).decided
  | pattern => exact (writePattern_keeps s b).decided
  | part => exact (writePart_keeps s b).decided

/-! ## The Settings Loader (R191 to R196) -/

/-- The loader replaced, which begins no load. -/
theorem putLoader_decided {l : Loader} (h : (s.putLoader l).loading = true → s.loading = true) : Decided s (s.putLoader l) where
  laws := { attach := fun ⟨each, empty, mac⟩ => ⟨each, fun hl => empty (h hl), fun hl => mac (h hl)⟩ }

theorem loading_moveTo {l : Loader} (a : Nat) (h : (s.putLoader { l with activity := s.loader.activity.moveTo a }).loading = true) :
    s.loading = true := by
  revert h
  simp only [State.loading, State.putLoader_loader]
  cases s.loader.activity <;> simp [Activity.moveTo]

theorem counted_activity (l : Loader) (r : Result) : (l.counted r).activity = l.activity := by cases r <;> rfl

theorem applyRecord_decided (c : Sec) (b : List Byte) (next : Nat) : Decided s (s.applyRecord c b next) := by
  refine (writeSection_decided s (load := s.loading) id c (if c.ofPart then 15 else b.getD 0 15) b).trans (putLoader_decided _ fun h => ?_)
  rw [counted_activity] at h
  exact loading_moveTo _ next h

theorem openPart_laws : Decided s s.openPart where
  station := fun ⟨distinct, _⟩ => ⟨distinct, fun h => by
    have some_ : s.operators ≠ 0 := by
      intro e
      simp [State.openPart, e] at h
    obtain ⟨i, hi⟩ := List.exists_mem_of_length_pos (Nat.pos_of_ne_zero some_)
    exact ⟨i, (List.mem_filter.mp hi).2⟩⟩
  laws := { attach := fun ⟨each, _, _⟩ => ⟨each, fun h => by simp [State.loading, State.openPart] at h, fun h => by
    simp [State.loading, State.openPart] at h⟩ }

theorem idle_decided {l : Loader} (h : l.activity = .idle) : Decided s (s.putLoader l) :=
  putLoader_decided s fun hl => by simp [State.loading, h] at hl

theorem endReload_decided : Decided s s.endReload :=
  (idle_decided s rfl).trans (raise_keeps _ (by simp [Event.rank])).decided

theorem endRead_decided : Decided s s.endRead := by
  unfold State.endRead
  split
  · exact openPart_laws s
  · exact endReload_decided s

theorem takeRecord_decided (a : Nat) : Decided s (s.takeRecord a) := by
  unfold State.takeRecord
  split
  · exact endRead_decided s
  · exact applyRecord_decided s _ _ _
  · exact putLoader_decided s (loading_moveTo s _)
  · exact (putLoader_decided s (l := s.loader.skip) id).trans (endRead_decided _)

theorem readRecord_decided : Decided s s.readRecord := by
  unfold State.readRecord
  split
  · exact takeRecord_decided s _
  · exact takeRecord_decided s _
  · exact .refl s
  · exact .refl s

theorem takeSave_decided (b : List Byte) : Decided s (s.takeSave b).state := by
  unfold State.takeSave
  split
  · split
    · exact refuse_decided s _
    · exact putLoader_decided s fun h => by simp [State.loading] at h
  all_goals exact refuse_decided s _

theorem takeReload_decided (b : List Byte) : Decided s (s.takeReload b).state := by
  unfold State.takeReload
  split
  · split
    · exact refuse_decided s _
    · exact putLoader_decided s fun h => by simp [State.loading] at h
  all_goals exact refuse_decided s _

theorem commitPage_decided (l : List Byte) (p : SaveStep) : Decided s (s.commitPage l p) where
  config := commitPage_memWf s l p

theorem spoilPage_decided (p : SaveStep) : Decided s (s.spoilPage p) where
  config := spoilPage_memWf s p

theorem pageDone_decided (l : List Byte) (p : SaveStep) : Decided s (s.pageDone l p) := by
  unfold State.pageDone
  dsimp only
  split
  · exact (commitPage_decided s l p).trans (putLoader_decided _ fun h => by simp [State.loading] at h)
  · exact ((commitPage_decided s l p).trans (idle_decided _ rfl)).trans (raise_keeps _ (by simp [Event.rank])).decided

theorem pageFailed_decided (p : SaveStep) : Decided s (s.pageFailed p) :=
  ((spoilPage_decided s p).trans (idle_decided _ rfl)).trans (raise_keeps _ (by simp [Event.rank])).decided

theorem pageFinished_decided : Decided s s.pageFinished := by
  unfold State.pageFinished
  split
  · exact pageDone_decided s _ _
  all_goals exact .refl s

theorem pageExpires_decided : Decided s s.pageExpires := by
  unfold State.pageExpires
  split
  · exact (reachMs_keeps s _).decided.trans (pageFailed_decided _ _)
  all_goals exact .refl s

/-! ## The restart (R197) -/

theorem abandonLoader_decided : Decided s s.abandonLoader := by
  unfold State.abandonLoader
  dsimp only
  split
  · exact (commitPage_decided s _ _).trans (idle_decided _ rfl)
  all_goals exact idle_decided s rfl

theorem restartStream_keeps (n : NodeId) : Keeps s (s.restartStream n) :=
  (drainRing_keeps s n).trans (putStream_keeps_of_history _ id (fun _ => ⟨by simp, by simp, by simp, fun _ => rfl⟩) rfl rfl)

theorem Power.restart_fits (p : Power) (ms : Nat) : (p.restart ms).fits := ⟨nofun, nofun, rfl⟩

theorem Line.inBounds.restart {l : Line} (h : l.inBounds) (now : Nat) : (l.restart now).inBounds :=
  (h.toPrimary now).transmit (by simp) fun _ => rfl

/-- The shares of the blocks in a restart that follow the streams' (R197). -/
def State.restartBlocks (a : State) : State :=
  { a with
    up := a.up.restart
    lines := a.lines.map (fun l => l.restart a.now)
    matcher := a.matcher.restart
    power := a.power.map (fun p => p.restart a.ms)
    watches := a.watches.map Watch.restart
    ports := a.ports.map MediaPort.restart
    images := a.images.restart
    pool := a.pool.restart
    notices := a.notices.restart }

theorem restart_eq : s.restart = (allNodes.foldl State.restartStream s.abandonLoader).restartBlocks := rfl

theorem pw_restartBlocks (n : NodeId) : s.restartBlocks.pw n = (s.pw n).restart s.ms := Tab.get_map _ _ _

theorem port_restartBlocks (n : NodeId) : s.restartBlocks.port n = (s.port n).restart := Tab.get_map _ _ _

theorem wt_restartBlocks (n : NodeId) : s.restartBlocks.wt n = (s.wt n).stop := Tab.get_map _ _ _

theorem line_restartBlocks (n : NodeId) : s.restartBlocks.lines.get n = (s.lines.get n).restart s.now := Tab.get_map _ _ _

theorem image_restartBlocks (r : ImageIx) : s.restartBlocks.image r = none := Tab.get_fill _ _

theorem write_restartBlocks (n : NodeId) : (s.restartBlocks.images.writes.get n).live = none := by
  simp [State.restartBlocks, ImageUnit.restart]

theorem fetch_restartBlocks (f : FetchIx) : (s.restartBlocks.images.fetches.get f).live = none := by
  simp [State.restartBlocks, ImageUnit.restart]

theorem pendingSet_restartBlocks (id : SetId) : s.restartBlocks.pendingSet id = ⟨[], none⟩ := by
  cases id <;> simp [State.restartBlocks, Notices.restart, State.pendingSet]

/-- A pool without extents. -/
theorem CellsFit.clear {held : NodeId → List Nat} {least : NodeId → Nat} {p q : Pool} (h : CellsFit held least p) (hq : q.used = []) :
    CellsFit held least q := by
  obtain ⟨⟨nodup, below, -, -⟩, fits⟩ := h
  have cells : q.cells = [] := by rw [Pool.cells, hq]; rfl
  refine ⟨⟨?_, fun c hc => below c ?_, by simp [hq], by simp [hq]⟩, by rw [hq]; simp only [List.length_nil]; omega⟩
  · rw [cells, List.append_nil]; exact (List.nodup_append.mp nodup).1
  · rw [cells, List.append_nil] at hc; exact List.mem_append_left _ hc

theorem used_fill {p : Pool} (h : p.extents = Tab.fill 128 none) : p.used = [] := by
  simp [Pool.used, h]

theorem restartBlocks_laws : LawsKept s s.restartBlocks where
  laws := {
    power := fun _ n => by rw [pw_restartBlocks]; exact Power.restart_fits _ _
    watch := fun hs n => by rw [wt_restartBlocks]; exact Watch.stop_fits (hs n)
    line := fun hs => lineLaw_iff.mpr fun n => by
      rw [line_restartBlocks]
      exact ⟨(lineLaw_iff.mp hs n).1.restart _, (lineLaw_iff.mp hs n).2⟩
    descriptor := fun _ => ⟨by simp [State.restartBlocks, Uplink.restart, Uplink.frames], by
      simp [State.restartBlocks, Uplink.restart, Uplink.others, Uplink.frames]⟩
    notice := fun _ id => by rw [pendingSet_restartBlocks]; exact ⟨by simp, by simp⟩
    cell := fun hs => cellLaw_iff.mpr ((cellLaw_iff.mp hs).clear (used_fill rfl)) }
  image := fun _ => ⟨fun r x h => by simp [image_restartBlocks] at h, fun n m h => by
    simp [port_restartBlocks, MediaPort.restart, Medium.ref?] at h, fun r q x y h => by simp [image_restartBlocks] at h, fun r x h => by
    simp [image_restartBlocks] at h⟩
  fetch := fun _ => fetchLaw_iff.mpr ⟨fun f l h => by simp [fetch_restartBlocks] at h, fun n => ⟨by
    simp [port_restartBlocks, MediaPort.restart], fun w h => by simp [write_restartBlocks] at h⟩⟩
  port := fun _ n => by
    rw [pw_restartBlocks, port_restartBlocks]
    exact ⟨nofun, nofun, rfl, nofun, fun _ => rfl⟩

theorem restart_laws : LawsKept s s.restart :=
  ((abandonLoader_decided s).toLawsKept.trans (foldl_keep _ fun a n _ => restartStream_keeps a n).laws_kept).trans
    (restartBlocks_laws _)

/-- A promise that finds a descriptor (R186). -/
theorem promise_laws (h : s.up.promised < s.up.free) : LawsKept s s.promise where
  laws := {
    descriptor := fun ⟨_, reserve⟩ => ⟨by
      have free : s.up.free = 64 - s.up.frames.length := rfl
      have frames : s.promise.up.frames.length = s.up.frames.length := rfl
      have promised : s.promise.up.promised = s.up.promised + 1 := rfl
      omega, reserve⟩ }

theorem restart_promise_laws : LawsKept s s.restart.promise :=
  (restart_laws s).trans (promise_laws _ (by rw [restart_eq]; simp [State.restartBlocks, Uplink.restart, Uplink.free, Uplink.frames]))

theorem takeRestart_decided (b : List Byte) : Decided s (s.takeRestart b).state := by
  unfold State.takeRestart
  split
  · exact refuse_decided s _
  · exact ⟨restart_promise_laws s, fun _ => Nat.succ_pos _⟩

end Sys2Proof.Machine
end

section
/-! PROOFS. The laws under received frames, resets and every command, and the obligations about them. -/
namespace Sys2Proof.Machine

-- Side by side, the proofs of this text would need more thread stacks than the check's memory limit holds.
set_option Elab.async false

variable (s : State)

/-! ## Requests decided (R7 to R9) -/

theorem passTable_decided (write : Bool) (node : Byte) (b : List Byte) : Decided s (s.passTable write node b).state := by
  unfold State.passTable
  split
  · exact refuse_decided s _
  · split
    · exact writeSection_decided s (load := false) nofun _ node _
    · rw [readSection_state]; exact .refl s

theorem readStatus_decided (i : StationIx) (t : SetId) (b : List Byte) : Decided s (s.readStatus i t b).state := by
  rw [readStatus_state]; exact .refl s

theorem passNode_decided {i : StationIx} {k : RequestKind} {n : NodeId} {b : List Byte} (hm : s.up.macEnabled = true)
    (hp : s.permitted i k (some n) b = true) (node : Byte) : Decided s (s.passNode i k n node b).state := by
  cases k with
  | statusRead => exact readStatus_decided s i _ b
  | tableWrite => exact passTable_decided s true node b
  | tableRead => exact passTable_decided s false node b
  | attach => exact (takeAttach_keeps s hm hp).decided
  | detach => exact (takeDetach_keeps s i n b).decided
  | renew => exact (takeRenew_keeps s i n b).decided
  | consoleInput => exact (takeInput_keeps s i n b).decided
  | replay => exact (takeReplay_keeps s i n b).decided
  | powerAction => exact (takePower_keeps s i n b).decided
  | clearHold => exact (takeClearHold_keeps s n b).decided
  | bootOk => exact (takeBootOk_keeps s i n b).decided
  | mediaInsert => exact (takeInsert_keeps s n b).decided
  | mediaEject => exact (takeEject_keeps s i n b).decided
  | save => exact refuse_decided s _
  | reload => exact refuse_decided s _
  | restart => exact refuse_decided s _

theorem passPart_decided (i : StationIx) (k : RequestKind) (node : Byte) (b : List Byte) :
    Decided s (s.passPart i k node b).state := by
  cases k with
  | statusRead => exact readStatus_decided s i _ b
  | tableWrite => exact passTable_decided s true node b
  | tableRead => exact passTable_decided s false node b
  | save => exact takeSave_decided s b
  | reload => exact takeReload_decided s b
  | restart => exact takeRestart_decided s b
  | attach => exact refuse_decided s _
  | detach => exact refuse_decided s _
  | renew => exact refuse_decided s _
  | consoleInput => exact refuse_decided s _
  | replay => exact refuse_decided s _
  | powerAction => exact refuse_decided s _
  | clearHold => exact refuse_decided s _
  | bootOk => exact refuse_decided s _
  | mediaInsert => exact refuse_decided s _
  | mediaEject => exact refuse_decided s _

theorem decideRequest_decided (hm : s.up.macEnabled = true) (i : StationIx) (k : RequestKind) (node : Byte) (b : List Byte) :
    Decided s (s.decideRequest i k node b).state := by
  unfold State.decideRequest
  split
  · exact refuse_decided s _
  · split
    · exact refuse_decided s _
    · next hp =>
      split
      · exact passNode_decided s hm (by simpa using hp) node
      · exact passPart_decided s i k node b

/-- The entry a commissioning write gives is an OPERATOR (R10). -/
theorem commissioning_operator {h : Head} {kind : Byte} {b : List Byte} (hw : isCommissioningWrite h kind b = true) {own : MacAddr}
    {i : StationIx} {st : Station} (hd : decodeStation own (b.drop 1) = some (i, st)) : st.isOperator = true := by
  simp only [isCommissioningWrite, Bool.and_eq_true, decide_eq_true_eq, beq_iff_eq] at hw
  obtain ⟨⟨⟨⟨-, long⟩, inUse⟩, operator⟩, -⟩ := hw
  match b, long with
  | _ :: ix :: st' :: class_ :: rest, _ =>
    have used : st' ≠ 0 := by rintro rfl; simp [byteAt] at inUse
    have op : byteAt (class_ :: rest) 0 = 1 := operator
    simp only [decodeStation, List.drop_one, List.tail_cons] at hd
    split at hd
    · cases hd
    · split at hd
      · contradiction
      · split at hd
        · split at hd
          · cases hd
          · cases hd
            rfl
        · cases hd

/-- A STATION write answered OK has replaced an entry (R11). -/
theorem writeStation_ok {b : List Byte} (h : (s.writeStation b).result = .ok) :
    ∃ i st, decodeStation s.up.addr b = some (i, st) ∧ (s.writeStation b).state = s.replaceStation i st := by
  revert h
  unfold State.writeStation
  split
  · exact nofun
  · split
    · exact nofun
    · next i st hd =>
      split
      · exact nofun
      · split
        · exact nofun
        · exact fun _ => ⟨i, st, hd, rfl⟩

theorem commission_decided {h : Head} {kind : Byte} {b : List Byte} (hw : isCommissioningWrite h kind b = true) :
    Decided s (s.commission h b).state := by
  have checked := writeStation_decided s (b.drop 1)
  unfold State.commission
  split
  · exact refuse_decided s _
  · dsimp only
    split
    · next ok =>
      refine (checked.trans ?_).trans (raise_keeps _ (id := none) (e := .commissioned) (by simp [Event.rank])).decided
      refine { station := fun ⟨distinct, _⟩ => ⟨distinct, fun _ => ?_⟩ }
      obtain ⟨i, st, hd, e⟩ := writeStation_ok s ok
      refine ⟨i, ?_⟩
      have entry : (s.writeStation (b.drop 1)).state.station i = st := by
        rw [e, State.station, su_replaceStation]; exact Tab.get_put_same _ _ _
      exact (congrArg Station.isOperator entry).trans (commissioning_operator hw hd)
    · exact checked

/-! ## Frames taken (R6 to R10) -/

theorem release_laws : LawsKept s s.release where
  laws := {
    descriptor := fun ⟨room, reserve⟩ => ⟨by
      have frames : s.release.up.frames.length = s.up.frames.length := rfl
      have promised : s.release.up.promised = s.up.promised - 1 := rfl
      omega, reserve⟩ }

/-- An answer takes the descriptor promised to it (R186). -/
theorem answer_laws (h : Head) (kind : Byte) (r : Result) (b : List Byte) (hp : 0 < s.up.promised) :
    LawsKept s (s.answer h kind r b) where
  laws := {
    descriptor := fun ⟨room, reserve⟩ => by
      have frames : (s.answer h kind r b).up.frames.length = s.up.frames.length + 1 := by
        simp [State.answer, State.enqueue, State.release, Uplink.frames, Nat.add_assoc]
      have others : (s.answer h kind r b).up.others = s.up.others := by
        simp [State.answer, State.enqueue, State.release, Uplink.others, Uplink.frames, ← List.append_assoc, List.filter_append,
          answerFrame]
      have promised : (s.answer h kind r b).up.promised = s.up.promised - 1 := rfl
      exact ⟨by omega, by omega⟩ }

theorem discardUnknown_laws : LawsKept s s.discardUnknown := by
  refine LawsKept.trans (t := s.putSu { s.su with unknownSource := satInc s.su.unknownSource }) {} (release_laws _)

theorem decision_laws {d : Decision} (hd : Decided s d.state) (hp : 0 < s.up.promised) (h : Head) (kind : Byte) :
    LawsKept s (d.answer h kind) :=
  hd.toLawsKept.trans (answer_laws _ h kind _ _ (hd.owed hp))

theorem takeKnown_laws (hm : s.up.macEnabled = true) (hp : 0 < s.up.promised) (i : StationIx) (h : Head) (kind : Byte) (b : List Byte) :
    LawsKept s (s.takeKnown i h kind b) := by
  unfold State.takeKnown
  split
  · exact release_laws s
  · exact decision_laws s (refuse_decided s _) hp h kind
  · exact (takeReply_keeps s i _ b).laws_kept.trans (release_laws _)
  · exact decision_laws s (decideRequest_decided s hm i _ _ b) hp h kind

theorem takeKnownEarly_laws (hp : 0 < s.up.promised) (i : StationIx) (h : Head) (kind : Byte) (b : List Byte) :
    LawsKept s (s.takeKnownEarly i h kind b) := by
  unfold State.takeKnownEarly
  split
  · exact release_laws s
  · exact decision_laws s (refuse_decided s _) hp h kind
  · exact (takeReply_keeps s i _ b).laws_kept.trans (release_laws _)
  · exact decision_laws s (refuse_decided s _) hp h kind

theorem steer_laws (hm : s.up.macEnabled = true) (hp : 0 < s.up.promised) (h : Head) (kind : Byte) (b : List Byte) :
    LawsKept s (s.steer h kind b) := by
  unfold State.steer
  split
  · split
    · exact discardUnknown_laws s
    · exact takeKnown_laws s hm hp _ h kind b
  · split
    · next hw => exact decision_laws s (commission_decided s hw) hp h kind
    · split
      · exact discardUnknown_laws s
      · exact takeKnownEarly_laws s hp _ h kind b

theorem drop_keeps (c : DropCause) : Keeps s (s.drop c) := {}

/-- A frame that passes the checks finds a descriptor for its answer (R178, R186). -/
theorem room_of_dropCause {f : RxView} (h : s.dropCause f = none) : s.up.promised < s.up.free := by
  by_contra room
  unfold State.dropCause at h
  rw [if_pos (Nat.not_lt.mp room)] at h
  split_ifs at h

theorem receive_laws (h : Head) (kind : Byte) (b : List Byte) : LawsKept s (s.receive h kind b) := by
  unfold State.receive
  split
  · exact (Keeps.refl s).laws_kept
  · next hm =>
    split
    · exact (drop_keeps s _).laws_kept
    · next none_ =>
      exact (promise_laws s (room_of_dropCause s none_)).trans
        (steer_laws s.promise (by simpa using hm) (Nat.succ_pos _) h kind _)

theorem receiveRaw_laws (f : RawFrame) : LawsKept s (s.receiveRaw f) := by
  unfold State.receiveRaw
  split
  · exact receive_laws s _ _ _
  · split
    · exact (Keeps.refl s).laws_kept
    · split
      · exact (drop_keeps s _).laws_kept
      · exact (Keeps.refl s).laws_kept

/-! ## Resets (R193) -/

theorem breakOff_laws : LawsKept s s.breakOff := by
  unfold State.breakOff
  split
  · exact (spoilPage_decided s _).toLawsKept
  all_goals exact (Keeps.refl s).laws_kept

theorem resetPower_fits (raw : Bool) : (resetPower raw).fits := ⟨nofun, nofun, rfl⟩

theorem resetLine_inBounds (rxd : Bool) (now : Nat) : (resetLine rxd now).inBounds := by
  cases rxd <;> simp [Line.inBounds, resetLine, defaultLineSettings, LineSettings.rates, Line.rxdFits]

/-- Every block in its initial state (R193). -/
def State.resetBlocks (a : State) : State :=
  { a with
    porn := false
    su := resetSteering
    up := resetUplink a.straps a.up.linkUp
    lines := a.lines.map (fun l => resetLine l.rxd a.now)
    streams := Tab.fill 8 resetStream
    lease := 120
    matcher := resetMatcher
    power := a.power.map (fun p => resetPower p.raw)
    watches := Tab.fill 8 resetWatch
    ports := a.ports.map (fun p => resetPort p.busPower)
    images := resetImages
    pool := resetPool
    notices := resetNotices
    loader := ⟨.loading 0, 0, 0, 0⟩ }

theorem powerOnReset_eq : s.powerOnReset = s.breakOff.resetBlocks := rfl

/-- A part whose blocks are in their initial state, at whatever levels of its pins (R193). -/
structure Initial (s : State) : Prop where
  porn : s.porn = false
  su : s.su = resetSteering
  up : ∃ straps link, s.up = resetUplink straps link
  line : ∀ n, ∃ rxd now, s.lines.get n = resetLine rxd now
  stream : ∀ n, s.streams.get n = resetStream
  power : ∀ n, ∃ raw, s.pw n = resetPower raw
  watch : ∀ n, s.wt n = resetWatch
  port : ∀ n, ∃ on, s.port n = resetPort on
  images : s.images = resetImages
  pool : s.pool = resetPool
  notices : s.notices = resetNotices

theorem resetBlocks_initial : Initial s.resetBlocks where
  porn := rfl
  su := rfl
  up := ⟨_, _, rfl⟩
  line n := ⟨_, _, Tab.get_map _ _ n⟩
  stream n := Tab.get_fill _ n
  power n := ⟨_, Tab.get_map _ _ n⟩
  watch n := Tab.get_fill _ n
  port n := ⟨_, Tab.get_map _ _ n⟩
  images := rfl
  pool := rfl
  notices := rfl

theorem reset_initial : Initial State.reset where
  porn := rfl
  su := rfl
  up := ⟨_, _, rfl⟩
  line n := ⟨_, _, Tab.get_fill _ n⟩
  stream n := Tab.get_fill _ n
  power n := ⟨_, Tab.get_fill _ n⟩
  watch n := Tab.get_fill _ n
  port n := ⟨_, Tab.get_fill _ n⟩
  images := rfl
  pool := rfl
  notices := rfl

section
variable {s : State}

theorem Initial.powerLaw (h : Initial s) : PowerLaw s := fun n => by
  obtain ⟨raw, e⟩ := h.power n
  exact e ▸ resetPower_fits raw

theorem Initial.watchLaw (h : Initial s) : WatchLaw s := fun n => by
  rw [h.watch]; exact ⟨Nat.zero_le _, by simp [resetWatch], nofun⟩

theorem Initial.lineLaw (h : Initial s) : LineLaw s := lineLaw_iff.mpr fun n => by
  obtain ⟨rxd, now, e⟩ := h.line n
  rw [e, h.stream]
  exact ⟨resetLine_inBounds rxd now, by simp [resetStream]⟩

theorem Initial.attachLaw (h : Initial s) : AttachLaw s := attachLaw_iff.mpr ⟨fun n => by
  rw [h.stream]
  exact ⟨by simp [resetStream], by simp [resetStream], by simp [resetStream], fun _ => rfl⟩, fun _ => by
  obtain ⟨straps, link, e⟩ := h.up
  rw [e]
  rfl⟩

theorem Initial.descriptorLaw (h : Initial s) : DescriptorLaw s := by
  obtain ⟨straps, link, e⟩ := h.up
  rw [DescriptorLaw, e]
  exact ⟨by simp [Uplink.frames, resetUplink], by simp [Uplink.others, Uplink.frames, resetUplink]⟩

theorem Initial.noticeLaw (h : Initial s) : NoticeLaw s := fun id => by
  have empty : s.pendingSet id = ⟨[], none⟩ := by cases id <;> simp [State.pendingSet, h.notices, resetNotices]
  rw [empty]
  exact ⟨by simp, by simp⟩

theorem Initial.cellLaw (h : Initial s) : CellLaw s := by
  have held : s.cellsOf = fun _ => [] := funext fun n => by rw [State.cellsOf, h.stream]; rfl
  have least : s.histMin = fun _ => 4 := funext fun n => by rw [State.histMin, h.stream]; rfl
  have used : s.pool.used = [] := used_fill (by rw [h.pool]; rfl)
  have cells : s.pool.cells = [] := by rw [Pool.cells, used]; rfl
  rw [cellLaw_iff, held, least]
  exact ⟨⟨by rw [cells]; decide, by simp [cells], by simp [used], by simp [used]⟩, by rw [used]; decide⟩

theorem Initial.stationLaw (h : Initial s) : StationLaw s := by
  have empty : ∀ i, s.station i = .empty := fun i => by rw [State.station, h.su]; exact Tab.get_fill _ i
  exact ⟨fun i j hs => by simp [empty, Station.addr?] at hs, fun hc => by simp [h.su, resetSteering] at hc⟩

theorem Initial.portLaw (h : Initial s) : PortLaw s := fun n => by
  obtain ⟨raw, e⟩ := h.power n
  obtain ⟨on, e'⟩ := h.port n
  rw [e, e']
  exact ⟨nofun, nofun, rfl, nofun, fun _ => rfl⟩

theorem Initial.medium (h : Initial s) (n : NodeId) : (s.port n).medium = .empty := by
  obtain ⟨on, e⟩ := h.port n
  rw [e]; rfl

theorem Initial.image (h : Initial s) (r : ImageIx) : s.image r = none := by
  rw [State.image, h.images]; exact Tab.get_fill _ r

theorem Initial.imageLaw (h : Initial s) : ImageLaw s :=
  ⟨fun r x hx => by simp [h.image] at hx, fun n m hm => by simp [h.medium, Medium.ref?] at hm,
    fun r q x y hx => by simp [h.image] at hx, fun r x hx => by simp [h.image] at hx⟩

theorem Initial.fetchLaw (h : Initial s) : FetchLaw s := fetchLaw_iff.mpr ⟨fun f l hl => by
    simp [h.images, resetImages] at hl, fun n => by
    obtain ⟨on, e⟩ := h.port n
    rw [e, h.images]
    exact ⟨nofun, fun w hw => by simp [resetImages] at hw⟩⟩

end

theorem powerOnReset_laws : LawsKept s s.powerOnReset := by
  have init := resetBlocks_initial s.breakOff
  rw [powerOnReset_eq]
  exact {
    straps := (breakOff_laws s).straps
    pending := (breakOff_laws s).pending
    config := (breakOff_laws s).config
    station := fun _ => init.stationLaw
    laws := { power := fun _ => init.powerLaw, watch := fun _ => init.watchLaw, line := fun _ => init.lineLaw,
              attach := fun _ => init.attachLaw, descriptor := fun _ => init.descriptorLaw, notice := fun _ => init.noticeLaw,
              cell := fun _ => init.cellLaw }
    image := fun _ => init.imageLaw
    fetch := fun _ => init.fetchLaw
    port := fun _ => init.portLaw }

theorem Line.inBounds.toQuiet {l : Line} (h : l.inBounds) (now : Nat) : (l.toQuiet now).inBounds := by
  obtain ⟨e, c, g, p, d, u, -, q, i⟩ := h
  exact ⟨e, c, g, p, d, u, by cases hr : l.rxd <;> simp [Line.toQuiet, Line.rxdFits, hr], q, i⟩

theorem pornRises_laws : LawsKept s s.pornRises where
  laws := {
    power := fun hs n => by
      have e : s.pornRises.pw n = { s.pw n with wait := some (s.ms + (s.pw n).settings.filterMs) } := Tab.get_map _ _ n
      rw [e]; exact hs n
    line := fun hs => lineLaw_iff.mpr fun n => by
      have e : s.pornRises.lines.get n = (s.lines.get n).toQuiet s.now := Tab.get_map _ _ n
      rw [e]; exact ⟨Line.inBounds.toQuiet (lineLaw_iff.mp hs n).1 _, (lineLaw_iff.mp hs n).2⟩ }
  port := fun hs n => by
    have e : s.pornRises.pw n = { s.pw n with wait := some (s.ms + (s.pw n).settings.filterMs) } := Tab.get_map _ _ n
    obtain ⟨granted, reattach, attached, active, -⟩ := hs n
    rw [e]; exact ⟨granted, reattach, attached, active, nofun⟩

theorem powerOn_off_keeps {n : NodeId} {on : Bool} (hp : s.porn = false) :
    Keeps s (s.putPort n { s.port n with busPower := on }) :=
  putPort_keeps s (fun ⟨granted, reattach, attached, active, porn⟩ => by
    have denied := porn hp
    exact ⟨granted, reattach, by simpa [denied] using attached, active, porn⟩) rfl id

/-! ## Commands -/

/-- A command that carries a frame runs the frame (R178). -/
theorem exec_frame {c : Instr} {h : Head} {kind : Byte} {b : List Byte} (hf : frameOf c = some (h, kind, b)) :
    exec c s = s.whenRunning (·.receive h kind b) := by
  cases c <;> cases hf <;> rfl

theorem running (f : State → State) (h : s.porn = true → LawsKept s (f s)) :
    ∃ t, s.whenRunning f = .next t ∧ LawsKept s t := by
  refine ⟨_, rfl, ?_⟩
  split
  · next hp => exact (h hp).trans (finish_keeps _).laws_kept
  · exact (Keeps.refl s).laws_kept

theorem running_keeps (f : State → State) (h : Keeps s (f s)) : ∃ t, s.whenRunning f = .next t ∧ LawsKept s t :=
  running s f fun _ => h.laws_kept

/-- A report of a pin's level is taken while PORn is low too. -/
theorem pinned (f : State → State) (t : State) (h : Keeps s (f s)) (hp : s.porn = false → Keeps s t) :
    ∃ u, (if s.porn then s.whenRunning f else .next t) = .next u ∧ LawsKept s u := by
  split
  · exact running_keeps s f h
  · next low => exact ⟨t, rfl, (hp (by simpa using low)).laws_kept⟩

/-- Every command is answered by a next state and keeps every law. -/
theorem exec_laws (c : Instr) : ∃ t, exec c s = .next t ∧ LawsKept s t := by
  cases hf : frameOf c with
  | some x => obtain ⟨h, kind, b⟩ := x; rw [exec_frame s hf]; exact running s _ fun _ => receive_laws s h kind b
  | none =>
    cases c with
    | powerOnReset => exact ⟨_, rfl, powerOnReset_laws s⟩
    | pornRise =>
      refine ⟨_, rfl, ?_⟩
      split
      · exact (Keeps.refl s).laws_kept
      · exact pornRises_laws s
    | recordRead => exact running s State.readRecord fun _ => (readRecord_decided s).toLawsKept
    | frameDropped f => exact running s (·.receiveRaw f) fun _ => receiveRaw_laws s f
    | frameTransmitted => exact running_keeps s State.transmit (transmit_keeps s)
    | linkDiscard => exact running_keeps s State.discardHead (discardHead_keeps s)
    | linkStateChange up => exact ⟨_, rfl, (setLink_keeps s up).laws_kept⟩
    | characterFramed n d p q => exact running_keeps s (·.stopSample n d p q) (stopSample_keeps s n d p q)
    | lowHoldRise n => exact running_keeps s (·.lowRise n) (lowRise_keeps s n)
    | breakDetected n => exact running_keeps s (·.breakBegins n) (breakBegins_keeps s n)
    | breakEnd n => exact running_keeps s (·.breakEnds n) (breakEnds_keeps s n)
    | quietElapsed n => exact running_keeps s (·.quietEnds n) (quietEnds_keeps s n)
    | characterSent n => exact running_keeps s (·.charSent n) (charSent_keeps s n)
    | breakLowEnd n => exact running_keeps s (·.breakRises n) (breakRises_keeps s n)
    | breakHighEnd n => exact running_keeps s (·.breakSent n) (breakSent_keeps s n)
    | flushTimerExpiry n => exact running_keeps s (·.flushExpires n) (flushExpires_keeps s n)
    | leaseExpiry n i => exact running_keeps s (·.leaseExpires n i) (leaseExpires_keeps s n i)
    | escapeWindowExpiry n i => exact running_keeps s (·.windowExpires n i) (windowExpires_keeps s n i)
    | pgoodLevelChange n high => exact pinned s (·.pgoodLevel n high) _ (pgoodLevel_keeps s n high) (fun _ => putPower_keeps s id id)
    | pgoodFilterExpiry n => exact running_keeps s (·.filterExpires n) (filterExpires_keeps s n)
    | pressWidthExpiry n => exact running_keeps s (fun a => a.phaseEnds n Power.pressing (·.pressEnds n)) (phaseEnds_keeps s fun _ _ => pressEnds_keeps _ n)
    | onTimeoutExpiry n => exact running_keeps s (fun a => a.phaseEnds n (fun p => p.state == .starting && !p.button)
    (fun b => b.enterOff n .onFailed (b.pw n).action)) (phaseEnds_keeps s fun _ _ => enterOff_keeps _ n _ _)
    | softOffTimeoutExpiry n => exact running_keeps s (fun a => a.phaseEnds n (fun p => p.state == .softStopping && !p.button)
    (fun b => b.enterOn n .softOffFailed false false)) (phaseEnds_keeps s fun _ _ => enterOn_keeps _ n _ _ _)
    | holdWidthExpiry n => exact running_keeps s (fun a => a.phaseEnds n (fun p => p.state == .hardStopping) (fun b => b.enterOn n .hardOffFailed false false)) (phaseEnds_keeps s fun _ _ => enterOn_keeps _ n _ _ _)
    | resetWidthExpiry n => exact running_keeps s (fun a => a.phaseEnds n (fun p => p.state == .resetting) (fun b => b.enterOn n .resetDone false true)) (phaseEnds_keeps s fun _ _ => enterOn_keeps _ n _ _ _)
    | dwellExpiry n => exact running_keeps s (fun a => a.phaseEnds n (fun p => p.state == .dwelling) (fun b => b.beginStarting n (b.pw n).action)) (phaseEnds_keeps s fun _ h => dwellEnds_keeps _ (by simpa using h))
    | releasedTickEnd n => exact running_keeps s (·.tickExpires n) (tickExpires_keeps s n)
    | reattachTimerExpiry n => exact running s (·.reattachExpires n) fun hp => (reattachExpires_keeps s n hp).laws_kept
    | watchTimerExpiry n => exact running_keeps s (·.watchExpires n) (watchExpires_keeps s n)
    | busPowerChange n on => exact pinned s (·.setBusPower n on) _ (setBusPower_keeps s n on) (fun hp => powerOn_off_keeps s hp)
    | nodeAbort n => exact running_keeps s (·.abortRequest n) (abortRequest_keeps s n)
    | undefinedBlockRequest n => exact running_keeps s (·.offerRequest n (·.status n .badRequest none)) (offerRequest_keeps s fun _ => status_keeps s n _ _)
    | identify n => exact running_keeps s (·.offerRequest n (·.answerIdentify n)) (offerRequest_keeps s fun _ => (putSense_keeps s n _ _).trans (give_keeps _ n _))
    | ready n => exact running_keeps s (·.offerRequest n (·.answerReady n)) (offerRequest_keeps s fun _ => answerReady_keeps s n)
    | capacity n => exact running_keeps s (·.offerRequest n (·.answerCapacity n)) (offerRequest_keeps s fun _ => answerCapacity_keeps s n)
    | sense n => exact running_keeps s (·.offerRequest n (·.answerSense n)) (offerRequest_keeps s fun _ => (give_keeps s n _).trans (putSense_keeps _ n _ _))
    | prevent n => exact running_keeps s (·.offerRequest n (·.setLock n true)) (offerRequest_keeps s fun _ => (putPort_keeps_of_same s).trans (status_keeps _ n _ _))
    | allow n => exact running_keeps s (·.offerRequest n (·.setLock n false)) (offerRequest_keeps s fun _ => (putPort_keeps_of_same s).trans (status_keeps _ n _ _))
    | read n lba count => exact running_keeps s (·.offerRequest n (·.decideRead n lba.toNat count.toNat)) (offerRequest_keeps s fun ha => decideRead_keeps s ha _ _)
    | write n lba count => exact running_keeps s (·.offerRequest n (·.decideWrite n lba.toNat count.toNat)) (offerRequest_keeps s fun ha => decideWrite_keeps s ha _ _)
    | ejectByNode n => exact running_keeps s (·.offerRequest n (·.nodeEject n)) (offerRequest_keeps s fun _ => nodeEject_keeps s n)
    | dataPoll n room => exact running_keeps s (·.poll n room) (poll_keeps s n room)
    | writeDataReceived n data => exact running_keeps s (·.writeData n data) (writeData_keeps s n data)
    | openTimerExpiry r => exact running_keeps s (·.openExpires r) (openExpires_keeps s r)
    | fetchTimerExpiry f => exact running_keeps s (·.fetchExpires f) (fetchExpires_keeps s f)
    | writeTimerExpiry n => exact running_keeps s (·.writeExpires n) (writeExpires_keeps s n)
    | gapTimerExpiry id => exact running_keeps s (·.gapExpires id) (gapExpires_keeps s id)
    | pageWriteFinished => exact running s State.pageFinished fun _ => (pageFinished_decided s).toLawsKept
    | pageWriteTimeout => exact running s State.pageExpires fun _ => (pageExpires_decided s).toLawsKept
    | startBit n => exact running_keeps s (·.startBit n) (startBit_keeps s n)
    | falseStart n => exact running_keeps s (·.falseStart n) (falseStart_keeps s n)
    | quietWaitRestart n high => exact pinned s (·.quietEdge n high) _ (quietEdge_keeps s n high) (fun _ => quietEdge_keeps s n high)
    | _ => cases hf

/-- What a step keeps: the laws, and all but the time where the queue of commands is empty (log entry 10). -/
theorem step_laws {s t : State} (h : step s = .next t) :
    ∃ u, LawsKept u t ∧ (u = s ∨ ∃ q, u = s.putPending q) := by
  unfold step at h
  split at h
  · cases h; exact ⟨s, (reachUs_keeps s _).laws_kept, .inl rfl⟩
  · next c q _ =>
    obtain ⟨u, hu, laws⟩ := exec_laws (s.putPending q) c
    rw [hu] at h
    cases h
    exact ⟨_, laws, .inr ⟨q, rfl⟩⟩

/-- A law that does not look at the queue and that every operation keeps is kept by every step. -/
theorem kept_of_laws {law : State → Prop} (hq : ∀ s q, law s → law (s.putPending q)) (hk : ∀ s t, LawsKept s t → law s → law t) :
    KeptByEveryStep law := by
  intro s t hs h
  obtain ⟨u, laws, rfl | ⟨q, rfl⟩⟩ := step_laws h
  · exact hk _ _ laws hs
  · exact hk _ _ laws (hq s q hs)

/-! ## The obligations -/

/-- Settles O2: every command ends in a next state that leaves straps and queue, as each keeps them with the laws. -/
theorem everyCommandCompletes : Obligations.EveryCommandCompletes := by
  intro c s
  obtain ⟨t, h, laws⟩ := exec_laws s c
  exact ⟨t, h, laws.pending, laws.straps⟩

/-- Settles O3. -/
theorem configurationMemoryStaysCanonical : Obligations.ConfigurationMemoryStaysCanonical :=
  kept_of_laws (fun _ _ h => h) fun _ _ k => k.config

/-- Settles O4. -/
theorem powerPortAndWatchStayConsistent : Obligations.PowerPortAndWatchStayConsistent :=
  ⟨kept_of_laws (fun _ _ h => h) fun _ _ k => k.laws.power, kept_of_laws (fun _ _ h => h) fun _ _ k => k.port,
    kept_of_laws (fun _ _ h => h) fun _ _ k => k.laws.watch⟩

/-- Settles O5. -/
theorem attachmentsStayEntitled : Obligations.AttachmentsStayEntitled :=
  kept_of_laws (fun _ _ h => h) fun _ _ k => k.laws.attach

/-- Settles O6. -/
theorem lineCountersStayBounded : Obligations.LineCountersStayBounded :=
  kept_of_laws (fun _ _ h => h) fun _ _ k => k.laws.line

/-- Settles O7. -/
theorem reserveAndPendingSetsAreKept : Obligations.ReserveAndPendingSetsAreKept :=
  ⟨kept_of_laws (fun _ _ h => h) fun _ _ k => k.laws.descriptor, kept_of_laws (fun _ _ h => h) fun _ _ k => k.laws.notice⟩

/-- Settles O8. -/
theorem stationTableStaysUnambiguous : Obligations.StationTableStaysUnambiguous :=
  kept_of_laws (fun _ _ h => h) fun _ _ k => k.station

/-- Settles O9. -/
theorem poolCellsAndReservationAreKept : Obligations.PoolCellsAndReservationAreKept :=
  kept_of_laws (fun _ _ h => h) fun _ _ k => k.laws.cell

/-- Settles O10. -/
theorem imageRecordsMatchTheirUsers : Obligations.ImageRecordsMatchTheirUsers :=
  ⟨kept_of_laws (fun _ _ h => h) fun _ _ k => k.image, kept_of_laws (fun _ _ h => h) fun _ _ k => k.fetch⟩

/-- Settles O11: the state after power-on reset has every block in its initial state. -/
theorem resetMeetsEveryLaw : Obligations.ResetMeetsEveryLaw := by
  have h := reset_initial
  exact ⟨reset_memWf, h.powerLaw, h.portLaw, h.attachLaw, h.watchLaw, h.lineLaw, h.descriptorLaw, h.stationLaw, h.noticeLaw,
    h.cellLaw, h.imageLaw, h.fetchLaw⟩

end Sys2Proof.Machine
end

section
/-! PROOFS. The rules for commands: how a command that runs, a frame that is taken and a request that is owned become the effect of
the operation that decides them, and what the end of a step then leaves. -/
namespace Sys2Proof.Machine

-- Side by side, the proofs of this text would need more thread stacks than the check's memory limit holds.
set_option Elab.async false

variable {s e t u : State}

/-! ## Commands that run -/

/-- A command that runs an operation completes with what the operation's result settles. -/
theorem completes_of {c : Instr} {f : State → State} (hc : exec c s = s.whenRunning f) (hp : s.porn = true)
    (h : Settles e (f s)) : Completes c s e := by
  obtain ⟨t, ht, hs⟩ := whenRunning_settles s f hp
  exact ⟨t, hc.trans ht, h.trans hs⟩

theorem completes_of_eq {c : Instr} {f : State → State} (hc : exec c s = s.whenRunning f) (hp : s.porn = true)
    (h : f s = e) : Completes c s e := completes_of hc hp (h ▸ .refl _)

/-- The state a running command ends in. -/
theorem exec_running {c : Instr} {f : State → State} (hc : exec c s = s.whenRunning f) (hp : s.porn = true) :
    exec c s = .next (f s).finish := by
  rw [hc, State.whenRunning, if_pos hp]

/-- A command that runs an operation ends in a state the operation's result settles in. -/
theorem exec_settles {c : Instr} {f : State → State} (hc : exec c s = s.whenRunning f) (hp : s.porn = true) :
    ∃ t, exec c s = .next t ∧ Settles (f s) t := ⟨_, exec_running hc hp, finish_settles _⟩

/-! ## Answers (R179, R181, R186) -/

theorem frames_enqueue (f : TxFrame) : (s.enqueue f).up.frames = s.up.frames ++ [f] := by
  simp [Uplink.frames]

/-- An answer joins an effect and what settles of it alike. -/
theorem UplinkSettled.answer (h : UplinkSettled e.promise t) (hd : Head) (k : Byte) (r : Result) (b : List Byte) :
    UplinkSettled (e.withAnswer hd k r b) (t.answer hd k r b) := by
  rw [uplinkSettled_iff] at *
  refine ⟨congrArg (fun u : Uplink => { u with promised := u.promised - 1 }) h.1, fun f _ => ?_⟩
  have := h.2.count_le f
  rw [State.withAnswer, State.answer, frames_enqueue, frames_enqueue, List.count_append, List.count_append]
  exact Nat.add_le_add_right this _

theorem NoticesSettled.answer (h : NoticesSettled e t) (hd : Head) (k : Byte) (r : Result) (b : List Byte) :
    NoticesSettled (e.withAnswer hd k r b) (t.answer hd k r b) := by
  refine ⟨h.1, fun id => (h.2 id).imp_right fun ⟨h1, h2, h3, h4⟩ => ⟨h1, h2, h3, fun f hf => ?_⟩⟩
  rw [State.answer, frames_enqueue]
  exact List.mem_append_left _ (h4 f hf)

theorem Settles.answer (h : Settles e.promise t) (hd : Head) (k : Byte) (r : Result) (b : List Byte) :
    Settles (e.withAnswer hd k r b) (t.answer hd k r b) := by
  obtain ⟨hdel, hpool, hfetch⟩ := h
  rw [delivers_iff] at hdel
  obtain ⟨h1, h2, h3, h4, h5⟩ := hdel
  exact ⟨delivers_iff.mpr ⟨h1, h2, h3.answer hd k r b, h4, h5.answer (e := e.promise) hd k r b⟩, hpool, hfetch⟩

/-! ## Frames taken (R6 to R9, R178) -/

section
variable {c : Instr} {h : Head} {kind : Byte} {body : List Byte} {i : StationIx} {k : RequestKind} {n : NodeId} {p : SetId}

theorem Arrives.exec_eq (ha : Arrives s c h kind body) : exec c s = .next (s.promise.steer h kind body).finish := by
  obtain ⟨hp, hm, bytes, hf, hd, hb⟩ := ha
  rw [exec_running (exec_frame s hf) hp, State.receive, hd, hm, ← hb]
  rfl

theorem Takes.exec_eq (ha : Takes s c h kind body i) : exec c s = .next (s.promise.takeKnown i h kind body).finish := by
  have hs : s.promise.findStation h.src = some i := ha.sender
  rw [ha.toArrives.exec_eq, State.steer, if_pos (show s.promise.su.commissioning = _ from ha.commissioned), hs]

/-- A reply of a known station is decided and its promise released (R146). -/
theorem Takes.exec_reply {k : ReplyKind} (ha : Takes s c h kind body i) (hk : kindClass kind = .reply k) :
    exec c s = .next ((s.promise.takeReply i k body).release).finish := by
  rw [ha.exec_eq, State.takeKnown, hk]

/-- A request of a known station is decided and answered (R7 to R9). -/
theorem Takes.exec_request (ha : Takes s c h kind body i) (hk : kindClass kind = .request k) :
    exec c s = .next ((s.promise.decideRequest i k h.node body).answer h kind).finish := by
  rw [ha.exec_eq, State.takeKnown, hk]

/-- The block that owns a permitted request decides it (R9). -/
def State.owner (s : State) (i : StationIx) (k : RequestKind) (p : SetId) (node : Byte) (b : List Byte) : Decision :=
  match p with
  | some n => s.passNode i k n node b
  | none => s.passPart i k node b

theorem decideRequest_eq {node : Byte} (hw : wellFormedFor k node body = some p) (hr : s.permitted i k p body = true) :
    s.decideRequest i k node body = s.owner i k p node body := by
  rw [State.decideRequest, hw]
  simp only [hr]
  cases p <;> rfl

theorem Owned.exec_eq (ha : Owned s c h kind body i k p) :
    exec c s = .next ((s.promise.owner i k p h.node body).answer h kind).finish := by
  rw [ha.toTakes.exec_request ha.request, decideRequest_eq ha.place (s := s.promise) ha.right]

/-- A request whose decision settles an effect is answered so. -/
theorem Takes.answers (ha : Takes s c h kind body i) (hk : kindClass kind = .request k) {r : Result} {b : List Byte}
    (hd : s.promise.decideRequest i k h.node body = ⟨t, r, b⟩) (he : Settles e.promise t) : Answers c s h kind e r b := by
  rw [Answers, Completes, ha.exec_request hk, hd]
  exact ⟨_, rfl, (he.answer h kind r b).trans (finish_settles _)⟩

theorem Owned.answers (ha : Owned s c h kind body i k p) {r : Result} {b : List Byte}
    (hd : s.promise.owner i k p h.node body = ⟨t, r, b⟩) (he : Settles e.promise t) : Answers c s h kind e r b :=
  ha.toTakes.answers ha.request ((decideRequest_eq ha.place (s := s.promise) ha.right).trans hd) he

/-- A request whose decision is an effect exactly. -/
theorem Owned.answers_eq (ha : Owned s c h kind body i k p) {r : Result} {b : List Byte}
    (hd : s.promise.owner i k p h.node body = ⟨e.promise, r, b⟩) : Answers c s h kind e r b := ha.answers hd (.refl _)

/-- A request refused changes nothing. -/
theorem Owned.refused (ha : Owned s c h kind body i k p) {r : Result}
    (hd : s.promise.owner i k p h.node body = s.promise.refuse r) : Answers c s h kind s r [] := ha.answers_eq hd

/-- The state an owned request ends in, by its decision. -/
theorem Owned.ends (ha : Owned s c h kind body i k p) {r : Result} {b : List Byte}
    (hd : s.promise.owner i k p h.node body = ⟨t, r, b⟩) :
    ∃ v, exec c s = .next v ∧ Settles (t.answer h kind r b) v := by
  rw [ha.exec_eq, hd]
  exact ⟨_, rfl, finish_settles _⟩

end

/-! ## What an operation leaves, and what the end of a step then leaves -/

/-- Frames joined the transmit queue, and nothing else of the uplink changed. -/
def UplinkGrows (s t : State) : Prop := ∃ q, t.up = { s.up with queue := s.up.queue ++ q }

theorem UplinkGrows.settled (h : UplinkGrows s t) : UplinkSettled s t := by
  obtain ⟨q, hq⟩ := h
  refine uplinkSettled_iff.mpr ⟨by rw [hq]; rfl, fun f _ => ?_⟩
  rw [hq]
  exact (framesKept_append s q).count_le f

theorem UplinkGrows.trans (h : UplinkGrows s t) (k : UplinkGrows t u) : UplinkGrows s u := by
  obtain ⟨q, hq⟩ := h
  obtain ⟨r, hr⟩ := k
  exact ⟨q ++ r, by rw [hr, hq, List.append_assoc]⟩

theorem UplinkGrows.of_eq (h : t.up = s.up) : UplinkGrows s t := ⟨[], by rw [h, List.append_nil]⟩

theorem NodeWork.uplink {n : NodeId} (h : NodeWork n s t) : UplinkGrows s t := by
  obtain ⟨ln, st, pw, wt, pt, m, p, im, q, nt, rfl, -⟩ := h
  exact ⟨q, rfl⟩

theorem MediaWork.uplink {ns : NodeId → Prop} (h : MediaWork ns s t) : UplinkGrows s t := by
  obtain ⟨st, p, im, q, pt, nt, rfl, -⟩ := h
  exact ⟨q, rfl⟩

theorem Settles.delivers (h : Settles s t) : Delivers s t := h.1

theorem Delivers.uplink (h : Delivers s t) : UplinkSettled s t := (delivers_iff.mp h).2.2.1

theorem Delivers.images (h : Delivers s t) : ImagesSettled s t := (delivers_iff.mp h).2.2.2.1

theorem Delivers.notices (h : Delivers s t) : NoticesSettled s t := (delivers_iff.mp h).2.2.2.2

theorem Delivers.streams (h : Delivers s t) : StreamsSettled s t := (delivers_iff.mp h).2.1

theorem Delivers.still_eq (h : Delivers s t) : t.still = s.still := (delivers_iff.mp h).1

theorem Delivers.kept (h : Delivers s t) : FramesKept s t := h.uplink.kept

theorem Delivers.su_eq (h : Delivers s t) : t.su = s.su := (congrArg State.su h.still_eq :)

theorem Delivers.now_eq (h : Delivers s t) : t.now = s.now := (congrArg State.now h.still_eq :)

theorem Delivers.pw_eq (h : Delivers s t) (n : NodeId) : t.pw n = s.pw n :=
  (congrArg (fun x : State => x.power.get n) h.still_eq :)

theorem Delivers.wt_eq (h : Delivers s t) (n : NodeId) : t.wt n = s.wt n :=
  (congrArg (fun x : State => x.watches.get n) h.still_eq :)

theorem Delivers.port_eq (h : Delivers s t) (n : NodeId) : t.port n = s.port n :=
  (congrArg (fun x : State => x.ports.get n) h.still_eq :)

theorem Delivers.line_eq (h : Delivers s t) (n : NodeId) : t.lines.get n = s.lines.get n :=
  (congrArg (fun x : State => x.lines.get n) h.still_eq :)

theorem Delivers.matcher_eq (h : Delivers s t) : t.matcher = s.matcher := (congrArg State.matcher h.still_eq :)

/-- The end of a step after an answer: what was pending may leave as before it. -/
theorem Delivers.notices_trans {a : State} (h : Delivers s t) (hn : NoticesSettled a s) (hu : s.su = a.su) (ht : s.now = a.now) :
    NoticesSettled a t := .trans hu ht h.kept hn h.notices

theorem NodeWork.elsewhere {n : NodeId} (h : NodeWork n s t) : ElsewhereKept n s t := by
  obtain ⟨ln, st, pw, wt, pt, m, p, im, q, nt, rfl, hst, hm, hi, hg⟩ := h
  refine ⟨rfl, rfl, rfl, rfl, rfl, rfl, rfl, rfl, rfl, rfl, hi, hg, fun k hk => ?_⟩
  obtain ⟨c, a, r, hr⟩ := hst k hk
  refine ⟨Tab.get_put_ne _ _ hk, Tab.get_put_ne _ _ hk, Tab.get_put_ne _ _ hk, Tab.get_put_ne _ _ hk, (hm k hk).1, (hm k hk).2, ?_⟩
  show StreamSettled _ (st.get k)
  rw [hr]
  exact .refl _

theorem ElsewhereKept.trans {n : NodeId} (h : ElsewhereKept n s t) (k : ElsewhereKept n t u) : ElsewhereKept n s u := by
  obtain ⟨h1, h2, h3, h4, h5, h6, h7, h8, h9, h10, h11, h12, h13⟩ := h
  obtain ⟨k1, k2, k3, k4, k5, k6, k7, k8, k9, k10, k11, k12, k13⟩ := k
  refine ⟨k1.trans h1, k2.trans h2, k3.trans h3, k4.trans h4, k5.trans h5, k6.trans h6, k7.trans h7, k8.trans h8, k9.trans h9,
    k10.trans h10, k11.trans h11, k12.trans h12, fun m hm => ?_⟩
  obtain ⟨a1, a2, a3, a4, a5, a6, a7⟩ := h13 m hm
  obtain ⟨b1, b2, b3, b4, b5, b6, b7⟩ := k13 m hm
  exact ⟨b1.trans a1, b2.trans a2, b3.trans a3, b4.trans a4, b5.trans a5, b6.trans a6, a7.trans b7⟩

theorem Delivers.elsewhere {n : NodeId} (h : Delivers s t) : ElsewhereKept n s t := by
  obtain ⟨h1, h2, h3, h4, h5, h6, h7, h8, h9, h10, h11, h12, h13, h14, hs, -, hi, hn⟩ := h
  refine ⟨h1, h2, h3, h4, h6, h11, h12, h13, h14, congrArg Matcher.table h7, hi.2.2.2.2.2.2, hn.1, fun m _ => ?_⟩
  exact ⟨congrArg (Tab.get · m) h5, congrArg (Tab.get · m) h8, congrArg (Tab.get · m) h9, congrArg (Tab.get · m) h10,
    congrArg (Tab.get · m) (congrArg Matcher.progress h7), congrArg (Tab.get · m) (congrArg Matcher.lineStart h7), hs m⟩

theorem ConsoleKept.trans {n : NodeId} (h : ConsoleKept n s t) (k : ConsoleKept n t u) : ConsoleKept n s u :=
  ⟨k.1.trans h.1, h.2.1.trans k.2.1, k.2.2.1.trans h.2.2.1, k.2.2.2.trans h.2.2.2⟩

theorem ConsoleKept.refl (n : NodeId) (s : State) : ConsoleKept n s s := ⟨rfl, .refl _, rfl, rfl⟩

theorem Delivers.console {n : NodeId} (h : Delivers s t) : ConsoleKept n s t :=
  ⟨h.line_eq n, h.streams n, by rw [h.matcher_eq], by rw [h.matcher_eq]⟩

theorem PoolWork.console {n : NodeId} (h : PoolWork s t) : ConsoleKept n s t := h.delivers.console

theorem MediaWork.console {ns : NodeId → Prop} {n : NodeId} (h : MediaWork ns s t) : ConsoleKept n s t := by
  obtain ⟨st, p, im, q, pt, nt, rfl, hst, -⟩ := h
  obtain ⟨c, a, r, hr⟩ := hst n
  refine ⟨rfl, ?_, rfl, rfl⟩
  show StreamSettled _ (st.get n)
  rw [hr]
  exact .refl _

theorem MediaWork.wt_eq {ns : NodeId → Prop} (h : MediaWork ns s t) (n : NodeId) : t.wt n = s.wt n := by
  obtain ⟨st, p, im, q, pt, nt, rfl, -⟩ := h
  rfl

/-- An effect and its answer leave what the effect leaves elsewhere. -/
theorem ElsewhereKept.answered {n : NodeId} (h : ElsewhereKept n s.promise t) (hd : Head) (k : Byte) (r : Result) (b : List Byte) :
    ElsewhereKept n s (t.answer hd k r b) := h

end Sys2Proof.Machine
end

section
/-! PROOFS. Received frames: the bytes of a frame, the checks of R178, and what the deciding blocks leave of the rest of the part. -/
namespace Sys2Proof.Machine

-- Side by side, the proofs of this text would need more thread stacks than the check's memory limit holds.
set_option Elab.async false

/-! ## Bytes (R179) -/

theorem nodeOfByte_nodeByte (n : NodeId) : nodeOfByte (nodeByte n) = some n := by
  revert n; decide

theorem nodeOfByte_eq_some {b : Byte} {n : NodeId} : nodeOfByte b = some n ↔ b = nodeByte n := by
  refine ⟨fun h => ?_, fun h => h ▸ nodeOfByte_nodeByte n⟩
  rw [nodeOfByte] at h
  split at h
  · cases h; simp [nodeByte]
  · cases h

theorem bodyNode_of_head {n : NodeId} {b : List Byte} (h : b.head? = some (nodeByte n)) : bodyNode (nodeByte n) b = some n := by
  cases b with
  | nil => cases h
  | cons x xs => cases h; simp [bodyNode, nodeOfByte_nodeByte]

theorem bodyNode_of_ne {n : NodeId} {b : List Byte} (h : b.head? ≠ some (nodeByte n)) : bodyNode (nodeByte n) b = none := by
  cases b with
  | nil => rfl
  | cons x xs => simp only [bodyNode, if_neg (show x ≠ nodeByte n from fun e => h (e ▸ rfl))]

/-- The place of a well-formed request of a node is the node its header names (R7). -/
theorem node_of_wellFormed {k : RequestKind} {node : Byte} {b : List Byte} {n : NodeId}
    (h : wellFormedFor k node b = some (some n)) : node = nodeByte n := by
  have hp : placeOf node = some (some n) := by
    rw [wellFormedFor] at h
    split at h
    · next h2 => cases h; exact h2
    · cases h
    · next h2 => cases h; exact h2
    · cases h
  rw [placeOf] at hp
  split at hp
  · cases hp
  · obtain ⟨m, hm, e⟩ := Option.map_eq_some_iff.mp hp
    cases e
    exact nodeOfByte_eq_some.mp hm

theorem Owned.node {s : State} {c : Instr} {h : Head} {kind : Byte} {body : List Byte} {i : StationIx} {k : RequestKind} {n : NodeId}
    (ha : Owned s c h kind body i k (some n)) : h.node = nodeByte n := node_of_wellFormed ha.place

theorem be_two (x : BitVec 16) : ∃ a b : Byte, be 2 x.toNat = [a, b] ∧ a ++ b = x :=
  ⟨BitVec.ofNat 8 (x.toNat / 256), BitVec.ofNat 8 x.toNat, by simp [be], by
    apply BitVec.eq_of_toNat_eq
    rw [BitVec.toNat_append, ← Nat.shiftLeft_add_eq_or_of_lt (BitVec.isLt _)]
    simp only [BitVec.toNat_ofNat, Nat.shiftLeft_eq]
    omega⟩

theorem ofBe_two (a b : Byte) : ofBe [a, b] = (a ++ b).toNat := by
  rw [BitVec.toNat_append, ← Nat.shiftLeft_add_eq_or_of_lt (BitVec.isLt _), Nat.shiftLeft_eq]
  simp [ofBe]

/-! ## Receive checks (R178) -/

/-- A frame as its receive checks see it, whether it holds a whole header or not. -/
def rxView (f : RawFrame) : RxView :=
  ⟨f.dst, f.vlan, f.ethertype, f.payload[1]?, f.payload[0]?,
    if 8 ≤ f.payload.length then some (field f.payload 6 2, f.payload.length - 8) else none⟩

theorem rxView_of_parse {f : RawFrame} {h : Head} {kind : Byte} {b : List Byte} (hp : parseFrame f = some (h, kind, b)) :
    headView h kind b = rxView f := by
  rw [parseFrame] at hp
  split at hp
  · next hf =>
    cases hp
    rw [headView, rxView, hf]
    simp [field, ofBe_two]
  · cases hp

theorem rxView_of_short {f : RawFrame} (hp : parseFrame f = none) : shortView f = rxView f := by
  rw [shortView, rxView, if_neg]
  intro hl
  rw [parseFrame] at hp
  split at hp
  · cases hp
  · next hf =>
    match hb : f.payload, hl with
    | a :: b :: c :: d :: e :: g :: i :: j :: rest, _ => exact hf _ _ _ _ _ _ _ _ _ hb

theorem parseFrame_headRaw (h : Head) (kind : Byte) (b : List Byte) : parseFrame (headRaw h kind b) = some (h, kind, b) := by
  obtain ⟨t1, t0, ht, ht'⟩ := be_two h.tag
  obtain ⟨l1, l0, hl, hl'⟩ := be_two h.len
  rw [headRaw, ht, hl, parseFrame]
  simp [ht', hl']

variable (s : State)

/-- What the MAC brings is checked once, as one frame, whatever it holds (R178). -/
theorem receiveRaw_of_cause {f : RawFrame} {c : DropCause} (hm : s.up.macEnabled = true) (h : s.dropCause (rxView f) = some c) :
    s.receiveRaw f = s.drop c := by
  rw [State.receiveRaw]
  split
  · next hp => rw [State.receive, hm, rxView_of_parse hp, h]; rfl
  · next hp => rw [hm, rxView_of_short hp, h]; rfl

theorem receiveRaw_of_passed {f : RawFrame} (hm : s.up.macEnabled = true) (h : s.dropCause (rxView f) = none) :
    s.receiveRaw f = s ∨ ∃ hd kind b, s.receiveRaw f = s.promise.steer hd kind b := by
  rw [State.receiveRaw]
  split
  · next hd kind b hp =>
    refine .inr ⟨hd, kind, b.take hd.len.toNat, ?_⟩
    rw [State.receive, hm, rxView_of_parse hp, h]
    rfl
  · next hp =>
    left
    rw [hm, rxView_of_short hp, h]
    rfl

/-- A command that brings a frame runs the frame, whatever its row (R178). -/
theorem exec_raw {c : Instr} {f : RawFrame} (h : rawOf c = some f) : exec c s = s.whenRunning (·.receiveRaw f) := by
  unfold rawOf at h
  split at h
  · next hd kind b c' hf =>
    cases h
    rw [exec_frame s hf]
    congr 1
    funext a
    rw [State.receiveRaw, parseFrame_headRaw]
  · cases h; rfl
  · cases h

/-! ## What the owners leave of the uplink -/

theorem takeAttach_node (i : StationIx) (n : NodeId) (b : List Byte) : NodeWork n s (s.takeAttach i n b).state := by
  rw [State.takeAttach]
  split
  · exact renewLease_node s i
  · dsimp only
    split
    · exact putStream_node s _
    · split
      · exact .refl s
      · exact (putStream_node s _).trans (offerMark_node _ _)

theorem takeDetach_node (i : StationIx) (n : NodeId) (b : List Byte) : NodeWork n s (s.takeDetach i n b).state := by
  rw [State.takeDetach]
  split
  · exact .refl s
  · split
    · exact detach_node s i
    · exact .refl s

theorem takeRenew_node (i : StationIx) (n : NodeId) (b : List Byte) : NodeWork n s (s.takeRenew i n b).state := by
  rw [State.takeRenew]
  split
  · exact renewLease_node s i
  · split
    · exact renewLease_node s i
    · exact .refl s

theorem takeReplay_node (i : StationIx) (n : NodeId) (b : List Byte) : NodeWork n s (s.takeReplay i n b).state := by
  rw [State.takeReplay]
  split
  · exact renewLease_node s i
  · split
    · exact .refl s
    · refine (renewLease_node s i).trans ?_
      rw [State.startReplay]
      split
      · exact .refl _
      · split
        · exact .refl _
        · exact putStream_node _ _

theorem takeInput_node (i : StationIx) (n : NodeId) (b : List Byte) : NodeWork n s (s.takeInput i n b).state := by
  rw [State.takeInput]
  split
  · exact renewLease_node s i
  · split
    · exact .refl s
    · split
      · exact renewLease_node s i
      · exact (renewLease_node s i).trans (typeBytes_node _ i 0 .none b)

theorem takePower_node (i : StationIx) (n : NodeId) (b : List Byte) : NodeWork n s (s.takePower i n b).state := by
  unfold State.takePower
  split
  · split
    · exact .refl s
    · dsimp only
      split
      · exact .refl s
      · exact offerAction_node s _
  · exact .refl s

theorem takeClearHold_node (n : NodeId) (b : List Byte) : NodeWork n s (s.takeClearHold n b).state := by
  rw [State.takeClearHold]
  split
  · exact .refl s
  · split
    · exact putWatch_node s _
    · exact .refl s

theorem takeBootOk_node (i : StationIx) (n : NodeId) (b : List Byte) : NodeWork n s (s.takeBootOk i n b).state := by
  rw [State.takeBootOk]
  split
  · exact .refl s
  · split
    · exact satisfy_node s _
    · exact .refl s
    · exact .refl s

theorem takeInsert_node (n : NodeId) (b : List Byte) : NodeWork n s (s.takeInsert n b).state := by
  rw [State.takeInsert]
  split
  · split
    · exact .refl s
    · exact (insert_media s (ns := (· = n)) rfl _ _ _ _).node
  · exact .refl s

theorem takeEject_node (i : StationIx) (n : NodeId) (b : List Byte) : NodeWork n s (s.takeEject i n b).state := by
  unfold State.takeEject
  split
  · exact (stationEject_media s (ns := (· = n)) rfl _ _).node
  · exact .refl s

/-- The six drop counts stand. -/
def DropsKept (s t : State) : Prop := t.up.drops = s.up.drops

section
variable {s} {t u : State}

theorem DropsKept.refl (s : State) : DropsKept s s := rfl

theorem DropsKept.trans (h : DropsKept s t) (k : DropsKept t u) : DropsKept s u := Eq.trans k h

theorem DropsKept.promise (h : DropsKept s t) : DropsKept s t.promise := h

theorem UplinkGrows.drops (h : UplinkGrows s t) : DropsKept s t := by
  obtain ⟨q, hq⟩ := h
  rw [DropsKept, hq]

theorem NodeWork.drops {n : NodeId} (h : NodeWork n s t) : DropsKept s t := h.uplink.drops

theorem UplinkGrows.refl (s : State) : UplinkGrows s s := .of_eq rfl

theorem PoolWork.uplink (h : PoolWork s t) : UplinkGrows s t := (h.media (ns := fun _ => True)).uplink

end

theorem reviewAttachment_node (i : StationIx) (gone : Bool) (n : NodeId) : NodeWork n s (State.reviewAttachment i gone s n) := by
  rw [State.reviewAttachment]
  split
  · exact .refl s
  · split
    · exact detach_node s i
    · split
      · exact putStream_node s _
      · exact .refl s

theorem reviewMedium_media (i : StationIx) (gone : Bool) (n : NodeId) :
    MediaWork (· = n) s (State.reviewMedium i gone s n) := by
  rw [State.reviewMedium]
  split
  · exact forceEjectLost_media s rfl
  · exact .refl s

theorem foldl_uplink {α : Type} {f : State → α → State} {l : List α} (h : ∀ a, ∀ x ∈ l, UplinkGrows a (f a x)) :
    UplinkGrows s (l.foldl f s) :=
  foldl_keeps (R := UplinkGrows) .refl .trans l h s

/-- What the replacement of a station's entry can make of a state whose table has the entry: the streams, ports, images, the pool and
the pending sets change, and frames join the transmit queue (R12 to R14). -/
def BlocksWork (s t : State) : Prop :=
  ∃ st p im q pt nt, t = { s with
    streams := st, pool := p, images := im, up := { s.up with queue := s.up.queue ++ q }, ports := pt, notices := nt }

theorem BlocksWork.refl (s : State) : BlocksWork s s := ⟨_, _, _, [], _, _, by rw [List.append_nil]⟩

theorem BlocksWork.trans {s t u : State} (h : BlocksWork s t) (k : BlocksWork t u) : BlocksWork s u := by
  obtain ⟨st, p, im, q, pt, nt, rfl⟩ := h
  obtain ⟨st', p', im', q', pt', nt', rfl⟩ := k
  exact ⟨st', p', im', q ++ q', pt', nt', by simp [List.append_assoc]⟩

theorem MediaWork.blocks {ns : NodeId → Prop} {s t : State} (h : MediaWork ns s t) : BlocksWork s t := by
  obtain ⟨st, p, im, q, pt, nt, rfl, -⟩ := h
  exact ⟨st, p, im, q, pt, nt, rfl⟩

theorem BlocksWork.uplink {s t : State} (h : BlocksWork s t) : UplinkGrows s t := by
  obtain ⟨st, p, im, q, pt, nt, rfl⟩ := h
  exact ⟨q, rfl⟩

theorem BlocksWork.now_eq {s t : State} (h : BlocksWork s t) : t.now = s.now := by
  obtain ⟨st, p, im, q, pt, nt, rfl⟩ := h
  rfl

theorem BlocksWork.rest_eq {s t : State} (h : BlocksWork s t) :
    t.su = s.su ∧ t.lines = s.lines ∧ t.matcher = s.matcher ∧ t.power = s.power ∧ t.watches = s.watches ∧ t.lease = s.lease ∧
      t.loader = s.loader ∧ t.config = s.config ∧ t.now = s.now ∧ t.porn = s.porn ∧ t.straps = s.straps ∧ t.blanks = s.blanks ∧
      t.pending = s.pending := by
  obtain ⟨st, p, im, q, pt, nt, rfl⟩ := h
  exact ⟨rfl, rfl, rfl, rfl, rfl, rfl, rfl, rfl, rfl, rfl, rfl, rfl, rfl⟩

theorem reviewAttachment_blocks (i : StationIx) (gone : Bool) (n : NodeId) : BlocksWork s (State.reviewAttachment i gone s n) := by
  obtain ⟨fs, u, h, -⟩ := reviewAttachment_eq s i gone n
  rw [h]
  exact ⟨_, _, _, fs, _, _, rfl⟩

theorem replaceStation_blocks (i : StationIx) (st : Station) :
    BlocksWork (s.putSu { s.su with stations := s.su.stations.put i st }) (s.replaceStation i st) := by
  have h1 : BlocksWork (s.putSu { s.su with stations := s.su.stations.put i st }) (s.reviewed i st) :=
    foldl_keeps .refl .trans allNodes (fun a n _ => reviewAttachment_blocks a i _ n) _
  have h2 : BlocksWork (s.reviewed i st)
      (allNodes.foldl (State.reviewMedium i (decide ((s.station i).addr? ≠ st.addr?))) (s.reviewed i st)) :=
    foldl_keeps .refl .trans allNodes (fun a n _ => (reviewMedium_media a i _ n).blocks) _
  rw [State.replaceStation]
  split
  · exact (h1.trans h2).trans ((staleWhere_work _ _).media (ns := fun _ => True)).blocks
  · exact h1.trans h2

/-- A replaced entry of the station table changes the uplink's queue alone (R12 to R14). -/
theorem replaceStation_uplink (i : StationIx) (st : Station) : UplinkGrows s (s.replaceStation i st) :=
  (replaceStation_blocks s i st).uplink

theorem handover_uplink (n : NodeId) (t : BitVec 4) : UplinkGrows s (s.handover n t) := by
  let a := s.putSu (s.su.handover n t)
  let b := a.putStream n ((a.streams.get n).handover (fun i => (a.station i).isOperator))
  have h1 : UplinkGrows s b.report := (report_work b).uplink
  have h2 : UplinkGrows s (b.report.putMatcher (b.report.matcher.clear n true)) := h1
  have h3 := h2.trans (handoverPort_media (n := n) (ns := (· = n)) _ rfl).uplink
  refine h3.trans ?_
  exact (((putWatch_node _ _).trans (n := n) (MediaWork.node (putSet_media _ _ _))).trans (raise_node _ _ _)).uplink

theorem applyLimits_uplink (n : NodeId) (t : StreamSettings) : UplinkGrows s (s.applyLimits n t) := by
  obtain ⟨c, a, r, p, h⟩ := applyLimits_eq s n t
  exact .of_eq (by rw [h]; rfl)

theorem releaseEscapes_node (n : NodeId) (old : Byte) : NodeWork n s (s.releaseEscapes n old) :=
  (putStream_node s _).trans (foldl_keeps (R := NodeWork n) .refl .trans _ (fun a b _ => releaseByte_node a b) _)

theorem reportLimits_uplink (before : State) (n : NodeId) : UplinkGrows s (s.reportLimits before n) := by
  rw [State.reportLimits]
  split
  · exact (report_work s).uplink
  · exact .refl s

theorem setStream_uplink (n : NodeId) (t : StreamSettings) : UplinkGrows s (s.setStream n t) := by
  have h1 := (applyLimits_uplink s n t).trans (reportLimits_uplink (s.applyLimits n t) s n)
  rw [State.setStream]
  split
  · exact h1.trans (testBatch_node _).uplink
  · exact (h1.trans (releaseEscapes_node _ n _).uplink).trans (testBatch_node _).uplink

/-- No section write counts a dropped frame. -/
theorem writeSection_drops (load : Bool) (c : Sec) (node : Byte) (b : List Byte) :
    DropsKept s (s.writeSection load c node b).state := by
  cases c with
  | station =>
    simp only [State.writeSection, State.writeStation]
    split
    · exact .refl s
    · split
      · exact .refl s
      · split
        · exact .refl s
        · split
          · exact .refl s
          · exact (replaceStation_uplink s _ _).drops
  | nodeTenant =>
    simp only [State.writeSection, State.writeTenant]
    split
    · exact .refl s
    · split
      · exact .refl s
      · split
        · exact .refl s
        · split
          · exact .refl s
          · cases load with
            | true => exact .refl s
            | false => exact (handover_uplink s _ _).drops
  | nodeLine =>
    simp only [State.writeSection, State.writeLine]
    split
    · exact .refl s
    · split
      · next n t _ _ =>
        simp only [State.setLine]
        split
        · exact .refl s
        · exact ((putLine_node s _).trans (offerMark_node _ _)).drops
      · exact .refl s
  | nodePower =>
    simp only [State.writeSection, State.writePower]
    split
    · exact .refl s
    · split
      · split
        · exact .refl s
        · exact .refl s
      · exact .refl s
  | nodeWatch =>
    simp only [State.writeSection, State.writeWatch]
    split
    · exact .refl s
    · split <;> exact .refl s
  | nodeStream =>
    simp only [State.writeSection, State.writeStream]
    split
    · exact .refl s
    · split
      · split
        · exact (setStream_uplink s _ _).drops
        · exact .refl s
      · exact .refl s
  | nodeMedia =>
    simp only [State.writeSection, State.writeMedia]
    split
    · exact .refl s
    · split
      · split <;> exact .refl s
      · exact .refl s
  | pattern =>
    simp only [State.writeSection, State.writePattern]
    split
    · exact .refl s
    · split <;> exact .refl s
  | part =>
    simp only [State.writeSection, State.writePart]
    split
    · exact .refl s
    · split
      · exact .refl s
      · split <;> exact .refl s

theorem passTable_drops (write : Bool) (node : Byte) (b : List Byte) : DropsKept s (s.passTable write node b).state := by
  rw [State.passTable]
  split
  · exact .refl s
  · cases write with
    | true => exact writeSection_drops s false _ node _
    | false => exact congrArg (·.up.drops) (readSection_state s _ node _)

theorem restartStreams_uplink (l : List NodeId) : UplinkGrows s (l.foldl State.restartStream s) :=
  foldl_uplink s fun a n _ => by
    obtain ⟨c, o, r, h⟩ := State.drainRing_eq a n
    exact .of_eq (by rw [State.restartStream, h]; rfl)

theorem abandonLoader_up : s.abandonLoader.up = s.up := by
  simp only [State.abandonLoader, State.putLoader_up]
  cases s.loader.activity <;> rfl

theorem restart_drops : DropsKept s s.restart := by
  have h := (restartStreams_uplink s.abandonLoader allNodes).drops
  have hb (a : State) : a.restartBlocks.up.drops = a.up.drops := rfl
  rw [restart_eq, DropsKept, hb]
  exact Eq.trans h (congrArg Uplink.drops (abandonLoader_up s))

theorem passNode_drops (i : StationIx) (k : RequestKind) (n : NodeId) (node : Byte) (b : List Byte) :
    DropsKept s (s.passNode i k n node b).state := by
  cases k with
  | statusRead => exact congrArg (·.up.drops) (readStatus_state s i _ b)
  | tableWrite => exact passTable_drops s true node b
  | tableRead => exact passTable_drops s false node b
  | attach => exact (takeAttach_node s i n b).drops
  | detach => exact (takeDetach_node s i n b).drops
  | renew => exact (takeRenew_node s i n b).drops
  | consoleInput => exact (takeInput_node s i n b).drops
  | replay => exact (takeReplay_node s i n b).drops
  | powerAction => exact (takePower_node s i n b).drops
  | clearHold => exact (takeClearHold_node s n b).drops
  | bootOk => exact (takeBootOk_node s i n b).drops
  | mediaInsert => exact (takeInsert_node s n b).drops
  | mediaEject => exact (takeEject_node s i n b).drops
  | save => exact .refl s
  | reload => exact .refl s
  | restart => exact .refl s

theorem passPart_drops (i : StationIx) (k : RequestKind) (node : Byte) (b : List Byte) :
    DropsKept s (s.passPart i k node b).state := by
  cases k with
  | statusRead => exact congrArg (·.up.drops) (readStatus_state s i _ b)
  | tableWrite => exact passTable_drops s true node b
  | tableRead => exact passTable_drops s false node b
  | save =>
    simp only [State.passPart, State.takeSave]
    split
    · split <;> exact .refl s
    all_goals exact .refl s
  | reload =>
    simp only [State.passPart, State.takeReload]
    split
    · split <;> exact .refl s
    all_goals exact .refl s
  | restart =>
    simp only [State.passPart, State.takeRestart]
    split
    · exact .refl s
    · exact (restart_drops s).promise
  | _ => exact .refl s

theorem decideRequest_drops (i : StationIx) (k : RequestKind) (node : Byte) (b : List Byte) :
    DropsKept s (s.decideRequest i k node b).state := by
  rw [State.decideRequest]
  split
  · exact .refl s
  · split
    · exact .refl s
    · split
      · exact passNode_drops s i k _ node b
      · exact passPart_drops s i k node b

theorem takeReply_drops (i : StationIx) (k : ReplyKind) (b : List Byte) : DropsKept s (s.takeReply i k b) :=
  (takeReply_media s i k b).uplink.drops

theorem commission_drops (h : Head) (b : List Byte) : DropsKept s (s.commission h b).state := by
  have hw := writeSection_drops s false .station 15 (b.drop 1)
  rw [State.commission]
  split
  · exact .refl s
  · dsimp only
    split
    · exact hw
    · exact hw

/-- A frame that is steered has passed every check and counts under none (R178). -/
theorem steer_drops (h : Head) (kind : Byte) (b : List Byte) : DropsKept s (s.steer h kind b) := by
  rw [State.steer]
  split
  · split
    · exact .refl s
    · rw [State.takeKnown]
      split
      · exact .refl s
      · exact .refl s
      · exact takeReply_drops s _ _ b
      · exact decideRequest_drops s _ _ _ b
  · split
    · exact commission_drops s h b
    · split
      · exact .refl s
      · rw [State.takeKnownEarly]
        split
        · exact .refl s
        · exact .refl s
        · exact takeReply_drops s _ _ b
        · exact .refl s

end Sys2Proof.Machine
end

section
/-! PROOFS. The obligations about steps, received frames, rights and the reads of the tables and of the status. -/
namespace Sys2Proof.Machine

-- Side by side, the proofs of this text would need more thread stacks than the check's memory limit holds.
set_option Elab.async false

variable {s : State}

/-- Settles O1: a step is the dispatch of the front command, or the tick of an idle part. -/
theorem frontCommandRunsOrTimePasses : Obligations.FrontCommandRunsOrTimePasses := by
  intro s c rest
  refine ⟨fun h => by rw [step, h], fun h => ?_⟩
  simp only [step, h, State.reachUs, Nat.max_eq_right (Nat.le_succ s.now)]

/-! ## Receive checks (R178) -/

theorem badAddress_rxView (f : RawFrame) : s.badAddress (rxView f) = true ↔
    (f.dst ≠ s.up.addr ∧ f.dst ≠ broadcast) ∨ (f.dst = broadcast ∧ f.payload[1]? ≠ some 0x01) := by
  simp only [State.badAddress, rxView, statusReadCode, Bool.or_eq_true, Bool.and_eq_true, beq_iff_eq]
  exact or_congr (and_congr decide_eq_true_iff decide_eq_true_iff) (and_congr_right fun _ => decide_eq_true_iff)

theorem badVlan_rxView (f : RawFrame) : s.badVlan (rxView f) = true ↔
    if s.up.vlan = 0 then f.vlan ≠ none else f.vlan ≠ some s.up.vlan := by
  rw [State.badVlan]
  split
  · exact Option.isSome_iff_ne_none
  · exact decide_eq_true_iff

theorem badLength_rxView (f : RawFrame) : badLength (rxView f) = true ↔
    f.payload.length < 8 ∨ 1480 < field f.payload 6 2 ∨ f.payload.length - 8 < field f.payload 6 2 := by
  by_cases h : 8 ≤ f.payload.length <;> simp [badLength, rxView, h]
  · omega

/-- Settles O16: every row that brings a frame runs the same operation on it, whose checks stand in the order of R178. -/
theorem firstFailingCheckDropsTheFrame : Obligations.FirstFailingCheckDropsTheFrame := by
  intro s c f hf hp hm badcast badAddress badVlan badLength d dropped
  have drops {x : DropCause} (h : s.dropCause (rxView f) = some x) : Completes c s (s.drop x) :=
    completes_of_eq (exec_raw s hf) hp (receiveRaw_of_cause s hm h)
  have cause : s.dropCause (rxView f) = if badAddress then some .address else if badVlan then some .vlan
      else if f.ethertype ≠ 0x88B6 then some .ethertype else if f.payload[0]? ≠ some 1 then some .version
      else if badLength then some .length else if s.up.free ≤ s.up.promised then some .room else none := by
    rw [State.dropCause]
    simp only [badAddress_rxView, badVlan_rxView, badLength_rxView]
    rfl
  refine ⟨fun h1 => drops (x := .address) ?_, fun h1 h2 => drops (x := .vlan) ?_, fun h1 h2 h3 => drops (x := .ethertype) ?_,
    fun h1 h2 h3 h4 => drops (x := .version) ?_, fun h1 h2 h3 h4 h5 => drops (x := .length) ?_,
    fun h1 h2 h3 h4 h5 h6 => drops (x := .room) ?_, fun h1 h2 h3 h4 h5 h6 => ?_,
    fun b hb => by rw [exec_raw s hf, exec_raw s hb]⟩
  · rw [cause, if_pos h1]
  · rw [cause, if_neg h1, if_pos h2]
  · rw [cause, if_neg h1, if_neg h2, if_pos h3]
  · rw [cause, if_neg h1, if_neg h2, if_neg (not_not.mpr h3), if_pos h4]
  · rw [cause, if_neg h1, if_neg h2, if_neg (not_not.mpr h3), if_neg (not_not.mpr h4), if_pos h5]
  · rw [cause, if_neg h1, if_neg h2, if_neg (not_not.mpr h3), if_neg (not_not.mpr h4), if_neg h5, if_pos h6]
  have passed : s.dropCause (rxView f) = none := by
    rw [cause, if_neg h1, if_neg h2, if_neg (not_not.mpr h3), if_neg (not_not.mpr h4), if_neg h5, if_neg (Nat.not_le.mpr h6)]
  refine ⟨?_, fun h kind bytes e => ?_⟩
  · obtain ⟨t, ht, hs⟩ := exec_settles (exec_raw s hf) hp
    refine ⟨t, ht, ?_⟩
    rw [hs.delivers.uplink.2.2.2.1]
    rcases receiveRaw_of_passed s hm passed with e | ⟨hd, kind, b, e⟩
    · rw [e]
    · rw [e]; exact steer_drops s.promise hd kind b
  · rw [rxView_of_parse (parseFrame_headRaw h kind bytes), ← e, passed]

/-! ## Rights (R2, R3, R8) -/

theorem secOf_nodeLine (x : Byte) : secOf x = some .nodeLine ↔ x = 0x03 := by
  revert x; decide

theorem bodySection_nodeLine (b : List Byte) : bodySection b = some .nodeLine ↔ b.head? = some 0x03 := by
  cases b with
  | nil => simp [bodySection]
  | cons x xs => simpa [bodySection] using secOf_nodeLine x

theorem modeOf_typing (b : List Byte) : modeOf b = some .typing ↔ b = [1] := by
  unfold modeOf
  split
  · split
    · next h => subst h; simp
    · simp
  · next h => simp only [false_iff, reduceCtorEq]; rintro rfl; exact h _ rfl

theorem holdsAny_iff (st : Station) (owner : BitVec 4) (n : NodeId) :
    st.holdsAny owner n = true ↔ ∃ x, st.holds owner n x = true := by
  rw [Station.holdsAny, List.any_eq_true]
  exact ⟨fun ⟨x, _, h⟩ => ⟨x, h⟩, fun ⟨x, h⟩ => ⟨x, by cases x <;> decide, h⟩⟩

/-- A request without its right is refused and changes nothing (R8). -/
theorem Takes.not_permitted {c : Instr} {h : Head} {kind : Byte} {body : List Byte} {i : StationIx} {k : RequestKind} {p : SetId}
    (ha : Takes s c h kind body i) (hk : kindClass kind = .request k) (hw : wellFormedFor k h.node body = some p)
    (hr : s.permitted i k p body = false) : Answers c s h kind s .notPermitted [] :=
  ha.answers hk (t := s.promise) (by rw [State.decideRequest, hw]; exact if_pos (by rw [Bool.not_eq_true']; exact hr)) (.refl _)

theorem concern_part_of_none {k : RequestKind} {node : Byte} {b : List Byte} (h : wellFormedFor k node b = some none) :
    concern k b = some .part ∨ concern k b = some .either := by
  rw [wellFormedFor] at h
  split at h
  · cases h
  · next hc _ => exact .inl hc
  · next hc _ => exact .inr hc
  · cases h

/-- Settles O18: the table of R8, request by request. -/
theorem missingRightAnswersNotPermitted : Obligations.MissingRightAnswersNotPermitted := by
  refine ⟨fun s i n x a tenant mask rights => ?_, fun s c h kind body i k p n ha hk hw => ⟨ha.not_permitted hk hw, ?_, ?_⟩⟩
  · intro bit st
    have hbit : bit = x.bit := by cases x <;> rfl
    refine ⟨fun e => ?_, fun e => ?_, fun e => ?_⟩
    · have e' : s.station i = .empty := e
      simp [State.holds, State.mayServe, st, e', Station.holds, Station.mayServe, Station.isOperator]
    · have e' : s.station i = .operator a := e
      simp [State.holds, State.mayServe, st, e', Station.holds, Station.mayServe, Station.isOperator]
    · have e' : s.station i = .tenant a tenant mask rights := e
      simp [State.holds, State.mayServe, st, e', Station.holds, Station.mayServe, Station.isOperator, Right.bit, hbit, and_assoc]
  · rintro rfl
    refine ⟨?_, ?_, ?_, ?_, ?_, ?_, ?_⟩
    · rintro (rfl | rfl | rfl) <;> rfl
    · rintro rfl
      simp [State.permitted, modeOf_typing]
    · rintro rfl; rfl
    · rintro (rfl | rfl | rfl) <;> rfl
    · rintro (rfl | rfl) <;> rfl
    · rintro (rfl | rfl) <;> simp only [State.permitted, bodySection_nodeLine]
    · rintro rfl
      exact holdsAny_iff _ _ _
  · rintro rfl
    rfl

/-! ## Status (R185) -/

theorem length_be (w n : Nat) : (be w n).length = w := by
  induction w with
  | zero => rfl
  | succ w ih => simp [be, ih]

theorem length_orAbsent (w : Nat) (o : Option Nat) : (orAbsent w o).length = w := by
  cases o <;> simp [orAbsent, length_be]

theorem length_flagByte (b : Bool) : (flagByte b).length = 1 := rfl

theorem length_encodeAction (a : Option Action) : (encodeAction a).length = 5 := by
  cases a <;> simp [encodeAction, length_be, length_orAbsent, length_flagByte]

/-- A node's status is 71 bytes long (R185). -/
theorem length_statusNode (n : NodeId) : (s.statusNode n).length = 71 := by
  simp [State.statusNode, State.statusPower, State.statusWatch, State.statusLine, State.statusStream, State.statusMedia, length_be,
    length_orAbsent, length_flagByte, length_encodeAction]

/-- The part's status without the records of the images is 55 bytes long (R185). -/
theorem length_statusPart : (s.statusPart false).length = 55 := by
  simp [State.statusPart, State.statusUplink, State.statusPool, State.statusImages, State.statusLoader, length_be, length_flagByte]

/-- Settles O19. -/
theorem statusReadReportsTheState : Obligations.StatusReadReportsTheState := by
  intro s h bytes body i p ha
  have owner : s.promise.owner i .statusRead p h.node body = s.promise.readStatus i p body := by cases p <;> rfl
  refine ⟨fun hb => ha.refused (by rw [owner]; exact if_pos hb), fun hb => ?_⟩
  cases p with
  | some n => exact ⟨ha.answers_eq (by rw [owner]; exact if_neg (not_not.mpr hb)), length_statusNode n⟩
  | none =>
    exact ⟨ha.answers_eq (by rw [owner]; exact if_neg (not_not.mpr hb)), fun ho => by rw [ho]; exact length_statusPart⟩

/-! ## Table reads and the checks of table writes (R182, R183) -/

theorem owner_tableRead (i : StationIx) (p : SetId) (node : Byte) (b : List Byte) :
    s.owner i .tableRead p node b = s.passTable false node b := by
  cases p <;> rfl

theorem owner_tableWrite (i : StationIx) (p : SetId) (node : Byte) (b : List Byte) :
    s.owner i .tableWrite p node b = s.passTable true node b := by
  cases p <;> rfl

theorem bodySection_code (c : Sec) (b : List Byte) : bodySection (c.code :: b) = some c := by
  cases c <;> rfl

theorem passTable_read (c : Sec) (node : Byte) (b : List Byte) :
    s.passTable false node (c.code :: b) = s.readSection c node b := by
  rw [State.passTable, bodySection_code]
  rfl

theorem passTable_write (c : Sec) (node : Byte) (b : List Byte) :
    s.passTable true node (c.code :: b) = s.writeSection false c node b := by
  rw [State.passTable, bodySection_code]
  rfl

section
variable {w : Instr} {h : Head} {b : List Byte} {i : StationIx}

/-- A read of an indexed section is answered with the entry as stored. -/
theorem Owned.read_index {c : Sec} {x : Byte} {j : Fin 32} (ha : Owned s w h 0x03 (c.code :: [x]) i .tableRead none)
    (hc : c.ofPart = true) (hn : c ≠ .part) (hx : indexOfByte x = some j) : Answers w s h 0x03 s .ok (s.indexBody c j) :=
  ha.answers_eq (e := s) (by
    rw [owner_tableRead, passTable_read, State.readSection, if_neg hn, if_neg (by simp), if_pos hc]
    simp only [List.getD_cons_zero, hx]
    cases c <;> rfl)

/-- A read of a node section is answered with the record as stored. -/
theorem Owned.read_node {c : Sec} {n : NodeId} (ha : Owned s w h 0x03 (c.code :: [nodeByte n]) i .tableRead (some n))
    (hc : c.ofPart = false) : Answers w s h 0x03 s .ok (s.nodeBody c n) :=
  ha.answers_eq (e := s) (by
    rw [owner_tableRead, passTable_read, State.readSection, if_neg (by rintro rfl; cases hc), if_neg (by simp),
      if_neg (by simp [hc]), ha.node, bodyNode_of_head rfl]
    cases c <;> rfl)

end

theorem code_injective {c d : Sec} (h : c.code = d.code) : c = d := by
  have hc (c : Sec) : secOf c.code = some c := by cases c <;> rfl
  exact Option.some.inj (by rw [← hc c, ← hc d, h])

theorem secOf_some {x : Byte} {c : Sec} (h : secOf x = some c) : x = c.code := by
  have := List.find?_some h
  exact (eq_of_beq this).symm

/-- The body of a well-formed table request begins with the code of a section, of the part exactly where the place is the part
(R7). -/
theorem section_of_wellFormed {k : RequestKind} (hk : k = .tableRead ∨ k = .tableWrite) {node : Byte} {b : List Byte} {p : SetId}
    (h : wellFormedFor k node b = some p) :
    ∃ (c : Sec) (rest : List Byte), b = c.code :: rest ∧ (c.ofPart = true ↔ p = none) ∧ ∀ n, p = some n → node = nodeByte n := by
  have hc : concern k b = (bodySection b).map (fun c => if c.ofPart then .part else .node) := by
    rcases hk with rfl | rfl <;> rfl
  have hnode : ∀ n, p = some n → node = nodeByte n := fun n e => node_of_wellFormed (e ▸ h)
  rw [wellFormedFor, hc] at h
  cases hb : bodySection b with
  | none => simp [hb] at h
  | some c =>
    match b, hb with
    | x :: rest, hb =>
      refine ⟨c, rest, by rw [secOf_some hb], ?_, hnode⟩
      rw [hb] at h
      cases hp : c.ofPart <;> simp only [hp, Option.map_some, Bool.false_eq_true, if_true, if_false] at h
      · split at h
        · cases h; simp
        all_goals simp_all
      · split at h <;> simp_all

/-- A read whose body has another length, an index above 31 or another node is refused (R182). -/
theorem readSection_refused {c : Sec} {node : Byte} {b : List Byte} (h : if c = .part then b ≠ [] else
      b.length ≠ 1 ∨ if c.ofPart then 32 ≤ (b.getD 0 0).toNat else b.head? ≠ some node) :
    s.readSection c node b = s.refuse .badRequest := by
  rw [State.readSection]
  split at h
  · next hc => rw [if_pos hc, if_neg h]
  · next hc =>
    rw [if_neg hc]
    by_cases hl : b.length ≠ 1
    · rw [if_pos hl]
    · rw [if_neg hl]
      match b, hl with
      | [x], _ =>
        replace h := h.resolve_left (by simp)
        by_cases hp : c.ofPart = true
        · rw [if_pos hp] at h
          rw [if_pos hp, indexOfByte, dif_neg (Nat.not_lt.mpr h)]
        · rw [if_neg hp] at h
          rw [if_neg hp, bodyNode, if_neg (by simpa using h)]
      | [], hl => simp at hl
      | _ :: _ :: _, hl => simp at hl

/-- A write that reaches a section while a SAVE runs is refused BUSY (R182). -/
theorem writeSection_busy (hs : s.saving = true) (c : Sec) (node : Byte) (b : List Byte) :
    s.writeSection false c node b = s.refuse .busy := by
  cases c <;> exact if_pos hs

/-- A write of a node section whose node byte is not the header's is refused (R182). -/
theorem writeSection_mismatch (hs : s.saving = false) {c : Sec} (hc : c.ofPart = false) {node : Byte} {b : List Byte}
    (hb : bodyNode node b = none) (load : Bool) : s.writeSection load c node b = s.refuse .badRequest := by
  cases c with
  | station => cases hc
  | pattern => cases hc
  | part => cases hc
  | _ =>
    simp only [State.writeSection, State.writeTenant, State.writeLine, State.writePower, State.writeWatch, State.writeStream,
      State.writeMedia, hs, hb, Bool.false_eq_true, if_false]

/-- Settles O20. -/
theorem tableReadsAnswerAndWritesAreChecked : Obligations.TableReadsAnswerAndWritesAreChecked := by
  refine ⟨fun s h bytes i x j n c body p => ⟨fun hx => ⟨fun ha => ?_, fun ha => ?_⟩, fun ha => ?_, fun ha => ?_, fun ha => ?_,
    fun ha => ?_, fun ha => ?_, fun ha => ?_, fun ha => ?_, fun ha hb => ?_⟩, fun s c h body i p ha => ⟨fun hs => ?_, fun hs hn hb => ?_⟩⟩
  · exact Owned.read_index (c := .station) ha rfl nofun hx
  · exact Owned.read_index (c := .pattern) ha rfl nofun hx
  · exact ha.answers_eq (e := s) (by rw [owner_tableRead]; rfl)
  · exact Owned.read_node (c := .nodeTenant) ha rfl
  · exact Owned.read_node (c := .nodeLine) ha rfl
  · exact Owned.read_node (c := .nodePower) ha rfl
  · exact Owned.read_node (c := .nodeWatch) ha rfl
  · exact Owned.read_node (c := .nodeStream) ha rfl
  · exact Owned.read_node (c := .nodeMedia) ha rfl
  · obtain ⟨d, rest, rfl, hp, hnode⟩ := section_of_wellFormed (.inl rfl) ha.place
    refine ha.refused ?_
    rw [owner_tableRead, passTable_read]
    refine readSection_refused ?_
    by_cases hd : d = .part
    · subst hd
      simpa [Sec.code] using hb
    · rw [if_neg hd]
      rw [if_neg (by rw [List.head?_cons, Option.some.injEq]; exact fun e => hd (code_injective e))] at hb
      simpa [byteAt, ← hp, List.head?_eq_getElem?] using hb
  · obtain ⟨d, rest, rfl, hp, hnode⟩ := section_of_wellFormed (.inr rfl) ha.place
    exact ha.refused (by rw [owner_tableWrite, passTable_write]; exact writeSection_busy (s := s.promise) hs d _ _)
  · obtain ⟨d, rest, rfl, hp, hnode⟩ := section_of_wellFormed (.inr rfl) ha.place
    refine ha.refused ?_
    rw [owner_tableWrite, passTable_write]
    cases p with
    | none => exact absurd rfl hn
    | some m =>
      refine writeSection_mismatch (s := s.promise) hs (by simpa using hp) ?_ false
      rw [hnode m rfl]
      exact bodyNode_of_ne (by rw [hnode m rfl] at hb; simpa [List.head?_eq_getElem?] using hb)

/-! ## Source, kind and commissioning state (R6, R7, R10) -/

/-- A frame whose steering is an answered decision is answered so. -/
theorem Arrives.answers {c : Instr} {h : Head} {kind : Byte} {body : List Byte} (ha : Arrives s c h kind body) {e t : State}
    {r : Result} {b : List Byte} (hd : s.promise.steer h kind body = t.answer h kind r b) (he : Settles e.promise t) :
    Answers c s h kind e r b := by
  rw [Answers, Completes, ha.exec_eq, hd]
  exact ⟨_, rfl, (he.answer h kind r b).trans (finish_settles _)⟩

theorem steer_unknown {h : Head} {kind : Byte} {body : List Byte} (hf : s.findStation h.src = none)
    (hc : s.su.commissioning = .commissioned ∨ isCommissioningWrite h kind body = false) :
    s.steer h kind body = s.discardUnknown := by
  rw [State.steer, hf]
  rcases hc with hc | hc
  · rw [if_pos hc]
  · rw [hc]
    split <;> rfl

theorem steer_early {h : Head} {kind : Byte} {body : List Byte} {i : StationIx} {k : RequestKind} (hf : s.findStation h.src = some i)
    (hc : s.su.commissioning ≠ .commissioned) (hw : isCommissioningWrite h kind body = false) (hk : kindClass kind = .request k) :
    s.steer h kind body = s.answer h kind .wrongState [] := by
  rw [State.steer, if_neg hc, hw, hf]
  show s.takeKnownEarly i h kind body = _
  unfold State.takeKnownEarly
  rw [hk]
  rfl

theorem steer_commissioning {h : Head} {kind : Byte} {body : List Byte} (hc : s.su.commissioning ≠ .commissioned)
    (hw : isCommissioningWrite h kind body = true) : s.steer h kind body = (s.commission h body).answer h kind := by
  rw [State.steer, if_neg hc, if_pos hw]

/-- The entry of a commissioning write is an OPERATOR with the sender's address (R10). -/
theorem decodeStation_operator {own : MacAddr} {b : List Byte} {j : StationIx} {st : Station} (h1 : byteAt b 1 = 1)
    (h2 : byteAt b 2 = 1) (hd : decodeStation own b = some (j, st)) : st = .operator (BitVec.ofNat 48 (field b 6 6)) := by
  match b, hd with
  | ix :: s1 :: rest, hd =>
    have hs : s1 = 1 := BitVec.eq_of_toNat_eq (by simpa [byteAt] using h1)
    have hr : byteAt rest 0 = 1 := h2
    subst hs
    simp only [decodeStation, hr] at hd
    split at hd
    · cases hd
    · rw [if_neg (by decide)] at hd
      split at hd
      · split at hd
        · cases hd
        · rw [if_pos trivial] at hd
          cases hd
          rfl
      · cases hd

theorem findStation_some {a : MacAddr} {i : StationIx} (h : s.findStation a = some i) : (s.station i).addr? = some a := by
  have := List.find?_some h
  exact eq_of_beq this

theorem addressTaken_iff {j : StationIx} {st : Station} : s.addressTaken j st = true ↔
    ∃ k, k ≠ j ∧ st.addr?.isSome ∧ (s.station k).addr? = st.addr? := by
  simp only [State.addressTaken, List.any_eq_true, Bool.and_eq_true, mem_indices, true_and, decide_eq_true_eq, beq_iff_eq, and_assoc]

theorem servedBy_of_empty {n : NodeId} (h : (s.port n).medium = .empty) (i : StationIx) : s.servedBy i n = false := by
  rw [State.servedBy, h]
  rfl

theorem reviewMedia_of_empty (i : StationIx) (gone : Bool) (l : List NodeId) (h : ∀ n, (s.port n).medium = .empty) :
    l.foldl (State.reviewMedium i gone) s = s := by
  induction l with
  | nil => rfl
  | cons n l ih =>
    have hn : State.reviewMedium i gone s n = s := by
      rw [State.reviewMedium, servedBy_of_empty (h n)]
      rfl
    rw [List.foldl_cons, hn, ih]

theorem reviewAttachments_rest (i : StationIx) (gone : Bool) (l : List NodeId) :
    (l.foldl (State.reviewAttachment i gone) s).notices = s.notices ∧ (l.foldl (State.reviewAttachment i gone) s).ports = s.ports :=
  foldl_keeps (R := fun a b : State => b.notices = a.notices ∧ b.ports = a.ports) (fun _ => ⟨rfl, rfl⟩)
    (fun h k => ⟨k.1.trans h.1, k.2.trans h.2⟩) l (fun a n _ => by
      obtain ⟨fs, u, h, -⟩ := reviewAttachment_eq a i gone n
      rw [h]
      exact ⟨rfl, rfl⟩) s

theorem PoolWork.notices_eq {t : State} (h : PoolWork s t) : t.notices = s.notices := by
  obtain ⟨st, p, nd, fs, q, rfl, -⟩ := h
  rfl

/-- A replaced entry raises no event while no node has a medium (R13, R14). -/
theorem replaceStation_notices (i : StationIx) (st : Station) (h : ∀ n, (s.port n).medium = .empty) :
    (s.replaceStation i st).notices = s.notices := by
  have hr := reviewAttachments_rest (s := s.putSu { s.su with stations := s.su.stations.put i st }) i
    (decide ((s.station i).addr? ≠ st.addr?)) allNodes
  have hm := reviewMedia_of_empty (s := s.reviewed i st) i (decide ((s.station i).addr? ≠ st.addr?)) allNodes
    (fun n => (congrArg (fun p => (Tab.get p n).medium) hr.2).trans (h n))
  rw [State.replaceStation]
  show (if _ then State.staleWhere (allNodes.foldl _ (s.reviewed i st)) _ else allNodes.foldl _ (s.reviewed i st)).notices = _
  rw [hm]
  split
  · exact (staleWhere_work _ _).notices_eq.trans hr.1
  · exact hr.1

/-- Settles O17. -/
theorem steeringDecidesSourceKindAndState : Obligations.SteeringDecidesSourceKindAndState := by
  refine ⟨fun s c h kind body ha hf hc => ?_, fun s c h kind body i k ha => ⟨fun hk => ?_, fun hk => ?_, fun hk hw => ?_⟩,
    fun s c h kind bytes body b i j k st hn => ⟨fun ha hf hk hw => ?_, ?_⟩⟩
  · rw [Completes, ha.exec_eq, steer_unknown (s := s.promise) hf hc]
    exact ⟨_, rfl, finish_settles _⟩
  · rw [Completes, ha.exec_eq, State.takeKnown, show kindClass kind = .outbound from if_pos hk]
    exact ⟨_, rfl, finish_settles _⟩
  · rw [Answers, Completes, ha.exec_eq, State.takeKnown, hk]
    exact ⟨_, rfl, finish_settles _⟩
  · exact ha.answers hk (t := s.promise) (by rw [State.decideRequest, hw]; rfl) (.refl _)
  · exact ha.answers (t := s.promise) (steer_early (s := s.promise) hf hn hw hk) (.refl _)
  · intro w stations ha hs h1 h2 hl hsrc
    have hw : isCommissioningWrite h 0x02 (0x01 :: b) = true := by
      simp only [isCommissioningWrite, Bool.and_eq_true, decide_eq_true_eq, beq_iff_eq]
      exact ⟨⟨⟨⟨⟨rfl, rfl⟩, by simpa using hl⟩, h1⟩, h2⟩, hsrc⟩
    have steer := steer_commissioning (s := s.promise) (h := h) hn hw
    have write (hnode : h.node = 15) : s.promise.commission h (0x01 :: b) =
        let d := s.promise.writeStation b
        if d.result = .ok then
          { d with state := (d.state.putSu { d.state.su with commissioning := .commissioned }).raise none .commissioned }
        else d := by
      rw [State.commission, if_neg (not_not.mpr hnode)]
      rfl
    refine ⟨fun hbad => ha.answers (t := s.promise) (steer.trans ?_) (.refl _), fun hnode hd => ⟨fun hf hij => ?_, fun hq => ?_⟩⟩
    · by_cases hnode : h.node = 15
      · have hd := hbad.resolve_left (not_not.mpr hnode)
        rw [write hnode, State.writeStation]
        simp only [show s.promise.saving = false from hs, show decodeStation s.promise.up.addr b = none from hd]
        rfl
      · rw [State.commission, if_pos hnode]
        rfl
    · refine ha.answers (t := s.promise) (steer.trans ?_) (.refl _)
      have hst := decodeStation_operator h1 h2 hd
      have taken : s.promise.addressTaken j st = true :=
        addressTaken_iff.mpr ⟨i, hij, by rw [hst]; rfl, by rw [hst, hsrc]; exact findStation_some hf⟩
      rw [write hnode, State.writeStation]
      simp only [show s.promise.saving = false from hs, show decodeStation s.promise.up.addr b = some (j, st) from hd, taken]
      rfl
    · have hst : st = .operator h.src := (decodeStation_operator h1 h2 hd).trans (by rw [hsrc])
      have free : s.promise.addressTaken j st = false := by
        rw [Bool.eq_false_iff, ne_eq, addressTaken_iff]
        rintro ⟨k, hk, -, he⟩
        exact hq k hk (he.trans (by rw [hst]; rfl))
      have last : s.promise.lastOperator j st = false := by
        simp [State.lastOperator, hn]
      have hrep := su_replaceStation s.promise j st
      let r := s.promise.replaceStation j st
      let a := (r.putSu { r.su with commissioning := .commissioned }).raise none .commissioned
      have hc : s.promise.commission h (0x01 :: b) = ⟨a, .ok, encodeStation j st⟩ := by
        rw [write hnode, State.writeStation]
        simp only [show s.promise.saving = false from hs, show decodeStation s.promise.up.addr b = some (j, st) from hd, free, last]
        rfl
      have hup : UplinkGrows s.promise a := replaceStation_uplink s.promise j st
      have hsu : a.su = { s.su with stations := stations, commissioning := .commissioned } := by
        rw [State.raise_su, State.putSu_su, hrep]
        rfl
      have hset := finish_settles (a.answer h 0x02 .ok (encodeStation j st))
      refine ⟨(a.answer h 0x02 .ok (encodeStation j st)).finish, ?_, hst, hset.delivers.su_eq.trans hsu,
        (hup.settled.answer h 0x02 .ok (encodeStation j st)).trans hset.delivers.uplink, fun hm => ?_⟩
      · rw [ha.exec_eq, steer, hc]
        rfl
      · have hno : r.notices = s.notices := replaceStation_notices (s := s.promise) j st hm
        have ha : a.notices = ((s.putSu a.su).raise none .commissioned).notices := by
          simp only [a, State.raise, State.putSet, State.pendingSet, State.putSu_notices, hno]
        have hnow : a.now = s.now := by
          rw [State.raise_now, State.putSu_now]
          exact (replaceStation_blocks s.promise j st).now_eq
        have hsu' := hset.delivers.su_eq
        refine hset.delivers.notices_trans (.of_eq ?_) ?_ ?_
        · rw [hsu']; exact ha
        · rw [State.raise_su, State.putSu_su, hsu']
        · rw [State.raise_now, State.putSu_now, ← hnow]; rfl

end Sys2Proof.Machine
end

section
/-! PROOFS. The rules for entries, attachments and typed items: what offers, detachments and the transmit queue make of a stream or a
line, but for what batches then take (chapters 2 and 3). -/
namespace Sys2Proof.Machine

-- Side by side, the proofs of this text would need more thread stacks than the check's memory limit holds.
set_option Elab.async false

variable {s e t : State} {n : NodeId}

/-! ## Batches and the ring (R47 to R51) -/

theorem testBatch_settles (s : State) (n : NodeId) : Settles s (s.testBatch n) := by
  obtain ⟨fs, d, b, c, a, r, h, he⟩ := State.testBatch_eq s n
  by_cases ha : (s.streams.get n).atts = []
  · rw [he ha]; exact .refl s
  · rw [h]
    exact (enqueueAll_settles s fs).trans (putStream_settles _ n _ rfl rfl rfl rfl rfl rfl (List.drop_suffix _ _) fun e => absurd e ha)

/-- A stream in the place of another that settles to it. -/
theorem putStream_settled {x y : Stream} (h : StreamSettled x y) : Settles (s.putStream n x) (s.putStream n y) := by
  obtain ⟨h1, h2, h3, h4, h5, h6, h7, h8⟩ := h
  have hx : (s.putStream n x).streams.get n = x := Tab.get_put_same _ _ _
  have := putStream_settles (s.putStream n x) n y (by rw [hx, h1]) (by rw [hx, h2]) (by rw [hx, h3]) (by rw [hx, h4])
    (by rw [hx, h5]) (by rw [hx, h6]) (by rw [hx]; exact h7) (by rw [hx]; exact h8)
  rwa [State.putStream_putStream] at this

/-- A ring that drains, but for its history (R49). -/
theorem drainRing_settles (s : State) (n : NodeId) : Settles (s.putStream n (s.streams.get n).drained) (s.drainRing n) := by
  obtain ⟨c, a, r, h⟩ := State.drainRing_eq s n
  rw [h]
  exact putStream_settled ⟨rfl, rfl, rfl, rfl, rfl, rfl, List.suffix_refl _, fun _ => rfl⟩

theorem Settles.putMatcher (h : Settles e t) (m : Matcher) : Settles (e.putMatcher m) (t.putMatcher m) := by
  obtain ⟨hd, hp, hf⟩ := h
  rw [delivers_iff] at hd
  obtain ⟨h1, h2, h3, h4, h5⟩ := hd
  exact ⟨delivers_iff.mpr ⟨congrArg (fun x : State => x.putMatcher m) h1, h2, h3, h4, h5⟩, hp, hf⟩

/-- An offered entry stands at the ring's tail, or is lost, but for what batches then take (R47, R49, R50). -/
theorem offer_settles (s : State) (n : NodeId) (k : EntryKind) :
    Settles (s.putStream n ((s.streams.get n).offered k (s.flushDeadline n))) (s.offer n k) := by
  rw [State.offer]
  by_cases hr : (s.streams.get n).ring.length < ringSize
  · have hr' : (s.streams.get n).ring.length < 1024 := hr
    rw [if_pos hr]
    by_cases ha : (s.streams.get n).atts = []
    · rw [if_pos (List.isEmpty_iff.mpr ha)]
      refine Settles.trans (b := s.putStream n ((s.streams.get n).join k (s.streams.get n).flush).drained) ?_ ?_
      · apply putStream_settled
        simp only [Stream.offered, hr', ha, if_true, Stream.drained, Stream.join]
        exact ⟨rfl, rfl, rfl, rfl, rfl, rfl, List.suffix_refl _, fun _ => rfl⟩
      · have := drainRing_settles (s.putStream n ((s.streams.get n).join k (s.streams.get n).flush)) n
        rwa [State.putStream_putStream, State.putStream_streams, Tab.get_put_same] at this
    · rw [if_neg (by simpa using ha)]
      have he : (s.streams.get n).offered k (s.flushDeadline n) = (s.streams.get n).join k (some (s.flushDeadline n)) := by
        simp only [Stream.offered, hr', ha, if_true, if_false, Stream.join, Stream.accepted]
      rw [he]
      exact testBatch_settles _ n
  · have hr' : ¬(s.streams.get n).ring.length < 1024 := hr
    rw [if_neg hr, Stream.offered, if_neg hr']
    exact .refl _

/-- An entry offered to the ring and the matcher, but for what batches then take (R47, R74). -/
theorem offerMatched_settles (s : State) (n : NodeId) (k : EntryKind) : Settles (s.withEntry n k) (s.offerMatched n k) := by
  have h := offer_settles s n k
  rw [State.withEntry, State.matcherOffered, State.offerMatched]
  by_cases hr : (s.streams.get n).ring.length < ringSize
  · rw [if_pos hr, if_pos (show _ < 1024 from hr)]
    exact h.putMatcher _
  · rw [if_neg hr, if_neg (show ¬_ < 1024 from hr)]
    exact h

/-! ## Attachments (R56) -/

/-- A removed attachment, but for what a batch then takes (R49, R50, R56). -/
theorem detach_settles {i : StationIx} {a : Attachment} (h : (s.streams.get n).att i = some a) :
    Settles (s.putStream n ((s.streams.get n).without i)) (s.detach n i) := by
  rw [State.detach]
  rw [if_neg (by rw [h]; nofun)]
  by_cases he : (s.streams.get n).atts.filter (fun a => a.station ≠ i) = []
  · have he' : ((s.streams.get n).dropAtt i).atts.isEmpty = true := List.isEmpty_iff.mpr he
    rw [if_pos he']
    have := drainRing_settles (s.putStream n ((s.streams.get n).dropAtt i)) n
    rw [State.putStream_putStream, State.putStream_streams, Tab.get_put_same] at this
    refine Settles.trans (putStream_settled ?_) this
    simp only [Stream.without, he, if_true]
    exact ⟨rfl, rfl, rfl, rfl, he, rfl, List.suffix_refl _, fun _ => rfl⟩
  · have he' : ¬((s.streams.get n).dropAtt i).atts.isEmpty = true := fun hx => he (List.isEmpty_iff.mp hx)
    rw [if_neg he']
    refine Settles.trans (putStream_settled ?_) (testBatch_settles _ n)
    simp only [Stream.without, he, if_false]
    exact ⟨rfl, rfl, rfl, rfl, rfl, rfl, List.suffix_refl _, fun _ => rfl⟩

/-! ## No replay begins by itself (R58 to R61) -/

/-- A node without a replay has none afterwards. -/
def Unreplayed (n : NodeId) (s t : State) : Prop := (s.streams.get n).replay = none → (t.streams.get n).replay = none

theorem Unreplayed.refl (n : NodeId) (s : State) : Unreplayed n s s := id

theorem Unreplayed.trans {u : State} (h : Unreplayed n s t) (k : Unreplayed n t u) : Unreplayed n s u := fun e => k (h e)

theorem Unreplayed.of_eq (h : t.streams = s.streams) : Unreplayed n s t := fun e => h ▸ e

theorem Unreplayed.putStream {m : NodeId} {x : Stream} (h : (s.streams.get m).replay = none → x.replay = none) :
    Unreplayed n s (s.putStream m x) := by
  intro e
  rw [State.putStream_streams, Tab.get_put]
  split
  · next hm => exact h (hm ▸ e)
  · exact e

theorem adjustReplay_none {x : Stream} (h : x.replay = none) : x.adjustReplay = x := by
  rw [Stream.adjustReplay, h]

theorem pass_unreplayed (s : State) (n m : NodeId) (o : Offset) (e : Entry) : Unreplayed n s (s.pass m o e) := by
  refine Unreplayed.putStream fun h => ?_
  have hm : (s.makeRoom m).replay = none := by
    rw [State.makeRoom]
    split
    · exact h
    · split
      · exact h
      · rw [Stream.recycle]
        split
        · exact h
        · have ha {x : Stream} (hx : x.replay = none) : x.adjustReplay.replay = none := by rw [adjustReplay_none hx, hx]
          exact ha h
  rw [Stream.append]
  split <;> exact hm

theorem passAll_unreplayed (s : State) (n m : NodeId) (o : Offset) (es : List Entry) : Unreplayed n s (s.passAll m o es) := by
  induction es generalizing s o with
  | nil => exact .refl n s
  | cons e es ih => exact (pass_unreplayed s n m o e).trans (ih _ _)

theorem formBatch_unreplayed (s : State) (n m : NodeId) : Unreplayed n s (s.formBatch m) := by
  rw [State.formBatch]
  refine Unreplayed.trans ?_ (passAll_unreplayed _ n m _ _)
  exact Unreplayed.putStream (s := s.enqueueAll _) id

theorem testBatch_unreplayed (s : State) (n m : NodeId) : Unreplayed n s (s.testBatch m) := by
  have loop (k : Nat) (a : State) : Unreplayed n a (State.formBatches m k a) := by
    induction k generalizing a with
    | zero => exact .refl n a
    | succ k ih =>
      rw [State.formBatches]
      split
      · exact (formBatch_unreplayed a n m).trans (ih _)
      · exact .refl n a
  exact loop 1024 s

theorem drainRing_unreplayed (s : State) (n m : NodeId) : Unreplayed n s (s.drainRing m) :=
  (Unreplayed.putStream (s := s) (x := { s.streams.get m with ring := [], flush := none, batchDue := false }) id).trans
    (passAll_unreplayed _ n m _ _)

/-- A detachment cancels the station's replay (R61). -/
theorem detach_unreplayed {i : StationIx} {a : Attachment} (h : (s.streams.get n).att i = some a) {r : Replay}
    (hr : (s.streams.get n).replay = some r) (hi : r.requester = i) : ((s.detach n i).streams.get n).replay = none := by
  have hd : (((s.putStream n ((s.streams.get n).dropAtt i)).streams).get n).replay = none := by
    rw [State.putStream_streams, Tab.get_put_same, Stream.dropAtt, hr]
    simp [hi]
  rw [State.detach]
  rw [if_neg (by rw [h]; nofun)]
  split
  · exact drainRing_unreplayed _ n n hd
  · exact testBatch_unreplayed _ n n hd

/-- Only batches and replay frames touch a stream. -/
theorem serve_streams (s : State) (b : Bool) {p : Producer} (hp : p ≠ .needs) (hb : ∀ m, p ≠ .batch m) (hr : ∀ m, p ≠ .replay m) :
    (s.serve b p).1.streams = s.streams := by
  cases p with
  | batch m => exact absurd rfl (hb m)
  | replay m => exact absurd rfl (hr m)
  | needs => exact absurd rfl hp
  | imageOpen r =>
    simp only [State.serve, State.sendOpen]
    split
    · split <;> rfl
    · rfl
  | refetch f =>
    simp only [State.serve, State.refetch]
    split
    · split <;> rfl
    · rfl
  | rewrite m =>
    simp only [State.serve, State.sendWrite]
    split
    · split <;> rfl
    · rfl
  | notice =>
    simp only [State.serve, State.sendNotice]
    split
    · rw [State.putSet_streams]; rfl
    · rfl

theorem serve_unreplayed (s : State) (n : NodeId) (b : Bool) {p : Producer} (hp : p ≠ .needs) :
    Unreplayed n s (s.serve b p).1 := by
  cases p with
  | batch m => exact formBatch_unreplayed s n m
  | replay m =>
    simp only [State.serve, State.replayFrame]
    split
    · exact .refl n s
    · next r hr =>
      have at_m {x : Stream} {f : TxFrame} : Unreplayed n s ((s.enqueue f).putStream m x) :=
        Unreplayed.putStream (s := s.enqueue f) fun h => absurd (hr.symm.trans h) nofun
      split
      · exact at_m
      · exact at_m
  | needs => exact absurd rfl hp
  | imageOpen _ | refetch _ | rewrite _ | notice => exact .of_eq (serve_streams s b hp nofun nofun)

/-- Only a need that was handed over can be waiting to be tried (R150). -/
theorem serve_waited (s : State) {p : Producer} (hp : p ≠ .needs) : (s.serve false p).2 = false := by
  cases p with
  | needs => exact absurd rfl hp
  | batch _ | replay _ | imageOpen _ | refetch _ | rewrite _ | notice => rfl

/-- What every producer keeps, serving them all keeps. -/
theorem settle_preserves {R : State → State → Prop} (refl : ∀ a, R a a) (trans : ∀ {a b c}, R a b → R b c → R a c)
    (pick : ∀ (a : State) k, R a { a with picks := k }) (serve : ∀ (a : State) b p, R a (a.serve b p).1)
    (k : Nat) (b : Bool) (s : State) : R s (State.settle k b s) := by
  induction k generalizing s b with
  | zero => exact refl s
  | succ k ih =>
    rw [State.settle]
    split
    · exact refl s
    · next p ps hps =>
      have hc : R s (s.choose p ps).1 := by
        unfold State.choose
        split
        · exact refl s
        · exact pick s _
      exact trans hc (trans (serve _ b _) (ih _ _))

/-- What every producer but the need list and the arbiter keep, the end of a step keeps. -/
theorem finish_preserves {R : State → State → Prop} (refl : ∀ a, R a a) (trans : ∀ {a b c}, R a b → R b c → R a c)
    (pick : ∀ (a : State) k, R a { a with picks := k }) (serve : ∀ (a : State) b p, p ≠ .needs → R a (a.serve b p).1)
    (port : ∀ a : State, R a (a.putUp a.up.takeNext)) (s : State) : R s s.finish := by
  have loop (k : Nat) (a : State) : R a (State.settle k false a) := by
    induction k generalizing a with
    | zero => exact refl a
    | succ k ih =>
      rw [State.settle]
      split
      · exact refl a
      · next p ps hps =>
        have hm := choose_mem a p ps
        rw [← hps] at hm
        have hn : (a.choose p ps).2 ≠ .needs := fun e => not_mem_readyProducers_needs a (e ▸ hm)
        have hc : R a (a.choose p ps).1 := by
          unfold State.choose
          split
          · exact refl a
          · exact pick a _
        dsimp only
        rw [serve_waited _ hn]
        exact trans hc (trans (serve _ _ _ hn) (ih _))
  exact trans (loop settleFuel s) (port _)

theorem finish_unreplayed (s : State) (n : NodeId) : Unreplayed n s s.finish :=
  finish_preserves (R := Unreplayed n) (.refl n) .trans (fun _ _ => .of_eq rfl) (fun a b _ hp => serve_unreplayed a n b hp)
    (fun _ => .of_eq rfl) s

/-! ## The transmit queue (R39 to R41) -/

theorem Line.given_of_busy {l : Line} (h : l.transmitter ≠ .idle) (now : Nat) (items : List TxItem) :
    l.given now items = { l with txQueue := l.txQueue ++ items } := by
  unfold Line.given
  split
  · next hi => exact absurd hi h
  · rfl

/-- Items offered in order are the line's as a whole (R39, R40). -/
theorem sendItems_eq_given {xs : List TxItem} (h : (s.lines.get n).transmitter = .idle → (s.lines.get n).txQueue = []) :
    s.sendItems n xs = s.putLine n ((s.lines.get n).given s.now xs) := by
  induction xs generalizing s with
  | nil =>
    rw [State.sendItems]
    unfold Line.given
    split
    · next h => cases h
    · rw [List.append_nil]; exact (State.putLine_self s n).symm
  | cons x xs ih =>
    rw [State.sendItems]
    have hp {a b : Line} : (s.putLine n a).putLine n b = s.putLine n b := by
      simp only [State.putLine, Tab.put_put]
    by_cases hi : (s.lines.get n).transmitter = .idle
    · have hw : (({ s.lines.get n with txQueue := (s.lines.get n).txQueue ++ [x] } : Line).wake s.now) =
          { s.lines.get n with transmitter := (s.lines.get n).begin s.now x, txQueue := [] } := by
        simp only [Line.wake, hi, h hi, List.nil_append]
        cases x <;> rfl
      rw [hw, ih, State.putLine_lines, Tab.get_put_same, hp, State.putLine_now]
      · congr 1
        cases x <;> simp only [Line.given, Line.begin, hi, List.nil_append]
      · rw [State.putLine_lines, Tab.get_put_same]
        intro hb
        cases x <;> cases hb
    · have hw : (({ s.lines.get n with txQueue := (s.lines.get n).txQueue ++ [x] } : Line).wake s.now) =
          { s.lines.get n with txQueue := (s.lines.get n).txQueue ++ [x] } := by
        unfold Line.wake
        split
        · next hi' _ => exact absurd hi' hi
        · rfl
      rw [hw, ih, State.putLine_lines, Tab.get_put_same, hp, State.putLine_now]
      · congr 1
        rw [Line.given_of_busy hi, Line.given_of_busy (l := { s.lines.get n with txQueue := (s.lines.get n).txQueue ++ [x] }) hi]
        simp only [List.append_assoc, List.cons_append, List.nil_append]
      · rw [State.putLine_lines, Tab.get_put_same]
        exact fun hi' => absurd hi' hi

end Sys2Proof.Machine
end

section
/-! PROOFS. The obligations about the writes of the tables (chapters 2, 4 to 7 and 10). -/
namespace Sys2Proof.Machine

-- Side by side, the proofs of this text would need more thread stacks than the check's memory limit holds.
set_option Elab.async false

variable {s : State}

/-! ## Writes reach the owner of their section (R9) -/

section
variable {w : Instr} {h : Head} {b : List Byte} {i : StationIx} {p : SetId} {n : NodeId}

/-- A table write that is owned is decided by its section's owner. -/
theorem Owned.decided {c : Sec} (_ : Owned s w h 0x02 (c.code :: b) i .tableWrite p) :
    s.promise.owner i .tableWrite p h.node (c.code :: b) = s.promise.writeSection false c h.node b := by
  rw [owner_tableWrite, passTable_write]

/-- A node's section is decided with the node the frame's header names. -/
theorem Owned.decided_node {c : Sec} (ha : Owned s w h 0x02 (c.code :: b) i .tableWrite (some n)) :
    s.promise.owner i .tableWrite (some n) h.node (c.code :: b) = s.promise.writeSection false c (nodeByte n) b := by
  rw [ha.decided, ha.node]

end

theorem not_saving (hs : s.saving = false) : ¬s.saving = true := by rw [hs]; nofun

/-! ## NODE_POWER and NODE_WATCH (R100, R107, R108) -/

section
variable {n : NodeId} {b : List Byte}

theorem writePower_refused (hs : s.saving = false) (hb : b.head? = some (nodeByte n)) (hd : decodePower b = none) (load : Bool) :
    s.writePower load (nodeByte n) b = s.refuse .badRequest := by
  rw [State.writePower, if_neg (not_saving hs), bodyNode_of_head hb, hd]

theorem writePower_busy (hs : s.saving = false) (hb : b.head? = some (nodeByte n)) {t : PowerSettings} (hd : decodePower b = some t)
    (ha : (s.pw n).state.acting = true) (load : Bool) : s.writePower load (nodeByte n) b = s.refuse .busy := by
  rw [State.writePower, if_neg (not_saving hs), bodyNode_of_head hb, hd]
  exact if_pos ha

theorem writePower_taken (hs : s.saving = false) (hb : b.head? = some (nodeByte n)) {t : PowerSettings} (hd : decodePower b = some t)
    (ha : (s.pw n).state.acting = false) (load : Bool) : s.writePower load (nodeByte n) b =
      ⟨s.putPower n ((s.pw n).setSettings (clampPower t) s.ms load), okOrAdjusted (clampPower t ≠ t), encodePower n (clampPower t)⟩ := by
  rw [State.writePower, if_neg (not_saving hs), bodyNode_of_head hb, hd]
  exact if_neg (by rw [ha]; nofun)

theorem writeWatch_refused (hs : s.saving = false) (hb : b.head? = some (nodeByte n)) (hd : decodeWatch b = none) :
    s.writeWatch (nodeByte n) b = s.refuse .badRequest := by
  rw [State.writeWatch, if_neg (not_saving hs), bodyNode_of_head hb, hd]

theorem writeWatch_taken (hs : s.saving = false) (hb : b.head? = some (nodeByte n)) {t : WatchSettings} (hd : decodeWatch b = some t) :
    s.writeWatch (nodeByte n) b = ⟨s.putWatch n ((s.wt n).setSettings (clampWatch t) s.ms), okOrAdjusted (clampWatch t ≠ t),
      encodeWatch n ((s.wt n).setSettings (clampWatch t) s.ms)⟩ := by
  rw [State.writeWatch, if_neg (not_saving hs), bodyNode_of_head hb, hd]
  exact congrArg (Decision.mk _ _) (congrArg (encodeWatch n) (Tab.get_put_same s.watches n _))

end

/-- What a filter reads of its pin under settings. -/
theorem Power.read_eq (p : Power) : p.read = if p.raw = p.settings.pgoodHigh then .active else .inactive := by
  rw [Power.read]
  by_cases h : p.raw = p.settings.pgoodHigh <;> simp [h]

theorem Power.rewait_same (p : Power) (ms : Nat) : p.rewait ms false = p := rfl

/-- A changed read level starts the wait afresh, or stops it where the filtered level is read again (R85). -/
theorem Power.rewait_changed (p : Power) (ms : Nat) : p.rewait ms true =
    { p with wait := if p.filtered ≠ .unacquired ∧ p.read = p.filtered then none else some (ms + p.settings.filterMs) } := by
  by_cases hu : p.filtered = .unacquired <;> by_cases hr : p.read = p.filtered <;> simp [Power.rewait, hu, hr]

/-- The wait that new power settings leave (R85, R100, R103). -/
theorem Power.setSettings_wait (p : Power) (t : PowerSettings) (ms : Nat) (load : Bool) : p.setSettings t ms load =
    { p with
      settings := t
      wait :=
        if p.settings.pgoodHigh ≠ t.pgoodHigh ∨ (load = true ∧ p.filtered = .unacquired ∧ p.settings.filterMs ≠ t.filterMs) then
          if p.filtered ≠ .unacquired ∧ (if p.raw = t.pgoodHigh then Filtered.active else .inactive) = p.filtered then none
          else some (ms + t.filterMs)
        else p.wait } := by
  have hr : ({ p with settings := t } : Power).read = if p.raw = t.pgoodHigh then .active else .inactive := Power.read_eq _
  rw [Power.setSettings]
  by_cases hl : load = true ∧ p.filtered = .unacquired ∧ p.settings.filterMs ≠ t.filterMs
  · rw [if_pos (by simpa [and_assoc] using hl), if_pos (.inr hl), Power.rewait_changed, hr]
  · rw [if_neg (by simpa [and_assoc] using hl)]
    by_cases hp : p.settings.pgoodHigh = t.pgoodHigh
    · rw [if_neg (by rintro (h | h); exacts [h hp, hl h]), hp, bne_self_eq_false, Power.rewait_same]
    · rw [if_pos (.inl hp), show (p.settings.pgoodHigh != t.pgoodHigh) = true from bne_iff_ne.mpr hp, Power.rewait_changed, hr]

/-- The wait that new power settings leave after the load (R85, R100). -/
theorem Power.setSettings_table (p : Power) (t : PowerSettings) (ms : Nat) : p.setSettings t ms false =
    { p with
      settings := t
      wait :=
        if p.settings.pgoodHigh = t.pgoodHigh then p.wait
        else if p.filtered ≠ .unacquired ∧ (if p.raw = t.pgoodHigh then Filtered.active else .inactive) = p.filtered then none
        else some (ms + t.filterMs) } := by
  rw [Power.setSettings_wait]
  by_cases hp : p.settings.pgoodHigh = t.pgoodHigh <;> simp [hp]

/-- New watch settings act on the record as R108 says. -/
theorem Watch.setSettings_eq (w : Watch) (t : WatchSettings) (ms : Nat) : w.setSettings t ms =
    { w with
      timeS := t.timeS, limit := t.limit, localStart := t.localStart, faultReboot := t.faultReboot, count := min w.count t.limit,
      state := if t.timeS = 0 then .idle else if w.state = .idle ∧ w.faultHeld then .held else w.state,
      timer := if w.state ≠ .watching then w.timer else if t.timeS = 0 then none else some (ms + t.timeS * 1000) } := by
  unfold Watch.setSettings
  cases hw : w.state with
  | idle => by_cases h : t.timeS = 0 <;> by_cases hf : w.faultHeld = true <;> simp [h, hf]
  | watching => by_cases h : t.timeS = 0 <;> simp [h]
  | held => by_cases h : t.timeS = 0 <;> simp [h]

theorem okOrAdjusted_eq {c : Prop} [Decidable c] : okOrAdjusted (decide c) = if c then .adjusted else .ok := by
  by_cases h : c <;> simp [okOrAdjusted, h]

/-- Settles O24. -/
theorem powerAndWatchWritesStoreSettings : Obligations.PowerAndWatchWritesStoreSettings := by
  intro s h bytes b i n t w hs hb
  refine ⟨fun ha => ⟨fun hd => ?_, fun hd hx => ?_, fun hd hx => ?_⟩, fun ha => ⟨fun hd => ?_, fun hd => ?_⟩⟩
  · exact ha.refused ((ha.decided_node (c := .nodePower)).trans (writePower_refused (s := s.promise) hs hb hd false))
  · exact ha.refused ((ha.decided_node (c := .nodePower)).trans (writePower_busy (s := s.promise) hs hb hd hx false))
  · refine ha.answers_eq ((ha.decided_node (c := .nodePower)).trans
      ((writePower_taken (s := s.promise) hs hb hd hx false).trans ?_))
    rw [okOrAdjusted_eq, Power.setSettings_table]
    rfl
  · exact ha.refused ((ha.decided_node (c := .nodeWatch)).trans (writeWatch_refused (s := s.promise) hs hb hd))
  · refine ha.answers_eq ((ha.decided_node (c := .nodeWatch)).trans ((writeWatch_taken (s := s.promise) hs hb hd).trans ?_))
    rw [okOrAdjusted_eq, Watch.setSettings_eq]
    rfl

/-! ## NODE_LINE (R22, R23) -/

section
variable {n : NodeId} {b : List Byte}

theorem writeLine_refused (hs : s.saving = false) (hb : b.head? = some (nodeByte n)) (hd : decodeLine b = none) (load : Bool) :
    s.writeLine load (nodeByte n) b = s.refuse .badRequest := by
  rw [State.writeLine, if_neg (not_saving hs), bodyNode_of_head hb, hd]

theorem writeLine_taken (hs : s.saving = false) (hb : b.head? = some (nodeByte n)) {t : LineSettings} (hd : decodeLine b = some t)
    (load : Bool) : s.writeLine load (nodeByte n) b = ⟨s.setLine load n (clampLine t),
      if clampLine t ≠ t ∨ ((clampLine t).primary :: (clampLine t).further).any (fun r => 30 < deviation r) then .adjusted else .ok,
      encodeLine n (clampLine t)⟩ := by
  rw [State.writeLine, if_neg (not_saving hs), bodyNode_of_head hb, hd, ← okOrAdjusted_eq, Bool.decide_or, Bool.decide_eq_true]
  rfl

end

/-- Settles O23. -/
theorem lineWriteReturnsTheLineToPrimary : Obligations.LineWriteReturnsTheLineToPrimary := by
  intro s h bytes b i n t c ha hs hb
  refine ⟨fun hd => ?_, fun hd => ?_⟩
  · exact ha.refused ((ha.decided_node (c := .nodeLine)).trans (writeLine_refused (s := s.promise) hs hb hd false))
  · exact ha.answers ((ha.decided_node (c := .nodeLine)).trans (writeLine_taken (s := s.promise) hs hb hd false))
      (offerMatched_settles _ n _)

/-! ## NODE_MEDIA, PATTERN and PART (R81, R141, R183) -/

theorem bitCode_some {x : Nat} {on : Bool} (h : bitCode x = some on) : x = if on then 1 else 0 := by
  unfold bitCode at h
  split at h
  · cases h; assumption
  · split at h
    · cases h; assumption
    · cases h

theorem writeMedia_taken (hs : s.saving = false) (n : NodeId) (on : Bool) :
    s.writeMedia (nodeByte n) [nodeByte n, if on then 1 else 0] =
      ⟨s.putPort n { s.port n with readAhead := on }, .ok, encodeMedia n on⟩ := by
  rw [State.writeMedia, if_neg (not_saving hs), bodyNode_of_head rfl]
  cases on <;> rfl

theorem writeMedia_refused (hs : s.saving = false) {n : NodeId} {b : List Byte} (h0 : b ≠ [nodeByte n, 0]) (h1 : b ≠ [nodeByte n, 1]) :
    s.writeMedia (nodeByte n) b = s.refuse .badRequest := by
  rw [State.writeMedia, if_neg (not_saving hs)]
  by_cases hb : b.head? = some (nodeByte n)
  · rw [bodyNode_of_head hb]
    cases hc : bitCode (byteAt b 1) with
    | none => rfl
    | some on =>
      refine if_neg fun hl => ?_
      obtain ⟨x, y, rfl⟩ := List.length_eq_two.mp hl
      cases hb
      have hy : y.toNat = if on then 1 else 0 := bitCode_some hc
      cases on
      · exact h0 (by rw [BitVec.eq_of_toNat_eq (y := 0#8) hy]; rfl)
      · exact h1 (by rw [BitVec.eq_of_toNat_eq (y := 1#8) hy]; rfl)
  · rw [bodyNode_of_ne hb]

theorem writePattern_refused (hs : s.saving = false) {b : List Byte} (hd : decodePattern b = none) :
    s.writePattern b = s.refuse .badRequest := by
  rw [State.writePattern, if_neg (not_saving hs), hd]

theorem writePattern_taken (hs : s.saving = false) {b : List Byte} {j : PatternIx} {x : Option Pattern}
    (hd : decodePattern b = some (j, x)) : s.writePattern b =
      ⟨s.putMatcher (({ s.matcher with table := s.matcher.table.put j x } : Matcher).forget j), .ok, encodePattern j x⟩ := by
  rw [State.writePattern, if_neg (not_saving hs), hd]

theorem writePart_refused (hs : s.saving = false) {b : List Byte} (hd : decodePart b = none) :
    s.writePart b = s.refuse .badRequest := by
  rw [State.writePart, if_neg (not_saving hs), hd]

theorem writePart_inUse (hs : s.saving = false) {b : List Byte} {p : PartSettings} (hd : decodePart b = some p)
    (hf : (s.findStation p.addr).isSome) : s.writePart b = s.refuse .inUse := by
  rw [State.writePart, if_neg (not_saving hs), hd]
  exact if_pos hf

theorem writePart_taken (hs : s.saving = false) {b : List Byte} {p : PartSettings} (hd : decodePart b = some p)
    (hf : s.findStation p.addr = none) : s.writePart b =
      ⟨s.setPart (clampPart p), if clampPart p ≠ p then .adjusted else .ok, encodePart (clampPart p)⟩ := by
  rw [State.writePart, if_neg (not_saving hs), hd, ← okOrAdjusted_eq]
  exact if_neg (by rw [hf]; nofun)

/-- Settles O26. -/
theorem mediaPatternAndPartWritesStoreContent : Obligations.MediaPatternAndPartWritesStoreContent := by
  intro s h bytes b i n on j x p hs
  refine ⟨fun ha hb => ?_, fun ha h0 h1 => ?_, fun ha => ⟨fun hd => ?_, fun hd => ?_⟩, fun ha => ⟨fun hd => ?_, fun hd hf => ?_,
    fun hd hf => ?_⟩⟩
  · subst hb
    exact ha.answers_eq ((ha.decided_node (c := .nodeMedia)).trans (writeMedia_taken (s := s.promise) hs n on))
  · exact ha.refused ((ha.decided_node (c := .nodeMedia)).trans (writeMedia_refused (s := s.promise) hs h0 h1))
  · exact ha.refused ((ha.decided (c := .pattern)).trans (writePattern_refused (s := s.promise) hs hd))
  · exact ha.answers_eq ((ha.decided (c := .pattern)).trans (writePattern_taken (s := s.promise) hs hd))
  · exact ha.refused ((ha.decided (c := .part)).trans (writePart_refused (s := s.promise) hs hd))
  · exact ha.refused ((ha.decided (c := .part)).trans (writePart_inUse (s := s.promise) hs hd hf))
  · exact ha.answers_eq ((ha.decided (c := .part)).trans (writePart_taken (s := s.promise) hs hd hf))

end Sys2Proof.Machine
end

section
/-! PROOFS. The obligations about power-on reset, the load, SAVE and RELOAD (chapter 11). -/
namespace Sys2Proof.Machine

-- Side by side, the proofs of this text would need more thread stacks than the check's memory limit holds.
set_option Elab.async false

variable {s : State}

/-! ## Power-on reset (R193) -/

/-- A page write broken off changes the configuration memory and the count of free page writes alone. -/
theorem breakOff_eq (s : State) : s.breakOff = { s with config := s.breakOff.config, blanks := s.breakOff.blanks } := by
  unfold State.breakOff
  split <;> rfl

theorem breakOff_of_idle (h : s.saving = false) : s.breakOff = s := by
  unfold State.breakOff
  split
  · next running =>
    rw [State.saving, running] at h
    nomatch h
  · rfl
  · rfl
  · rfl

theorem length_spoiled (step : SaveStep) (blanks : Nat) :
    ((List.range step.size).map (fun j => Config.pageByte blanks (step.address + j))).length = step.size := by
  rw [List.length_map, List.length_range]

theorem spoilPage_outside (h : ConfigLaw s) (step : SaveStep) {a : Nat} (ha : a < step.address ∨ step.address + step.size ≤ a) :
    memRead (s.spoilPage step).config a = memRead s.config a :=
  memRead_memWriteAll_outside h _ _ _ (by rwa [length_spoiled])

/-- Settles O12. -/
theorem powerOnResetInitialisesEveryBlock : Obligations.PowerOnResetInitialisesEveryBlock := by
  intro s
  have hb := breakOff_eq s
  refine ⟨s.powerOnReset, rfl, rfl, rfl, ?_, rfl, rfl, rfl, rfl, rfl, rfl, rfl, rfl, fun n => ?_, ?_, ?_, ?_, fun h => ?_,
    fun list step d h hc a ha => ?_⟩
  · rw [powerOnReset_eq, hb]; rfl
  · rw [powerOnReset_eq, hb]
    have hl : ({ s with config := s.breakOff.config, blanks := s.breakOff.blanks } : State).resetBlocks.lines.get n =
        resetLine (s.lines.get n).rxd s.now := Tab.get_map _ _ n
    exact ⟨Tab.get_map _ _ n, Tab.get_map _ _ n, hl, by rw [hl]; rfl, by rw [hl]; rfl⟩
  · rw [powerOnReset_eq, hb]; rfl
  · rw [powerOnReset_eq, hb]; rfl
  · rw [powerOnReset_eq, hb]; rfl
  · rw [powerOnReset_eq, breakOff_of_idle h]; rfl
  · rw [powerOnReset_eq, State.breakOff, h]
    exact spoilPage_outside hc step ha

/-- A command that needs PORn high does nothing while it is low. -/
theorem whenRunning_off (hp : s.porn = false) (f : State → State) : s.whenRunning f = .next s := by
  rw [State.whenRunning, if_neg (by rw [hp]; nofun)]

/-- The commands that reach the part while PORn is low (log entry 15). -/
def reachesLow : Instr → Bool
  | .powerOnReset => true
  | .pornRise => true
  | .linkStateChange _ => true
  | .pgoodLevelChange _ _ => true
  | .busPowerChange _ _ => true
  | .quietWaitRestart _ _ => true
  | _ => false

/-- Every other command runs an operation while PORn is high. -/
theorem exec_whenRunning {c : Instr} (hc : reachesLow c = false) : ∃ f, exec c s = s.whenRunning f := by
  cases hf : frameOf c with
  | some x => exact ⟨_, exec_frame s hf⟩
  | none =>
    cases c with
    | powerOnReset | pornRise | linkStateChange _ | pgoodLevelChange _ _ | busPowerChange _ _ | quietWaitRestart _ _ => cases hc
    | recordRead | frameTransmitted | linkDiscard | pageWriteFinished | pageWriteTimeout | frameDropped _ | characterFramed _ _ _ _
    | lowHoldRise _ | breakDetected _ | breakEnd _ | quietElapsed _ | characterSent _ | breakLowEnd _ | breakHighEnd _
    | flushTimerExpiry _ | leaseExpiry _ _ | escapeWindowExpiry _ _ | pgoodFilterExpiry _ | pressWidthExpiry _ | onTimeoutExpiry _
    | softOffTimeoutExpiry _ | holdWidthExpiry _ | resetWidthExpiry _ | dwellExpiry _ | releasedTickEnd _ | reattachTimerExpiry _
    | watchTimerExpiry _ | nodeAbort _ | undefinedBlockRequest _ | identify _ | ready _ | capacity _ | sense _ | prevent _ | allow _
    | read _ _ _ | write _ _ _ | ejectByNode _ | dataPoll _ _ | writeDataReceived _ _ | openTimerExpiry _ | fetchTimerExpiry _
    | writeTimerExpiry _ | gapTimerExpiry _ | startBit _ | falseStart _ =>
      simp only [exec, execRecordRead, execFrameTransmitted, execLinkDiscard, execPageWriteFinished, execPageWriteTimeout,
        execFrameDropped, execCharacterFramed, execLowHoldRise, execBreakDetected, execBreakEnd, execQuietElapsed,
        execCharacterSent, execBreakLowEnd, execBreakHighEnd, execFlushTimerExpiry, execLeaseExpiry, execEscapeWindowExpiry,
        execPgoodFilterExpiry, execPressWidthExpiry, execOnTimeoutExpiry, execSoftOffTimeoutExpiry, execHoldWidthExpiry,
        execResetWidthExpiry, execDwellExpiry, execReleasedTickEnd, execReattachTimerExpiry, execWatchTimerExpiry,
        execNodeAbort, execUndefinedBlockRequest, execIdentify, execReady, execCapacity, execSense, execPrevent, execAllow,
        execRead, execWrite, execEjectByNode, execDataPoll, execWriteDataReceived, execOpenTimerExpiry, execFetchTimerExpiry,
        execWriteTimerExpiry, execGapTimerExpiry, execStartBit, execFalseStart]
      exact ⟨_, rfl⟩
    | _ => cases hf

theorem exec_low (hp : s.porn = false) {c : Instr} (hc : reachesLow c = false) : exec c s = .next s := by
  obtain ⟨f, hf⟩ := exec_whenRunning (s := s) hc
  exact hf.trans (whenRunning_off hp f)

/-- Settles O13. -/
theorem pornRiseStartsTheLoad : Obligations.PornRiseStartsTheLoad := by
  intro s c
  refine ⟨fun hp => congrArg Host.Outcome.next (if_pos hp), fun hp => ?_, fun hp => ?_⟩
  · exact congrArg Host.Outcome.next (if_neg (by rw [hp]; nofun))
  have low : ¬s.porn = true := by rw [hp]; nofun
  split
  · trivial
  · trivial
  · rfl
  · exact if_neg low
  · exact if_neg low
  · next n b =>
    refine (if_neg low).trans (congrArg Host.Outcome.next ?_)
    rw [State.quietEdge]
    cases (s.lines.get n).receiver <;> rfl
  · next h1 h2 h3 h4 h5 h6 =>
    refine exec_low hp ?_
    unfold reachesLow
    split
    · exact absurd rfl h1
    · exact absurd rfl h2
    · exact absurd rfl (h3 _)
    · exact absurd rfl (h4 _ _)
    · exact absurd rfl (h5 _ _)
    · exact absurd rfl (h6 _ _)
    · rfl

/-! ## Records (R191, R192) -/

theorem PoolWork.loader_eq {t : State} (h : PoolWork s t) : t.loader = s.loader := (congrArg State.loader h.delivers.still_eq :)

theorem MediaWork.loader_eq {ns : NodeId → Prop} {t : State} (h : MediaWork ns s t) : t.loader = s.loader := by
  obtain ⟨st, p, im, q, pt, nt, rfl, -⟩ := h
  rfl

theorem handover_loader (n : NodeId) (t : BitVec 4) : (s.handover n t).loader = s.loader := by
  simp only [State.handover, State.clearSet]
  refine (putSet_media (ns := (· = n)) _ _ _).loader_eq.trans ((putSet_media (ns := (· = n)) _ _ _).loader_eq.trans ?_)
  exact (handoverPort_media (n := n) (ns := (· = n)) _ rfl).loader_eq.trans (report_work _).loader_eq

theorem replaceStation_loader (i : StationIx) (st : Station) : (s.replaceStation i st).loader = s.loader := by
  obtain ⟨_, _, _, _, _, _, h⟩ := replaceStation_blocks s i st
  rw [h]
  rfl

/-- No section write touches the loader. -/
theorem writeSection_loader (load : Bool) (c : Sec) (node : Byte) (b : List Byte) :
    (s.writeSection load c node b).state.loader = s.loader := by
  cases c with
  | station =>
    simp only [State.writeSection, State.writeStation]
    split
    · rfl
    · split
      · rfl
      · split
        · rfl
        · split
          · rfl
          · exact replaceStation_loader _ _
  | nodeTenant =>
    simp only [State.writeSection, State.writeTenant]
    split
    · rfl
    · split
      · rfl
      · split
        · rfl
        · split
          · rfl
          · cases load with
            | true => rfl
            | false => exact handover_loader _ _
  | nodeLine => exact (writeLine_keeps s load node b).rest.loader
  | nodePower => exact (writePower_keeps s load node b).rest.loader
  | nodeWatch => exact (writeWatch_keeps s node b).rest.loader
  | nodeStream => exact (writeStream_keeps s node b).rest.loader
  | nodeMedia => exact (writeMedia_keeps s node b).rest.loader
  | pattern => exact (writePattern_keeps s b).rest.loader
  | part => exact (writePart_keeps s b).rest.loader

/-- A promise that stands is released and made again. -/
theorem release_promise (h : 0 < s.up.promised) : s.release.promise = s := by
  show ({ s with up := { s.up with promised := s.up.promised - 1 + 1 } } : State) = s
  rw [Nat.sub_add_cancel h]

section
variable {n : NodeId} {b : List Byte}

theorem writeTenant_refused (hs : s.saving = false) (hb : b.head? = some (nodeByte n)) (h : b.length ≠ 4 ∨ 15 < byteAt b 1)
    (load : Bool) : s.writeTenant load (nodeByte n) b = s.refuse .badRequest := by
  rw [State.writeTenant, if_neg (not_saving hs), bodyNode_of_head hb]
  exact if_pos h

theorem writeTenant_present (hs : s.saving = false) (hb : b.head? = some (nodeByte n)) (hl : b.length = 4) (h : byteAt b 1 ≤ 15)
    (ht : BitVec.ofNat 4 (byteAt b 1) = s.su.tenants.get n) (load : Bool) :
    s.writeTenant load (nodeByte n) b = s.refuse .noEffect := by
  rw [State.writeTenant, if_neg (not_saving hs), bodyNode_of_head hb]
  exact (if_neg (by omega)).trans (if_pos ht)

theorem writeTenant_taken (hs : s.saving = false) (hb : b.head? = some (nodeByte n)) (hl : b.length = 4) (h : byteAt b 1 ≤ 15)
    (ht : BitVec.ofNat 4 (byteAt b 1) ≠ s.su.tenants.get n) (load : Bool) :
    let a := if load then s.putSu { s.su with tenants := s.su.tenants.put n (BitVec.ofNat 4 (byteAt b 1)) }
      else s.handover n (BitVec.ofNat 4 (byteAt b 1))
    s.writeTenant load (nodeByte n) b = ⟨a, .ok, a.tenantBody n⟩ := by
  rw [State.writeTenant, if_neg (not_saving hs), bodyNode_of_head hb]
  exact (if_neg (by omega)).trans (if_neg ht)

end

theorem byteAt_of_getElem? {b : List Byte} {j : Nat} {x : Byte} (h : b[j]? = some x) : byteAt b j = x.toNat := by
  rw [byteAt, List.getD_eq_getElem?_getD, h]
  rfl

/-- The loader that reads a list takes the record at its address (R191). -/
theorem readRecord_eq {a : Nat} (h : s.loader.activity = .loading a ∨ s.loader.activity = .reloading a) :
    s.readRecord = s.takeRecord a := by
  rw [State.readRecord]
  rcases h with h | h <;> rw [h]

theorem moveTo_eq {a : Nat} (h : s.loader.activity = .loading a ∨ s.loader.activity = .reloading a) (b : Nat) :
    s.loader.activity.moveTo b = if s.loading then .loading b else .reloading b := by
  rw [State.loading]
  rcases h with h | h <;> rw [h] <;> rfl

/-- The counts after a record, by its decision (R192). -/
theorem counted_eq (l : Loader) (r : Result) : l.counted r =
    { l with
      loaded := if r = .ok ∨ r = .adjusted ∨ r = .noEffect then satInc l.loaded else l.loaded
      clamped := if r = .adjusted then satInc l.clamped else l.clamped
      skipped := if r = .ok ∨ r = .adjusted ∨ r = .noEffect then l.skipped else satInc l.skipped } := by
  cases r <;> rfl

theorem secOf_code (c : Sec) : secOf c.code = some c := by cases c <;> rfl

theorem code_ne_end (c : Sec) : ¬(c.code = 0x00 ∨ c.code = 0xFF) := by cases c <;> decide

theorem findRecord_ended {m : List Host.Cell} {a : Nat} (ha : a ≤ 65535) (h : memRead m a = 0x00 ∨ memRead m a = 0xFF) :
    findRecord m a = .ended := by
  rw [findRecord, if_neg (by omega), if_pos h]

theorem findRecord_beyond {m : List Host.Cell} {a : Nat} (ha : 65535 < a) : findRecord m a = .stopped := if_pos ha

theorem findRecord_cut {m : List Host.Cell} {a : Nat} (ha : a ≤ 65535) (h : ¬(memRead m a = 0x00 ∨ memRead m a = 0xFF))
    (hk : 65535 < a + 1 + (memRead m (a + 1)).toNat) : findRecord m a = .stopped := by
  rw [findRecord, if_neg (by omega), if_neg h, if_pos hk]

theorem findRecord_section {m : List Host.Cell} {a : Nat} {c : Sec} (hc : memRead m a = c.code)
    (hk : a + 1 + (memRead m (a + 1)).toNat ≤ 65535) : findRecord m a =
      .record c (memReadAll m (a + 2) (memRead m (a + 1)).toNat) (a + 2 + (memRead m (a + 1)).toNat) := by
  rw [findRecord, if_neg (by omega), hc, if_neg (code_ne_end c), if_neg (by omega), secOf_code]

theorem findRecord_unknown {m : List Host.Cell} {a : Nat} (h : ¬(memRead m a = 0x00 ∨ memRead m a = 0xFF))
    (hs : secOf (memRead m a) = none) (hk : a + 1 + (memRead m (a + 1)).toNat ≤ 65535) :
    findRecord m a = .skipped (a + 2 + (memRead m (a + 1)).toNat) := by
  rw [findRecord, if_neg (by omega), if_neg h, if_neg (by omega), hs]

/-- Settles O14. -/
theorem recordReadAppliesTheRecord : Obligations.RecordReadAppliesTheRecord := by
  refine ⟨fun s w h c b i p ha => ?_, fun s c node b h1 h2 h3 => ?_, fun s n b x t u hs hb => ?_, fun s a c hp ha hc hk => ?_⟩
  · have owed : 0 < (s.promise.writeSection false c h.node b).state.up.promised :=
      (writeSection_decided s.promise (load := false) nofun c h.node b).owed (Nat.succ_pos _)
    exact ha.answers_eq (ha.decided.trans (congrArg (Decision.mk · _ _) (release_promise owed).symm))
  · cases c with
    | nodeTenant => exact absurd rfl h1
    | nodeLine => exact absurd rfl h2
    | nodePower => exact absurd rfl h3
    | station | nodeWatch | nodeStream | nodeMedia | pattern | part => rfl
  · have refused {d : Decision} {r : Result} (h : d = s.refuse r) : d.state = s ∧ d.result = r := by rw [h]; exact ⟨rfl, rfl⟩
    refine ⟨fun hl => refused (writeTenant_refused hs hb (.inl hl) true), fun hl hx => ?_, fun hd => ?_, fun hd => ?_, fun hd => ?_,
      fun hd => ⟨fun ha => ?_, fun ha => ?_⟩⟩
    · rw [← byteAt_of_getElem? hx]
      refine ⟨fun h => refused (writeTenant_refused hs hb (.inr h) true), fun h ht => refused
        (writeTenant_present hs hb hl h ht.symm true), fun h ht => ?_⟩
      have := writeTenant_taken hs hb hl h (fun e => ht e.symm) true
      exact ⟨congrArg Decision.state this, congrArg Decision.result this⟩
    · exact refused (writeLine_refused hs hb hd true)
    · have := writeLine_taken hs hb hd true
      exact ⟨congrArg Decision.state this, congrArg Decision.result this⟩
    · exact refused (writePower_refused hs hb hd true)
    · exact refused (writePower_busy hs hb hd ha true)
    · have := writePower_taken hs hb hd ha true
      rw [okOrAdjusted_eq] at this
      refine ⟨(congrArg Decision.state this).trans ?_, congrArg Decision.result this⟩
      rw [Power.setSettings_wait]
      by_cases hu : (s.pw n).filtered = .unacquired <;> by_cases hq : (s.pw n).settings.pgoodHigh = (clampPower u).pgoodHigh <;>
        simp [hu, hq, State.ms]
  · refine completes_of_eq rfl hp ((readRecord_eq ha).trans ?_)
    rw [State.takeRecord, findRecord_section hc hk]
    dsimp only
    rw [State.applyRecord, writeSection_loader, counted_eq, moveTo_eq ha]

/-- Settles O15. -/
theorem recordReadEndsTheList : Obligations.RecordReadEndsTheList := by
  intro s a hp ha ended next
  have reads {e : State} (h : s.takeRecord a = e) : Completes .recordRead s e := completes_of_eq rfl hp ((readRecord_eq ha).trans h)
  have stopped (h : findRecord s.config a = .stopped) : Completes .recordRead s (ended (satInc s.loader.skipped)) := by
    refine reads ?_
    rw [State.takeRecord, h]
    dsimp only [ended]
    rw [State.endRead, show (s.putLoader s.loader.skip).loading = s.loading from rfl]
    split <;> rfl
  refine ⟨fun h => stopped (findRecord_beyond h), fun hl h => reads ?_, fun hl h0 h1 hk => stopped (findRecord_cut hl (by tauto) hk),
    fun h0 h1 hs hk => reads ?_⟩
  · rw [State.takeRecord, findRecord_ended hl h]
    dsimp only [ended]
    rw [State.endRead]
    split <;> rfl
  · rw [State.takeRecord, findRecord_unknown (by tauto) hs hk]
    dsimp only
    rw [moveTo_eq ha]
    rfl

/-! ## SAVE and RELOAD (R195, R196) -/

/-- The single byte 00h, or the bytes of a page. -/
theorem length_pageBytes (list : List Byte) (step : SaveStep) (blanks : Nat) : (pageBytes list step blanks).length = step.size := by
  cases step <;> simp [pageBytes, SaveStep.size]

/-- Byte `j` of a page as sent: the list's where the list reaches. -/
theorem getElem_pageBytes {list : List Byte} {step : SaveStep} (hs : step ≠ .blank) (blanks j : Nat)
    (hj : j < (pageBytes list step blanks).length) (hl : step.address + j < list.length) :
    some (pageBytes list step blanks)[j] = list[step.address + j]? := by
  cases step with
  | blank => exact absurd rfl hs
  | page k =>
    rw [List.getElem?_eq_getElem hl]
    simp [pageBytes, List.getElem?_eq_getElem (show 256 * k + j < list.length from hl), SaveStep.address]
  | final =>
    have hj : j < list.length := by simpa [SaveStep.address] using hl
    simp [pageBytes, List.getElem?_eq_getElem hj, SaveStep.address]

section
variable {list : List Byte} {step : SaveStep} (h : ConfigLaw s)
include h

theorem commitPage_outside {a : Nat} (ha : a < step.address ∨ step.address + step.size ≤ a) :
    memRead (s.commitPage list step).config a = memRead s.config a :=
  memRead_memWriteAll_outside h _ _ _ (by rwa [length_pageBytes])

/-- A byte of a page written is the list's. -/
theorem commitPage_inside {a : Nat} (hs : step ≠ .blank) (ha : step.address ≤ a) (hb : a < step.address + step.size)
    (hl : a < list.length) (hm : a ≤ 65535) : some (memRead (s.commitPage list step).config a) = list[a]? := by
  obtain ⟨j, rfl⟩ := Nat.exists_eq_add_of_le ha
  have hj : j < (pageBytes list step s.blanks).length := by rw [length_pageBytes]; omega
  rw [State.commitPage, ← getElem_pageBytes hs s.blanks j hj hl]
  exact congrArg some (memRead_memWriteAll h step.address j _ hj (by omega))

theorem commitBlank_zero : memRead (s.commitPage list .blank).config 0 = 0 :=
  memRead_memWriteAll h 0 0 [0x00] Nat.zero_lt_one (by omega)

end

/-- Settles O59. -/
theorem saveWritesPagesAndReloadReads : Obligations.SaveWritesPagesAndReloadReads := by
  intro s h bytes body i list step d a
  have busy {k : RequestKind} {x : Byte} {c : Instr} (ha : Owned s c h x body i k none)
      (hd : s.loader.activity ≠ .idle → s.promise.owner i k none h.node body = s.promise.refuse .busy)
      (hx : s.loader.activity ≠ .idle) : Answers c s h x s .busy [] := ha.refused (hd hx)
  refine ⟨fun ha => ⟨busy ha fun hx => ?_, fun hx hb => ha.refused ?_, fun hx hb => ha.answers_eq ?_⟩,
    fun ha => ⟨busy ha fun hx => ?_, fun hx hb => ha.refused ?_, fun hx hb => ha.answers_eq ?_⟩, fun hp => ?_⟩
  · show s.promise.takeSave body = _
    rw [State.takeSave]
    cases hy : s.promise.loader.activity with
    | idle => exact absurd hy hx
    | loading _ | reloading _ | saving _ _ _ => rfl
  · show s.promise.takeSave body = _
    rw [State.takeSave, show s.promise.loader.activity = .idle from hx]
    exact if_pos hb
  · show s.promise.takeSave body = _
    rw [State.takeSave, show s.promise.loader.activity = .idle from hx]
    exact if_neg (not_not.mpr hb)
  · show s.promise.takeReload body = _
    rw [State.takeReload]
    cases hy : s.promise.loader.activity with
    | idle => exact absurd hy hx
    | loading _ | reloading _ | saving _ _ _ => rfl
  · show s.promise.takeReload body = _
    rw [State.takeReload, show s.promise.loader.activity = .idle from hx]
    exact if_pos hb
  · show s.promise.takeReload body = _
    rw [State.takeReload, show s.promise.loader.activity = .idle from hx]
    exact if_neg (not_not.mpr hb)
  intro first past outside after later
  have hfirst : first = step.address := by cases step <;> rfl
  have hpast : past = step.address + step.size := by
    cases step with
    | blank => rfl
    | page k => rfl
    | final => rfl
  have far (ho : outside) : a < step.address ∨ step.address + step.size ≤ a := by rwa [← hpast, ← hfirst]
  refine ⟨fun hs => ⟨completes_of_eq (f := State.pageFinished) rfl hp ?_, completes_of_eq (f := State.pageExpires) rfl hp ?_⟩,
    fun hx => ⟨?_, ?_⟩⟩
  · rw [State.pageFinished]
    cases hy : s.loader.activity with
    | saving l p d => rw [State.saving, hy] at hs; cases hs
    | idle | loading _ | reloading _ => rfl
  · rw [State.pageExpires]
    cases hy : s.loader.activity with
    | saving l p d => rw [State.saving, hy] at hs; cases hs
    | idle | loading _ | reloading _ => rfl
  · obtain ⟨t, ht, hset⟩ := exec_settles (s := s) (c := .pageWriteFinished) (f := State.pageFinished) rfl hp
    rw [State.pageFinished, hx] at hset
    have hconfig : t.config = (s.commitPage list step).config := by
      rw [show t.config = (s.pageDone list step).config from (congrArg State.config hset.delivers.still_eq :), State.pageDone]
      cases step.after list <;> rfl
    refine ⟨t, ht, ?_, fun hc => ⟨fun ho => ?_, fun hb => ?_, fun hb hi hl hm => ?_⟩⟩
    · obtain ⟨m, hm⟩ : ∃ m, s.commitPage list step = { s with config := m, blanks := s.blanks + 1 } := ⟨_, rfl⟩
      have he : after { s with config := m, blanks := s.blanks + 1 } = s.pageDone list step := by
        rw [State.pageDone, hm]
        cases step with
        | blank => by_cases hl : 256 < list.length <;> simp only [after, SaveStep.after, hl, if_true, if_false] <;> rfl
        | page k => by_cases hl : 256 * (k + 1) < list.length <;> simp only [after, SaveStep.after, hl, if_true, if_false] <;> rfl
        | final => rfl
      rw [hm] at hconfig
      rw [hconfig, he]
      exact hset
    · rw [hconfig]; exact commitPage_outside hc (far ho)
    · subst hb; rw [hconfig]; exact commitBlank_zero hc
    · rw [hconfig]
      have hn : ¬(a < step.address ∨ step.address + step.size ≤ a) := by rwa [← hpast, ← hfirst]
      exact commitPage_inside hc hb (by omega) (by omega) hl hm
  · obtain ⟨t, ht, hset⟩ := exec_settles (s := s) (c := .pageWriteTimeout) (f := State.pageExpires) rfl hp
    rw [State.pageExpires, hx] at hset
    have hconfig : t.config = (s.spoilPage step).config := (congrArg State.config hset.delivers.still_eq :)
    refine ⟨t, ht, ?_, fun hc ho => ?_⟩
    · rw [hconfig, hfirst]; exact hset
    · rw [hconfig]; exact spoilPage_outside hc step (far ho)

end Sys2Proof.Machine
end

section
/-! PROOFS. The obligations about the rate arithmetic, the receiver, the transmitter and the matcher (chapters 2 and 4). -/
namespace Sys2Proof.Machine

-- Side by side, the proofs of this text would need more thread stacks than the check's memory limit holds.
set_option Elab.async false

variable {s : State} {n : NodeId}

/-! ## Rate arithmetic (R25 to R27) -/

/-- A quotient is the largest integer not above the fraction. -/
theorem div_bounds (a : Nat) {b : Nat} (hb : 0 < b) : b * (a / b) ≤ a ∧ a < b * (a / b + 1) :=
  ⟨Nat.mul_div_le a b, Nat.lt_mul_div_succ a hb⟩

/-- The divisor rounds to the nearest integer and stays within 36,864 (R25). -/
theorem divisor_bounds {r : Nat} (h1 : 50 ≤ r) (h2 : r ≤ 1843200) :
    1 ≤ divisor r ∧ divisor r ≤ 36864 ∧ 16 * r * divisor r ≤ 29491200 + 8 * r ∧ 29491200 + 8 * r < 16 * r * (divisor r + 1) := by
  have hb := div_bounds (29491200 + 8 * r) (b := 16 * r) (by omega)
  refine ⟨(Nat.one_le_div_iff (by omega)).mpr ?_, Nat.le_of_lt_succ ((Nat.div_lt_iff_lt_mul (by omega)).mpr ?_), hb.1, hb.2⟩
  · show 16 * r ≤ 29491200 + 8 * r
    omega
  · show 29491200 + 8 * r < 36865 * (16 * r)
    omega

/-- The achieved rate lies between 50 and 1,843,200. -/
theorem achieved_bounds {r : Nat} (h1 : 50 ≤ r) (h2 : r ≤ 1843200) : 50 ≤ achieved r ∧ achieved r ≤ 1843200 := by
  obtain ⟨hd1, hd2, -⟩ := divisor_bounds h1 h2
  refine ⟨(Nat.le_div_iff_mul_le (by omega)).mpr ?_, Nat.div_le_of_le_mul ?_⟩
  · show 50 * (16 * divisor r) ≤ 29491200
    omega
  · show 29491200 ≤ 16 * divisor r * 1843200
    omega

/-- A quotient rounded up is the smallest integer not below the fraction. -/
theorem ceilDiv_bounds (a : Nat) {b : Nat} (hb : 0 < b) : a ≤ ceilDiv a b * b ∧ ceilDiv a b * b < a + b := by
  obtain ⟨h1, h2⟩ := div_bounds (a + b - 1) hb
  have h3 : b * ((a + b - 1) / b + 1) = b * ((a + b - 1) / b) + b := Nat.mul_succ _ _
  rw [ceilDiv, Nat.mul_comm]
  omega

theorem bits_bounds {f : Framing} (h1 : 5 ≤ f.dataBits) (h2 : f.dataBits ≤ 8) (h3 : 1 ≤ f.stopBits) (h4 : f.stopBits ≤ 2) :
    7 ≤ f.bits ∧ f.bits ≤ 12 := by
  rw [Framing.bits]
  split <;> omega

/-- Settles O42. -/
theorem rateArithmeticRoundsAsStated : Obligations.RateArithmeticRoundsAsStated := by
  intro r f l h1 h2 h3 h4 h5 h6 d a δ off c
  obtain ⟨hd1, hd2, hd3, hd4⟩ := divisor_bounds h1 h2
  obtain ⟨ha1, ha2⟩ := achieved_bounds h1 h2
  obtain ⟨hb1, hb2⟩ := bits_bounds h3 h4 h5 h6
  obtain ⟨ha3, ha4⟩ := div_bounds 29491200 (b := 16 * d) (by omega)
  obtain ⟨hv1, hv2⟩ := div_bounds (2000 * off + r) (b := 2 * r) (by omega)
  obtain ⟨hc1, hc2⟩ := ceilDiv_bounds (f.bits * 1000000) (b := a) (by omega)
  have hc1' : f.bits * 1000000 ≤ c * a := hc1
  have hc2' : c * a < f.bits * 1000000 + a := hc2
  refine ⟨hd1, hd2, hd3, hd4, ha3, ha4, hv1, hv2, decide_eq_true_iff, hb1, hb2, hc1, hc2, ?_, ?_, rfl, rfl, fun hl => ?_⟩
  · by_contra hc
    have : c * a ≤ 3 * 1843200 := Nat.mul_le_mul (by omega) ha2
    omega
  · by_contra hc
    have : 240001 * a ≤ c * a := Nat.mul_le_mul_right a (by omega)
    omega
  · rw [Line.rate, List.getD_eq_getElem?_getD, List.getElem?_eq_getElem hl]
    rfl

/-! ## The receiver (R28, R30, R31) -/

/-- Settles O43: each command's operation, by the receiver's state. -/
theorem receiverFollowsTheLine : Obligations.ReceiverFollowsTheLine := by
  intro s n high d hp l r put later edge
  have starts {e : State} (h : s.startBit n = e) : Completes (.startBit n) s e := completes_of_eq (f := (·.startBit n)) rfl hp h
  have falls {e : State} (h : s.falseStart n = e) : Completes (.falseStart n) s e := completes_of_eq (f := (·.falseStart n)) rfl hp h
  have ends {e : State} (h : s.breakEnds n = e) : Completes (.breakEnd n) s e := completes_of_eq (f := (·.breakEnds n)) rfl hp h
  have quiet {e : State} (h : s.quietEnds n = e) : Completes (.quietElapsed n) s e := completes_of_eq (f := (·.quietEnds n)) rfl hp h
  have moves {e : State} (h : s.quietEdge n high = e) : Completes edge s e :=
    completes_of_eq (f := (·.quietEdge n high)) (if_pos hp) hp h
  have breaks {e : State} (h : Settles e (s.breakBegins n)) : Completes (.breakDetected n) s e :=
    completes_of (f := (·.breakBegins n)) rfl hp h
  have hl : s.lines.get n = { l with receiver := r } := rfl
  have kept (e : Receiver) (h : r = e) : s.putLine n { l with receiver := e } = s := h ▸ State.putLine_self s n
  refine ⟨fun h => starts ?_, fun h => starts ?_, fun h => falls ?_, fun h => falls ?_, fun h => breaks ?_, fun h => breaks ?_,
    fun h => ends ?_, fun h => ends ?_, fun h => quiet ?_, fun h => quiet ?_, fun h => ?_, fun h => moves ?_, fun h => moves ?_,
    fun h => moves ?_⟩
  · rw [State.startBit, show (s.lines.get n).receiver = .ready from h]
  · rw [State.startBit]
    cases hr : (s.lines.get n).receiver with
    | ready => exact absurd hr h
    | quiet _ | character _ | lowHold _ | brk => rfl
  · rw [State.falseStart, show (s.lines.get n).receiver = .character d from h]
  · rw [State.falseStart]
    cases hr : (s.lines.get n).receiver with
    | character x => exact absurd hr (h x)
    | quiet _ | ready | lowHold _ | brk => rfl
  · rw [State.breakBegins, show (s.lines.get n).receiver = .lowHold d from h]
    exact offerMatched_settles _ n .brk
  · rw [State.breakBegins]
    cases hr : (s.lines.get n).receiver with
    | lowHold x => exact absurd hr (h x)
    | quiet _ | ready | character _ | brk => exact .refl s
  · rw [State.breakEnds, show (s.lines.get n).receiver = .brk from h]
    rfl
  · rw [State.breakEnds]
    cases hr : (s.lines.get n).receiver with
    | brk => exact absurd hr h
    | quiet _ | ready | character _ | lowHold _ => rfl
  · rw [State.quietEnds, show (s.lines.get n).receiver = .quiet (some d) from h]
    rfl
  · rw [State.quietEnds]
    cases hr : (s.lines.get n).receiver with
    | quiet w =>
      cases w with
      | none => rfl
      | some x => exact absurd hr (h x)
    | brk | ready | character _ | lowHold _ => rfl
  · have hq : s.quietEdge n high = if l.rxd = high then s else put s high (.quiet (if high then some (s.now + l.charTime) else none)) := by
      rw [State.quietEdge]
      rcases h with h | h <;> rw [show (s.lines.get n).receiver = _ from h] <;> rfl
    by_cases hx : l.rxd = high
    · rw [if_pos hx]; exact moves (hq.trans (if_pos hx))
    · rw [if_neg hx]; exact moves (hq.trans (if_neg hx))
  · rw [show put s high r = s.putLine n { l with rxd := high } from rfl, State.quietEdge,
      show (s.lines.get n).receiver = .character d from h]
  · rw [show put s (l.rxd || high) r = s.putLine n { l with rxd := l.rxd || high } from rfl, State.quietEdge,
      show (s.lines.get n).receiver = .ready from h]
  · rw [State.quietEdge]
    rcases h with h | h <;> rw [show (s.lines.get n).receiver = _ from h]

/-! ## The transmitter (R40, R41) -/

theorem filter_map_length {α : Type} (f : α → Bool) (l : List α) : ((l.map f).filter id).length = (l.filter f).length := by
  rw [List.filter_map, List.length_map]
  rfl

theorem map_lowBits (b : Byte) (k : Nat) : (List.range k).map (lowBits k b).getLsbD = (List.range k).map b.getLsbD :=
  List.map_congr_left fun j hj => by simp [getLsbD_lowBits, List.mem_range.mp hj]

/-- The framed bits of a byte are counted as they are sent. -/
theorem ones_lowBits (b : Byte) {k : Nat} (hk : k ≤ 8) : ones (lowBits k b) = (((List.range k).map b.getLsbD).filter id).length := by
  obtain ⟨j, hj⟩ := Nat.exists_eq_add_of_le hk
  have above : ((List.range j).map (k + ·)).filter (lowBits k b).getLsbD = [] := by
    simp [List.filter_eq_nil_iff, getLsbD_lowBits]
  have split : List.range 8 = List.range k ++ (List.range j).map (k + ·) := hj ▸ List.range_add
  rw [← map_lowBits, filter_map_length, ones, split, List.filter_append, above, List.append_nil]

/-! What the transmitter does when an item has ended (R40, R41). -/

theorem Line.next_nil {l : Line} (h : l.txQueue = []) (now : Nat) : l.next now = { l with transmitter := .idle } := by
  rw [Line.next, Line.wake, h]

theorem Line.next_cons {l : Line} {x : TxItem} {rest : List TxItem} (h : l.txQueue = x :: rest) (now : Nat) :
    l.next now = { l with transmitter := l.begin now x, txQueue := rest } := by
  rw [Line.next, Line.wake, h]
  cases x <;> rfl

/-- Settles O45. -/
theorem transmitterSendsItemsInOrder : Obligations.TransmitterSendsItemsInOrder := by
  intro s n d v b f hp l x next later
  have sent {e : State} (h : s.charSent n = e) : Completes (.characterSent n) s e := completes_of_eq (f := (·.charSent n)) rfl hp h
  have rises {e : State} (h : s.breakRises n = e) : Completes (.breakLowEnd n) s e := completes_of_eq (f := (·.breakRises n)) rfl hp h
  have high {e : State} (h : s.breakSent n = e) : Completes (.breakHighEnd n) s e := completes_of_eq (f := (·.breakSent n)) rfl hp h
  have hnext (now : Nat) : l.next now = next now := by
    rcases hq : l.txQueue with _ | ⟨y, rest⟩
    · simp only [next, hq, Line.next_nil hq]
    · cases y <;> simp only [next, hq, Line.next_cons hq, Line.begin]
  refine ⟨fun h => sent ?_, fun h => sent ?_, fun h => rises ?_, fun h => rises ?_, fun h => high ?_, fun h => high ?_, fun h => ?_,
    fun h => ?_, fun h hf => ?_⟩
  · rw [State.charSent, show (s.lines.get n).transmitter = .sending b f v from h, ← hnext]
  · rw [State.charSent]
    cases hx : (s.lines.get n).transmitter with
    | sending y g w => exact absurd hx (h y g w)
    | idle | breakLow _ | breakHigh _ => rfl
  · rw [State.breakRises, show (s.lines.get n).transmitter = .breakLow d from h]
    rfl
  · rw [State.breakRises]
    cases hx : (s.lines.get n).transmitter with
    | breakLow y => exact absurd hx (h y)
    | idle | sending _ _ _ | breakHigh _ => rfl
  · rw [State.breakSent, show (s.lines.get n).transmitter = .breakHigh d from h, ← hnext]
    rfl
  · rw [State.breakSent]
    cases hx : (s.lines.get n).transmitter with
    | breakHigh y => exact absurd hx (h y)
    | idle | sending _ _ _ | breakLow _ => rfl
  · rcases h with h | h <;> rw [h] <;> rfl
  · rw [h]; rfl
  · intro data ones
    rw [h, Transmitter.txd, charLevels, map_lowBits]
    cases f.parity with
    | none => rfl
    | even => rw [parityBit, ones_lowBits b hf]; rfl
    | odd => rw [parityBit, ones_lowBits b hf]; rfl

/-! ## The matcher (R74 to R77) -/

/-- The elements matched in a row after a clean character (R76). -/
theorem Pattern.advance_eq (p : Pattern) (k : Nat) (start : Bool) (c : Byte) : p.advance k start c =
    if 0 < k ∧ ((p.elements[k]?).map (fun y => y.accepts c)) = some true then k + 1
    else if p.anchored = true ∧ start = false then 0
    else if (p.elements.head?).map (fun y => y.accepts c) = some true then 1 else 0 := by
  have at_ (j : Nat) : p.acceptsAt j c = true ↔ (p.elements[j]?).map (fun y => y.accepts c) = some true := by
    rw [Pattern.acceptsAt]
    cases p.elements[j]? <;> simp
  rw [Pattern.advance]
  simp only [at_, Bool.and_eq_true, Bool.not_eq_true', List.head?_eq_getElem?]

theorem Matcher.progressOf_clear (m : Matcher) (n : NodeId) (b : Bool) (i : PatternIx) : (m.clear n b).progressOf n i = 0 := by
  simp [Matcher.clear, Matcher.progressOf]

theorem Matcher.lineStart_clear (m : Matcher) (n : NodeId) (b : Bool) : (m.clear n b).lineStart.get n = b := Tab.get_put_same _ _ _

theorem Matcher.progressOf_char (m : Matcher) (n : NodeId) (c : Byte) (i : PatternIx) :
    (m.char n c).progressOf n i = if m.completes n c i then 0 else m.tested n c i := by
  have : ((m.char n c).progress.get n) = m.progressAfter n c := Tab.get_put_same _ _ _
  rw [Matcher.progressOf, this]
  simp [Matcher.progressAfter, Tab.get, indices]

theorem Matcher.overrun_table (m : Matcher) (n : NodeId) (e : Entry) : (m.overrun n e).table = m.table := by
  unfold Matcher.overrun
  split <;> rfl

theorem Matcher.overrun_progress (m : Matcher) (n : NodeId) (e : Entry) (i : PatternIx) :
    (m.overrun n e).progressOf n i = if e.overrun then 0 else m.progressOf n i := by
  unfold Matcher.overrun
  split
  · exact Matcher.progressOf_clear _ _ _ _
  · rfl

theorem Matcher.overrun_lineStart (m : Matcher) (n : NodeId) (e : Entry) :
    (m.overrun n e).lineStart.get n = (!e.overrun && m.lineStart.get n) := by
  unfold Matcher.overrun
  cases e.overrun
  · rfl
  · exact Matcher.lineStart_clear _ _ _

/-- Settles O47. -/
theorem patternsAdvanceByCleanCharacters : Obligations.PatternsAdvanceByCleanCharacters := by
  intro m n e v p f u i x t k start reached flawed
  let o := m.overrun n e
  have ht : t = o.own n e.kind := rfl
  have clean : (p || f || u) = true ↔ flawed := by cases p <;> cases f <;> cases u <;> simp [flawed]
  have ho : o.table = m.table := Matcher.overrun_table m n e
  have hprogress : o.progressOf n i = k := Matcher.overrun_progress m n e i
  have hstart : o.lineStart.get n = start := Matcher.overrun_lineStart m n e
  have char (h : e.kind = .char v p f u) (hf : ¬flawed) : t = o.char n v := by
    rw [ht, h, Matcher.own]
    exact if_neg (by rwa [clean])
  have completed (h : e.kind = .char v p f u) (hf : ¬flawed) : i ∈ m.completed n e ↔ o.completes n v i = true := by
    have hc : m.completed n e = (indices 32).filter (o.completes n v) := by
      rw [Matcher.completed, h]
      exact if_neg (by rwa [clean])
    rw [hc, List.mem_filter]
    exact and_iff_right (mem_indices i)
  have cleared {b : Bool} (h : t = o.clear n b) : t.progressOf n i = 0 := h ▸ Matcher.progressOf_clear o n b i
  refine ⟨(Matcher.take_eq m n e).1, (Matcher.take_eq m n e).2, fun h hf => ⟨?_, fun hx hm => ?_, fun hx => ?_⟩, fun h => ?_,
    fun h hf => ?_, fun h => ?_, fun h => ?_⟩
  · rw [char h hf, Matcher.char, Tab.get_put_same, Bool.or_eq_true, beq_iff_eq, beq_iff_eq]
  · have tested : o.tested n v i = reached := by
      rw [Matcher.tested, ho, hx]
      dsimp only
      rw [if_pos (show x.applies n = true from hm), hprogress, hstart]
      exact Pattern.advance_eq x k start v
    have completes : o.completes n v i = true ↔ reached = x.elements.length := by
      rw [Matcher.completes, ho, hx]
      dsimp only
      rw [tested, show x.applies n = true from hm, Bool.true_and, beq_iff_eq]
    rw [completed h hf, completes, char h hf, Matcher.progressOf_char, tested]
    exact ⟨by simp only [completes], .rfl⟩
  · have idle : o.tested n v i = k ∧ o.completes n v i = false := by
      rw [Matcher.tested, Matcher.completes, ho]
      rcases hx with hx | ⟨hx, hm⟩
      · rw [hx]
        exact ⟨hprogress, rfl⟩
      · rw [hx]
        dsimp only
        rw [show x.applies n = false from hm]
        exact ⟨hprogress, rfl⟩
    rw [completed h hf, char h hf, Matcher.progressOf_char, idle.2, idle.1]
    exact ⟨rfl, nofun⟩
  · rcases h with ⟨h, hf⟩ | h
    · have hcl : t = o.clear n false := by
        rw [ht, h, Matcher.own]
        exact if_pos (clean.mpr hf)
      refine ⟨cleared hcl, ?_⟩
      rw [Matcher.completed, h]
      exact if_pos (clean.mpr hf)
    · cases hk : e.kind with
      | char a b c d => exact absurd hk (h a b c d)
      | brk => exact ⟨cleared (b := o.lineStart.get n) (by rw [ht, hk]; rfl), by rw [Matcher.completed, hk]⟩
      | mark y =>
        refine ⟨?_, by rw [Matcher.completed, hk]⟩
        cases y with
        | reboot => exact cleared (b := true) (by rw [ht, hk]; rfl)
        | rate _ | settings | attachGap => exact cleared (b := o.lineStart.get n) (by rw [ht, hk]; rfl)
  · rw [ht, h, Matcher.own, if_pos (clean.mpr hf)]
    exact Matcher.lineStart_clear _ _ _
  · rw [ht, h]
    exact Matcher.lineStart_clear _ _ _
  · rw [ht, ← hstart]
    rcases h with h | h | h | ⟨y, h⟩ <;> rw [h] <;> exact Matcher.lineStart_clear _ _ _

end Sys2Proof.Machine
end

section
/-! PROOFS. The obligations about the timers of batches and notices, the waiting producers and the transmit port (chapters 3 and 10). -/
namespace Sys2Proof.Machine

-- Side by side, the proofs of this text would need more thread stacks than the check's memory limit holds.
set_option Elab.async false

variable {s t : State} {n : NodeId}

/-! ## Flush and gap timers (R50, R189) -/

/-- A due batch stays due until the ring is empty (R50). -/
def DueKept (n : NodeId) (s t : State) : Prop :=
  (s.streams.get n).ring = [] ∨ (s.streams.get n).batchDue = true → (t.streams.get n).ring = [] ∨ (t.streams.get n).batchDue = true

theorem DueKept.refl (n : NodeId) (s : State) : DueKept n s s := id

theorem DueKept.trans {u : State} (h : DueKept n s t) (k : DueKept n t u) : DueKept n s u := fun e => k (h e)

theorem DueKept.of_eq (h : t.streams = s.streams) : DueKept n s t := fun e => h ▸ e

theorem DueKept.putStream {m : NodeId} {x : Stream}
    (h : (s.streams.get m).ring = [] ∨ (s.streams.get m).batchDue = true → x.ring = [] ∨ x.batchDue = true) :
    DueKept n s (s.putStream m x) := by
  intro e
  rw [State.putStream_streams, Tab.get_put]
  split
  · next hm => exact h (hm ▸ e)
  · exact e

/-- A batch leaves a due batch where entries remain (R50, R51). -/
theorem formBatch_due (s : State) (n m : NodeId) : DueKept n s (s.formBatch m) := by
  let x : Stream := { s.streams.get m with
    ring := (s.streams.get m).ring.drop 512, batchDue := (s.streams.get m).batchDue && !((s.streams.get m).ring.drop 512).isEmpty }
  rw [State.formBatch]
  obtain ⟨c, a, r, h⟩ := State.passAll_eq ((s.enqueueAll _).putStream m x) m (s.streams.get m).ringStart ((s.streams.get m).ring.take 512)
  rw [h, State.putStream_putStream, State.putStream_streams, Tab.get_put_same]
  refine DueKept.putStream (s := s.enqueueAll _) fun e => ?_
  by_cases hr : (s.streams.get m).ring.drop 512 = []
  · exact .inl hr
  · rcases e with e | e
    · exact absurd (by rw [show (s.streams.get m).ring = [] from e, List.drop_nil]) hr
    · refine .inr ?_
      show ((s.streams.get m).batchDue && !((s.streams.get m).ring.drop 512).isEmpty) = true
      rw [show (s.streams.get m).batchDue = true from e, Bool.true_and, Bool.not_eq_true', List.isEmpty_eq_false_iff]
      exact hr

theorem testBatch_due (s : State) (n m : NodeId) : DueKept n s (s.testBatch m) := by
  have loop (k : Nat) (a : State) : DueKept n a (State.formBatches m k a) := by
    induction k generalizing a with
    | zero => exact .refl n a
    | succ k ih =>
      rw [State.formBatches]
      split
      · exact (formBatch_due a n m).trans (ih _)
      · exact .refl n a
  exact loop 1024 s

theorem serve_due (s : State) (n : NodeId) (b : Bool) {p : Producer} (hp : p ≠ .needs) : DueKept n s (s.serve b p).1 := by
  cases p with
  | batch m => exact formBatch_due s n m
  | replay m =>
    simp only [State.serve, State.replayFrame]
    split
    · exact .refl n s
    · split
      · exact DueKept.putStream (s := s.enqueue _) id
      · exact DueKept.putStream (s := s.enqueue _) id
  | needs => exact absurd rfl hp
  | imageOpen _ | refetch _ | rewrite _ | notice => exact .of_eq (serve_streams s b hp nofun nofun)

theorem finish_due (s : State) (n : NodeId) : DueKept n s s.finish :=
  finish_preserves (R := DueKept n) (.refl n) .trans (fun _ _ => .of_eq rfl) (fun a b _ hp => serve_due a n b hp)
    (fun _ => .of_eq rfl) s

/-- Settles O33. -/
theorem flushAndGapTimersMakeTheirFramesDue : Obligations.FlushAndGapTimersMakeTheirFramesDue := by
  intro s n id d hp t
  let due : State := (s.reachUs d).putStream n { t with flush := none, batchDue := t.batchDue || !t.ring.isEmpty }
  have expires (h : t.flush = some d) : s.flushExpires n = due.testBatch n := by
    rw [State.flushExpires, show (s.streams.get n).flush = some d from h]
  refine ⟨fun h => completes_of_eq (f := (·.flushExpires n)) rfl hp ?_, fun h => ⟨completes_of (f := (·.flushExpires n)) rfl hp ?_,
    fun u hu hr => ?_⟩, fun h => completes_of_eq (f := (·.gapExpires id)) rfl hp ?_,
    fun h => completes_of_eq (f := (·.gapExpires id)) rfl hp ?_⟩
  · rw [State.flushExpires, show (s.streams.get n).flush = none from h]
  · show Settles _ (s.flushExpires n)
    rw [expires h]
    refine Settles.trans (putStream_settled ?_) (testBatch_settles due n)
    exact ⟨rfl, rfl, rfl, rfl, rfl, rfl, List.suffix_refl _, fun _ => rfl⟩
  · rw [exec_running (f := (·.flushExpires n)) rfl hp] at hu
    cases hu
    rw [expires h]
    refine ((testBatch_due due n n).trans (finish_due _ n)) (.inr ?_)
    rw [State.putStream_streams, Tab.get_put_same]
    show (t.batchDue || !t.ring.isEmpty) = true
    rw [List.isEmpty_eq_false_iff.mpr hr, Bool.not_false, Bool.or_true]
  · rw [State.gapExpires, h]
  · rw [State.gapExpires, h]
    rfl

/-! ## The transmit port (R179, R187) -/

section
variable {u : Uplink} {f : TxFrame}

theorem takeNext_of_arbitrate (hp : u.port = none) (hm : u.macEnabled = true) (h : u.arbitrate = some f) :
    u.takeNext = { u with port := some f, queue := u.queue.erase f, rotation := Rotation.after f.cls u.rotation } := by
  rw [Uplink.takeNext, hp, hm, h]
  rfl

/-- The oldest frame of a class that has one waiting. -/
def Uplink.oldest (u : Uplink) (c : FrameClass) : Option TxFrame := u.queue.find? (fun g => g.cls = c)

theorem cls_oldest {c : FrameClass} (h : u.oldest c = some f) : f.cls = c := by
  simpa using List.find?_some h

/-- The frame of the class the pointer's order gives, where no class before it has one waiting (R187). -/
theorem takeNext_rotated (hp : u.port = none) (hm : u.macEnabled = true) (ha : u.oldest .answer = none) {k : Nat}
    (hn : ∀ j, j < k → (u.rotation.order[j]?).bind u.oldest = none) {c : FrameClass} (hc : u.rotation.order[k]? = some c)
    (h : u.oldest c = some f) :
    u.takeNext = { u with port := some f, queue := u.queue.erase f, rotation := Rotation.after c u.rotation } := by
  rw [← cls_oldest h]
  refine takeNext_of_arbitrate hp hm ?_
  show (FrameClass.answer :: u.rotation.order).findSome? u.oldest = some f
  rw [List.findSome?_cons, ha]
  dsimp only
  generalize u.rotation.order = cs at hn hc
  induction cs generalizing k with
  | nil => cases hc
  | cons d ds ih =>
    cases k with
    | zero =>
      cases hc
      rw [List.findSome?_cons, h]
    | succ k =>
      have hd : u.oldest d = none := hn 0 (Nat.succ_pos k)
      rw [List.findSome?_cons, hd]
      exact ih (k := k) (fun j hj => hn (j + 1) (Nat.succ_lt_succ hj)) hc

/-- No frame waits where arbitration finds none. -/
theorem queue_of_arbitrate (h : u.arbitrate = none) : u.queue = [] := by
  have none_of (c : FrameClass) (hc : c = .answer ∨ c ∈ u.rotation.order) : u.oldest c = none :=
    List.findSome?_eq_none_iff.mp (show (FrameClass.answer :: u.rotation.order).findSome? u.oldest = none from h) c
      (List.mem_cons.mpr hc)
  have every (c : FrameClass) : c = .answer ∨ c ∈ u.rotation.order := by
    cases u.rotation <;> cases c <;> decide
  refine List.eq_nil_iff_forall_not_mem.mpr fun g hg => ?_
  have := List.find?_eq_none.mp (none_of g.cls (every _)) g hg
  simp at this

end

/-- Every producer leaves the port, the pointer and the MAC, and frames join the queue. -/
theorem serve_uplink (s : State) (b : Bool) (p : Producer) : UplinkGrows s (s.serve b p).1 := by
  cases p with
  | batch m =>
    obtain ⟨fs, d, c, a, r, h⟩ := State.formBatch_eq s m
    exact ⟨fs, by rw [State.serve, h]; rfl⟩
  | replay m =>
    simp only [State.serve, State.replayFrame]
    split
    · exact .refl s
    · split
      · exact ⟨[_], rfl⟩
      · exact ⟨[_], rfl⟩
  | imageOpen r => exact (sendOpen_media (ns := fun _ => True) s r).uplink
  | needs => exact (tryOne_work s).uplink
  | refetch f =>
    simp only [State.serve, State.refetch]
    split
    · split
      · exact ⟨[_], rfl⟩
      · exact .refl s
    · exact .refl s
  | rewrite m => exact (sendWrite_media (ns := fun _ => True) s m).uplink
  | notice =>
    simp only [State.serve, State.sendNotice]
    split
    · exact ⟨_, by rw [State.putSet_up]; rfl⟩
    · exact .refl s

theorem settle_uplink (k : Nat) (b : Bool) (s : State) : UplinkGrows s (State.settle k b s) :=
  settle_preserves (R := UplinkGrows) .refl .trans (fun _ _ => .of_eq rfl) serve_uplink k b s

theorem settle_idle {k : Nat} {b : Bool} (h : s.readyProducers b = []) : State.settle k b s = s := by
  cases k with
  | zero => rfl
  | succ k => rw [State.settle, h]

theorem readyProducers_false (h : s.readyProducers true = []) : s.readyProducers false = [] := by
  simp only [State.readyProducers, List.append_eq_nil_iff] at h ⊢
  exact ⟨⟨⟨⟨h.1.1.1.1, rfl⟩, h.1.1.2⟩, h.1.2⟩, h.2⟩

/-- The state `e` in which a descriptor became free ends the step so (R186, R187). -/
theorem sends_of (hp : s.porn = true) {c : Instr} {f : State → State} {e : State} (hc : exec c s = s.whenRunning f)
    (hf : f s = e.descriptorFreed) (hport : e.up.port = none) :
    (∃ t, exec c s = .next t ∧ Delivers e t ∧ ∃ (u : Uplink) (new : List TxFrame), t.up = u.takeNext ∧ u.port = none ∧
      u.queue = e.up.queue ++ new ∧ u.rotation = e.up.rotation ∧ u.macEnabled = e.up.macEnabled) ∧
    (e.readyProducers true = [] → exec c s = .next (e.putUp e.up.takeNext)) := by
  have hx := exec_running hc hp
  rw [hf] at hx
  refine ⟨⟨_, hx, (descriptorFreed_delivers e).trans (finish_settles _).delivers, ?_⟩, fun hr => ?_⟩
  · have grows : UplinkGrows e (State.settle settleFuel false e.descriptorFreed) :=
      (settle_uplink settleFuel true e).trans (settle_uplink settleFuel false e.descriptorFreed)
    have ht : e.descriptorFreed.finish.up = (State.settle settleFuel false e.descriptorFreed).up.takeNext := by
      rw [State.finish, State.putUp_up]
    obtain ⟨q, hq⟩ := grows
    exact ⟨_, q, ht, by rw [hq]; exact hport, by rw [hq], by rw [hq], by rw [hq]⟩
  · rw [hx, State.descriptorFreed, settle_idle hr, State.finish, settle_idle (readyProducers_false hr)]

/-- Settles O35. -/
theorem answersOvertakeAndThePortSends : Obligations.AnswersOvertakeAndThePortSends := by
  refine ⟨fun u f hp hm => ?_, fun s f b => ?_⟩
  · intro oldest order
    refine ⟨fun hq => ?_, fun ha => ?_, fun k hk ha hn hx => ?_⟩
    · have : u.arbitrate = none := List.findSome?_eq_none_iff.mpr fun c _ => by rw [hq]; rfl
      rw [Uplink.takeNext, hp, hm, this]
      rfl
    · have harb : u.arbitrate = some f := by
        rw [Uplink.arbitrate, List.findSome?_cons, show u.queue.find? (fun g => g.cls = .answer) = some f from ha]
      rw [takeNext_of_arbitrate hp hm harb, cls_oldest (u := u) (c := .answer) ha]
      rfl
    · have horder : u.rotation.order = order.map Prod.fst := by
        show _ = List.map Prod.fst (match u.rotation with | .media => _ | .console => _ | .notice => _)
        cases u.rotation <;> rfl
      have hafter (x : FrameClass × Rotation) (h : order[k]? = some x) : Rotation.after x.1 u.rotation = x.2 := by
        have hmem := List.mem_of_getElem? h
        revert hmem
        show x ∈ (match u.rotation with | .media => _ | .console => _ | .notice => _) → _
        cases u.rotation <;> simp [Rotation.after] <;> rintro (rfl | rfl | rfl) <;> rfl
      obtain ⟨x, hk, hf⟩ := Option.bind_eq_some_iff.mp hx
      rw [takeNext_rotated hp hm ha (k := k) (c := x.1) ?_ ?_ hf, hk, hafter x hk]
      · rfl
      · intro j hj
        rw [horder, List.getElem?_map]
        rw [Option.bind_map]
        exact hn j hj
      · rw [horder, List.getElem?_map, hk]
        rfl
  · intro wire sends
    refine ⟨rfl, fun hp => ⟨fun h => completes_of_eq (f := State.transmit) rfl hp ?_, fun h hl => ?_,
      fun h => completes_of_eq (f := State.discardHead) rfl hp ?_, fun h hl => ?_⟩⟩
    · rw [State.transmit]
      rcases h with h | h
      · rw [h]
      · split
        · rw [if_neg (by rw [h]; nofun)]
        · rfl
    · refine sends_of hp (f := State.transmit) rfl ?_ rfl
      rw [State.transmit, h]
      exact if_pos hl
    · rw [State.discardHead]
      rcases h with h | h
      · rw [h]
      · split
        · exact if_pos h
        · rfl
    · refine sends_of hp (f := State.discardHead) rfl ?_ rfl
      rw [State.discardHead, h]
      exact if_neg (by rw [hl]; nofun)

/-! ## Waiting producers (R186, R189) -/

/-- Every live fetch and write names a record in use. -/
def Referred (s : State) : Prop :=
  (∀ f l, (s.images.fetches.get f).live.map Fetch.unsent = some l → ((s.image l.image).map ImageRec.unsent).isSome) ∧
    ∀ n w, (s.images.writes.get n).live.map WriteOp.unsent = some w → ((s.image w.image).map ImageRec.unsent).isSome

theorem Referred.settles (h : Settles s t) : Referred s ↔ Referred t := by
  obtain ⟨hd, -, -, hf⟩ := h
  obtain ⟨hi, hw, -⟩ := hd.images
  simp only [Referred, hi, hf, hw]

theorem FetchLaw.referred (h : FetchLaw s) (hi : ImageLaw s) : Referred s := by
  obtain ⟨hf, -, hw⟩ := h
  obtain ⟨-, hm, -⟩ := hi
  refine ⟨fun f l e => ?_, fun n w e => ?_⟩
  · obtain ⟨k, hk, rfl⟩ := Option.map_eq_some_iff.mp e
    rw [Option.isSome_map]
    exact hf f k hk
  · obtain ⟨v, hv, rfl⟩ := Option.map_eq_some_iff.mp e
    rw [Option.isSome_map]
    have := hw n v hv
    have named {m : MediumRef} (hr : (s.port n).medium.ref? = some m) (hx : m.image = v.image) : (s.image v.image).isSome :=
      hx ▸ hm n m hr
    split at this
    · next m b hx => exact named (by rw [hx]; rfl) this
    · next m b c hx => exact named (by rw [hx]; rfl) this
    · exact this.elim
    · exact this.elim

/-- The sets with a member. -/
def State.busySets (s : State) : List SetId := allSets.filter (fun id => !(s.pendingSet id).members.isEmpty)

/-- What the producers can still take: descriptors outside the reserve, and sets that may be emptied. -/
def State.servable (s : State) : Nat := (56 - s.up.others) + s.busySets.length

theorem servable_le (s : State) : s.servable ≤ 65 := by
  have h : s.busySets.length ≤ allSets.length := List.length_filter_le _ _
  have h9 : allSets.length = 9 := rfl
  rw [State.servable]
  omega

theorem others_lt_of_outside (h : 1 ≤ s.up.outside) : s.up.others < 56 := by
  have := le_trans h (Nat.min_le_left _ _)
  omega

theorem others_append (u : Uplink) (fs : List TxFrame) :
    ({ u with queue := u.queue ++ fs } : Uplink).others = u.others + (fs.filter (fun f => f.cls ≠ .answer)).length := by
  simp [Uplink.others, Uplink.frames, List.filter_append, Nat.add_assoc]

theorem busySets_congr (h : t.notices = s.notices) : t.busySets = s.busySets := by
  have hp (id : SetId) : t.pendingSet id = s.pendingSet id := by
    cases id <;> simp only [State.pendingSet, h]
  simp only [State.busySets, hp]

/-- A frame of another class than ANSWER takes a descriptor outside the reserve. -/
theorem servable_lt {fs : List TxFrame} (hu : t.up = { s.up with queue := s.up.queue ++ fs }) (hn : t.notices = s.notices)
    (ho : 1 ≤ s.up.outside) {f : TxFrame} (hf : f ∈ fs) (hc : f.cls ≠ .answer) : t.servable < s.servable := by
  have h1 := others_lt_of_outside ho
  have h2 : 0 < (fs.filter (fun f => f.cls ≠ .answer)).length := List.length_pos_of_mem (List.mem_filter.mpr ⟨hf, by simpa using hc⟩)
  rw [State.servable, State.servable, busySets_congr hn, hu, others_append]
  omega

theorem mem_allSets (id : SetId) : id ∈ allSets := by
  cases id with
  | none => simp [allSets]
  | some n => simp [allSets]

/-- A set emptied is one fewer with a member. -/
theorem busySets_putSet {id : SetId} (h : (s.pendingSet id).members ≠ []) (gap : Option Nat) :
    (s.putSet id ⟨[], gap⟩).busySets.length < s.busySets.length := by
  have hs : (s.putSet id ⟨[], gap⟩).busySets = s.busySets.filter (fun q => q ≠ id) := by
    simp only [State.busySets, List.filter_filter]
    refine List.filter_congr fun q _ => ?_
    by_cases hq : q = id
    · subst hq; simp
    · simp [hq]
  rw [hs, List.length_filter_lt_length_iff_exists]
  exact ⟨id, List.mem_filter.mpr ⟨mem_allSets id, by simpa using h⟩, by simp⟩

/-- The frames of a batch join the queue, and nothing else of the uplink or of the pending sets changes. -/
theorem formBatch_frames (s : State) (m : NodeId) : ∃ x : List Byte, (s.formBatch m).notices = s.notices ∧ (s.formBatch m).up =
    { s.up with queue := s.up.queue ++ (s.streams.get m).atts.map (fun a => consoleFrame (s.addressOf a.station) m x) } := by
  rw [State.formBatch]
  obtain ⟨c, a, r, h⟩ := State.passAll_eq ((s.enqueueAll ((s.streams.get m).atts.map (fun a => consoleFrame (s.addressOf a.station) m
    (encodeOutput (s.streams.get m).ringStart ((s.streams.get m).ring.take 512) false false false)))).putStream m
      { s.streams.get m with
        ring := (s.streams.get m).ring.drop 512
        batchDue := (s.streams.get m).batchDue && !((s.streams.get m).ring.drop 512).isEmpty }) m (s.streams.get m).ringStart
    ((s.streams.get m).ring.take 512)
  rw [h]
  exact ⟨_, rfl, rfl⟩

/-- A ready producer takes something. -/
theorem serve_servable (hr : Referred s) {p : Producer} (hp : p ∈ s.readyProducers false) :
    (s.serve false p).1.servable < s.servable := by
  obtain ⟨ready, needs⟩ := (mem_readyProducers s).mp hp
  cases p with
  | batch m =>
    have h : s.batchReady m = true := ready
    simp only [State.batchReady, Bool.and_eq_true, Bool.not_eq_true', List.isEmpty_eq_false_iff, decide_eq_true_eq] at h
    obtain ⟨⟨⟨ha, -⟩, -⟩, ho⟩ := h
    obtain ⟨a, as, hx⟩ := List.exists_cons_of_ne_nil ha
    obtain ⟨x, hn, hu⟩ := formBatch_frames s m
    refine servable_lt hu hn (le_trans (List.length_pos_iff.mpr ha) ho) (List.mem_map.mpr ⟨a, ?_, rfl⟩) nofun
    rw [hx]
    exact List.mem_cons_self
  | replay m =>
    have h : s.replayReady m = true := ready
    simp only [State.replayReady, Bool.and_eq_true, decide_eq_true_eq, Option.isSome_iff_exists] at h
    obtain ⟨⟨r, hx⟩, ho⟩ := h
    simp only [State.serve, State.replayFrame, hx]
    split
    · exact servable_lt (fs := [_]) rfl rfl ho List.mem_cons_self nofun
    · exact servable_lt (fs := [_]) rfl rfl ho List.mem_cons_self nofun
  | imageOpen r =>
    have ho := outside_of_openReady s (r := r) ready
    have h : s.openReady r = true := ready
    simp only [State.openReady] at h
    simp only [State.serve, State.sendOpen]
    split at h
    · split at h
      · exact servable_lt (fs := [_]) rfl rfl ho List.mem_cons_self nofun
      · cases h
    · cases h
  | needs => exact absurd (needs rfl) nofun
  | refetch f =>
    have ho := outside_of_refetchReady s (f := f) ready
    have h : s.refetchReady f = true := ready
    simp only [State.refetchReady] at h
    simp only [State.serve, State.refetch]
    split at h
    · next l hl =>
      have := hr.1 f _ (by rw [hl]; rfl)
      rw [Option.isSome_map] at this
      obtain ⟨x, hx⟩ := Option.isSome_iff_exists.mp this
      rw [show s.image l.image = some x from hx]
      exact servable_lt (fs := [_]) rfl rfl ho List.mem_cons_self nofun
    · cases h
  | rewrite m =>
    have ho := outside_of_rewriteReady s (n := m) ready
    have h : s.rewriteReady m = true := ready
    simp only [State.rewriteReady] at h
    simp only [State.serve, State.sendWrite]
    split at h
    · next w hw =>
      have := hr.2 m _ (by rw [hw]; rfl)
      rw [Option.isSome_map] at this
      obtain ⟨x, hx⟩ := Option.isSome_iff_exists.mp this
      rw [show s.image w.image = some x from hx]
      exact servable_lt (fs := [_]) rfl rfl ho List.mem_cons_self nofun
    · cases h
  | notice =>
    have h : s.noticeReady = true := ready
    simp only [State.noticeReady] at h
    simp only [State.serve, State.sendNotice]
    split at h
    · next id hid =>
      have he := winner_eligible s id hid
      have hm : (s.pendingSet id).members ≠ [] := by
        intro e
        simp [PendingSet.eligible, e] at he
      have hb := busySets_putSet (s := s.enqueueAll (s.noticeFrames id)) hm
        (if (s.noticeFrames id).isEmpty then none else some (s.ms + s.notices.gapMs))
      have hu : (s.enqueueAll (s.noticeFrames id)).busySets = s.busySets := busySets_congr rfl
      have ho : s.up.others ≤ (s.enqueueAll (s.noticeFrames id)).up.others := by
        rw [State.enqueueAll, others_append]
        exact Nat.le_add_right _ _
      rw [hu] at hb
      rw [State.servable, State.putSet_up, State.servable]
      omega
    · cases h

/-- Where every reference is in use, serving ends with nobody ready (R186). -/
theorem settle_quiet (k : Nat) (s : State) (hr : Referred s) (hk : s.servable ≤ k) : (State.settle k false s).readyProducers false = [] := by
  induction k generalizing s with
  | zero =>
    refine List.eq_nil_iff_forall_not_mem.mpr fun p hp => ?_
    have := serve_servable hr hp
    omega
  | succ k ih =>
    rw [State.settle]
    split
    · assumption
    · next p ps hps =>
      have hm : (s.choose p ps).2 ∈ (s.choose p ps).1.readyProducers false := by
        rw [readyProducers_choose, hps]
        exact choose_mem s p ps
      have hn : (s.choose p ps).2 ≠ .needs := fun e => not_mem_readyProducers_needs _ (e ▸ hm)
      have hc : Referred (s.choose p ps).1 := (Referred.settles (choose_settles s p ps)).mp hr
      have hv : (s.choose p ps).1.servable = s.servable := by
        unfold State.choose
        split <;> rfl
      have hs := serve_settles (s.choose p ps).1 (s.choose p ps).2 false hn fun m e =>
        mem_readyProducers_batch _ false m (e ▸ hm)
      have hlt := serve_servable hc hm
      dsimp only
      rw [hs.2]
      exact ih _ ((Referred.settles hs.1).mp hc) (by omega)

/-- The arbiter moves a frame from the queue to the port, which frees no descriptor (R187). -/
theorem outside_takeNext (u : Uplink) : u.takeNext.outside = u.outside := by
  have hf := takeNext_frames u
  have hp : u.takeNext.promised = u.promised := by
    rcases takeNext_eq u with h | ⟨f, -, -, h⟩ <;> rw [h]
  rw [Uplink.outside, Uplink.outside, Uplink.others, Uplink.others, Uplink.free, Uplink.free, (hf.filter _).length_eq, hf.length_eq, hp]

theorem ready_takeNext (s : State) (p : Producer) (hp : p ≠ .needs) : (s.putUp s.up.takeNext).ready p = s.ready p := by
  have ho : (s.putUp s.up.takeNext).up.outside = s.up.outside := outside_takeNext s.up
  cases p with
  | needs => exact absurd rfl hp
  | batch m => simp only [State.ready, State.batchReady, ho, State.putUp_streams]; rfl
  | replay m => simp only [State.ready, State.replayReady, ho, State.putUp_streams]
  | imageOpen r => simp only [State.ready, State.openReady, ho]; rfl
  | refetch f => simp only [State.ready, State.refetchReady, ho]; rfl
  | rewrite m => simp only [State.ready, State.rewriteReady, ho]; rfl
  | notice => simp only [State.ready, State.noticeReady, ho]; rfl

/-- After the end of a step whose references are all in use, nobody waits for a free descriptor (R186). -/
theorem finish_quiet (hr : Referred s) {p : Producer} (hp : p ≠ .needs) : s.finish.ready p = false := by
  have hq := settle_quiet settleFuel s hr ((servable_le s).trans (by decide))
  rw [State.finish, ready_takeNext _ _ hp, Bool.eq_false_iff]
  intro h
  have := (mem_readyProducers (State.settle settleFuel false s) (needs := false)).mpr ⟨h, fun e => absurd e hp⟩
  rw [hq] at this
  cases this

/-- An idle port leaves no frame waiting (R187). -/
theorem queue_takeNext {u : Uplink} (hm : u.takeNext.macEnabled = true) (hp : u.takeNext.port = none) : u.takeNext.queue = [] := by
  have hmac : u.takeNext.macEnabled = u.macEnabled := by
    rcases takeNext_eq u with h | ⟨f, -, -, h⟩ <;> rw [h]
  have hport : u.port = none := by
    rcases takeNext_eq u with h | ⟨f, h, -⟩
    · exact h ▸ hp
    · exact h
  cases ha : u.arbitrate with
  | none =>
    have : u.takeNext = u := by rw [Uplink.takeNext, hport, ha]; split <;> rfl
    rw [this]
    exact queue_of_arbitrate ha
  | some f =>
    rw [takeNext_of_arbitrate hport (hmac ▸ hm) ha] at hp
    cases hp

/-- Settles O34. -/
theorem waitingProducersAreServed : Obligations.WaitingProducersAreServed := by
  intro s t c hp h1 h2 h3 ht hi hf
  have ends {f : State → State} (h : exec c s = s.whenRunning f) : ∃ x : State, t = x.finish :=
    ⟨f s, by rw [exec_running h hp] at ht; cases ht; rfl⟩
  have pins {f : State → State} {u : State} (h : exec c s = if s.porn then s.whenRunning f else .next u) : ∃ x : State, t = x.finish :=
    ends (h.trans (if_pos hp))
  obtain ⟨x, rfl⟩ : ∃ x : State, t = x.finish := by
    cases hc : reachesLow c with
    | false =>
      obtain ⟨f, hf⟩ := exec_whenRunning (s := s) hc
      exact ends hf
    | true =>
      unfold reachesLow at hc
      split at hc
      · exact absurd rfl h1
      · exact absurd rfl h2
      · exact absurd rfl (h3 _)
      · next n b => exact pins (f := (·.pgoodLevel n b)) rfl
      · next n b => exact pins (f := (·.setBusPower n b)) rfl
      · next n b => exact pins (f := (·.quietEdge n b)) rfl
      · cases hc
  have hr : Referred x := (Referred.settles (finish_settles x)).mpr (hf.referred hi)
  refine ⟨fun n => ⟨finish_quiet hr (p := .batch n) nofun, finish_quiet hr (p := .replay n) nofun,
    finish_quiet hr (p := .rewrite n) nofun⟩, fun r => finish_quiet hr (p := .imageOpen r) nofun,
    fun f => finish_quiet hr (p := .refetch f) nofun, finish_quiet hr (p := .notice) nofun, fun hm hn => ?_⟩
  exact queue_takeNext (u := (State.settle settleFuel false x).up) hm hn

end Sys2Proof.Machine
end

section
/-! PROOFS. The obligations about attachments, replay and typed input (chapter 3). -/
namespace Sys2Proof.Machine

-- Side by side, the proofs of this text would need more thread stacks than the check's memory limit holds.
set_option Elab.async false

variable {s e t u : State} {n : NodeId} {i : StationIx} {a : Attachment}

/-! ## Attachments (R54 to R57) -/

/-- The state with station `i`'s attachment in the place of the one it has. -/
def State.withAtt (s : State) (n : NodeId) (a : Attachment) : State := s.putStream n ((s.streams.get n).putAtt a)

theorem renewLease_none (h : (s.streams.get n).att i = none) : s.renewLease n i = s := by
  rw [State.renewLease, h]

theorem renewLease_some (h : (s.streams.get n).att i = some a) :
    s.renewLease n i = s.withAtt n { a with lease := s.leaseDeadline } := by
  rw [State.renewLease, h]
  rfl

theorem modeOf_code (m : Mode) : modeOf [if m = .watch then 0 else 1] = some m := by cases m <;> rfl

theorem modeOf_none {b : List Byte} (h0 : b ≠ [0]) (h1 : b ≠ [1]) : modeOf b = none := by
  unfold modeOf
  split
  · next x =>
    rw [if_neg fun hx : x = 0 => h0 (hx ▸ rfl), if_neg fun hx : x = 1 => h1 (hx ▸ rfl)]
  · rfl

theorem takeAttach_badRequest {b : List Byte} (h : modeOf b = none) : s.takeAttach i n b = s.refuseRenewed i n .badRequest := by
  rw [State.takeAttach, h]

theorem takeAttach_again {b : List Byte} {m : Mode} (h : modeOf b = some m) (ha : (s.streams.get n).att i = some a) :
    s.takeAttach i n b = ⟨s.withAtt n (a.again m s.leaseDeadline), .ok, (s.streams.get n).offsets⟩ := by
  rw [State.takeAttach, h]
  simp only [ha, State.putStream_streams, Tab.get_put_same]
  rfl

theorem takeAttach_full {b : List Byte} {m : Mode} (h : modeOf b = some m) (ha : (s.streams.get n).att i = none)
    (hl : 4 ≤ (s.streams.get n).atts.length) : s.takeAttach i n b = s.refuse .full := by
  rw [State.takeAttach, h]
  simp only [ha, if_pos hl]

theorem takeAttach_added {b : List Byte} {m : Mode} (h : modeOf b = some m) (ha : (s.streams.get n).att i = none)
    (hl : (s.streams.get n).atts.length < 4) : s.takeAttach i n b =
      let u := { s.streams.get n with atts := (s.streams.get n).atts ++ [⟨i, m, s.leaseDeadline, none⟩] }
      ⟨(s.putStream n u).offerMatched n (.mark .attachGap), .ok, (u.marked .attachGap).offsets⟩ := by
  rw [State.takeAttach, h]
  simp only [ha, if_neg (Nat.not_le.mpr hl)]
  rfl

/-- The offsets an answer carries are those of the entry offered, before any batch (R55). -/
theorem offsets_withEntry (s : State) (n : NodeId) (m : Mark) :
    ((s.withEntry n (.mark m)).streams.get n).offsets = ((s.streams.get n).marked m).offsets := by
  rw [State.withEntry, State.putMatcher_streams, State.putStream_streams, Tab.get_put_same]
  by_cases h : (s.streams.get n).ring.length < 1024
  · rw [Stream.offered, if_pos h, Stream.marked, if_pos (show _ < ringSize from h)]
    rfl
  · rw [Stream.offered, if_neg h, Stream.marked, if_neg (show ¬_ < ringSize from h)]
    rfl

/-- Settles O28. -/
theorem attachAddsOrRenewsOneAttachment : Obligations.AttachAddsOrRenewsOneAttachment := by
  intro s h bytes body i n m a c t lease offsets ho
  have hd : s.promise.owner i .attach (some n) h.node body = s.promise.takeAttach i n body := rfl
  refine ⟨fun h0 h1 => ?_, fun hb => ?_⟩
  · have hb := hd.trans (takeAttach_badRequest (s := s.promise) (modeOf_none h0 h1))
    refine ⟨fun hn => ho.answers_eq (hb.trans ?_), fun hs => ho.answers_eq (hb.trans ?_)⟩
    · rw [State.refuseRenewed, renewLease_none (s := s.promise) hn]; rfl
    · rw [State.refuseRenewed, renewLease_some (s := s.promise) hs]; rfl
  · have hm : modeOf body = some m := hb ▸ modeOf_code m
    refine ⟨fun hs => ?_, fun hn hl => ?_, fun hn hl => ?_⟩
    · exact ho.answers_eq (hd.trans (takeAttach_again (s := s.promise) hm hs))
    · exact ho.refused (hd.trans (takeAttach_full (s := s.promise) hm hn hl))
    · intro added
      have he := offsets_withEntry added n .attachGap
      rw [show added.streams.get n = _ from Tab.get_put_same _ _ _] at he
      show Answers c s h 0x04 _ .ok (Stream.offsets _)
      rw [he]
      exact ho.answers (e := added.withEntry n _) (hd.trans (takeAttach_added (s := s.promise) hm hn hl))
        (offerMatched_settles added.promise n (.mark .attachGap))

/-! ## DETACH, RENEW and lease expiries (R56, R57, R61) -/

theorem takeDetach_badRequest {b : List Byte} (h : b ≠ []) : s.takeDetach i n b = s.refuse .badRequest := if_pos h

theorem takeDetach_noEffect (h : (s.streams.get n).att i = none) : s.takeDetach i n [] = s.refuse .noEffect := by
  rw [State.takeDetach, h]; rfl

theorem takeDetach_taken (h : (s.streams.get n).att i = some a) : s.takeDetach i n [] = ⟨s.detach n i, .ok, []⟩ := by
  rw [State.takeDetach, h]; rfl

theorem takeRenew_none (h : (s.streams.get n).att i = none) (b : List Byte) :
    s.takeRenew i n b = s.refuse (if b = [] then .noEffect else .badRequest) := by
  rw [State.takeRenew, State.refuseRenewed, renewLease_none h, h]
  by_cases hb : b = [] <;> simp [hb]

theorem takeRenew_some (h : (s.streams.get n).att i = some a) (b : List Byte) :
    s.takeRenew i n b = ⟨s.withAtt n { a with lease := s.leaseDeadline }, if b = [] then .ok else .badRequest, []⟩ := by
  rw [State.takeRenew, State.refuseRenewed, renewLease_some h, h]
  by_cases hb : b = [] <;> simp [hb, State.refuse]

theorem leaseExpires_some (h : (s.streams.get n).att i = some a) :
    s.leaseExpires n i = ((s.reachMs a.lease).detach n i).raise (some n) (.attachExpired i) := by
  rw [State.leaseExpires, h]

/-- An event raised after the end of an operation that left the pending sets. -/
theorem Settles.raise (h : Settles e t) (hn : t.notices = e.notices) (id : SetId) (ev : Event) :
    Settles (e.raise id ev) (t.raise id ev) := by
  obtain ⟨hd, hp, hf⟩ := h
  have hs : (t.raise id ev).notices = (e.raise id ev).notices := by
    cases id <;> simp only [State.raise, State.putSet, State.pendingSet, hn]
  rw [delivers_iff] at hd
  obtain ⟨h1, h2, h3, h4, -⟩ := hd
  have h1' : (t.raise id ev).still = (e.raise id ev).still := by cases id <;> exact h1
  cases id <;> exact ⟨delivers_iff.mpr ⟨h1', h2, h3, h4, .of_eq hs⟩, hp, hf⟩

theorem detach_notices (s : State) (n : NodeId) (i : StationIx) : (s.detach n i).notices = s.notices := by
  obtain ⟨fs, x, h, -⟩ := State.detach_eq s n i
  rw [h]; rfl

/-- Settles O29. -/
theorem detachRenewAndLeaseExpiryEndOrKeepIt : Obligations.DetachRenewAndLeaseExpiryEndOrKeepIt := by
  intro s h bytes body i n a t replayEnds
  refine ⟨fun ho => ?_, fun ho => ?_, fun hp => ?_⟩
  · have hd : s.promise.owner i .detach (some n) h.node body = s.promise.takeDetach i n body := rfl
    refine ⟨fun hb => ?_, fun hb hn => ?_, fun hb hs => ⟨?_, fun u hu r hr hi => ?_⟩⟩
    · exact ho.refused (hd.trans (takeDetach_badRequest hb))
    · subst hb
      exact ho.refused (hd.trans (takeDetach_noEffect (s := s.promise) hn))
    · subst hb
      exact ho.answers (hd.trans (takeDetach_taken (s := s.promise) hs)) (detach_settles (s := s.promise) hs)
    · subst hb
      rw [ho.exec_eq, hd, takeDetach_taken (s := s.promise) hs] at hu
      cases hu
      exact finish_unreplayed _ n (detach_unreplayed (s := s.promise) hs hr hi)
  · have hd : s.promise.owner i .renew (some n) h.node body = s.promise.takeRenew i n body := rfl
    refine ⟨fun hn => ho.refused (hd.trans (takeRenew_none (s := s.promise) hn body)), fun hs => ?_⟩
    exact ho.answers_eq (hd.trans (takeRenew_some (s := s.promise) hs body))
  · have hc : exec (.leaseExpiry n i) s = s.whenRunning (·.leaseExpires n i) := rfl
    refine ⟨fun hn => completes_of_eq (f := (·.leaseExpires n i)) hc hp ?_, fun hs => ⟨fun u hu r hr hi => ?_, ?_⟩⟩
    · show s.leaseExpires n i = s
      rw [State.leaseExpires, show (s.streams.get n).att i = none from hn]
    · rw [exec_running hc hp] at hu
      cases hu
      refine finish_unreplayed _ n ?_
      show (((s.leaseExpires n i).streams.get n).replay) = none
      rw [leaseExpires_some hs, State.raise_streams]
      exact detach_unreplayed (s := s.reachMs a.lease) hs hr hi
    · refine completes_of (f := (·.leaseExpires n i)) hc hp ?_
      show Settles _ (s.leaseExpires n i)
      rw [leaseExpires_some hs]
      exact (detach_settles (s := s.reachMs a.lease) hs).raise (detach_notices _ n i) _ _

/-! ## Replay (R58 to R60) -/

theorem takeReplay_badRequest {b : List Byte} (h : b.length ≠ 4) : s.takeReplay i n b = s.refuseRenewed i n .badRequest := if_pos h

theorem takeReplay_wrongState {b : List Byte} (h : b.length = 4) (ha : (s.streams.get n).att i = none) :
    s.takeReplay i n b = s.refuse .wrongState := by
  rw [State.takeReplay, if_neg (not_not_intro h), ha]; rfl

theorem takeReplay_taken {b : List Byte} (h : b.length = 4) (ha : (s.streams.get n).att i = some a) :
    s.takeReplay i n b = (s.withAtt n { a with lease := s.leaseDeadline }).startReplay i n (BitVec.ofNat 32 (ofBe b)) := by
  rw [State.takeReplay, if_neg (not_not_intro h), renewLease_some ha, ha]; rfl

theorem startReplay_busy (h : (s.streams.get n).replay.isSome) (o : Offset) : s.startReplay i n o = s.refuse .busy := if_pos h

theorem startReplay_empty (h : (s.streams.get n).replay = none) (he : (s.streams.get n).history = []) (o : Offset) :
    s.startReplay i n o =
      ⟨s, .noEffect, be 4 (s.streams.get n).historyEnd.toNat ++ be 4 (s.streams.get n).historyEnd.toNat⟩ := by
  rw [State.startReplay, h]
  exact if_pos he

/-- The replay a request starts (R58). -/
def Stream.started (t : Stream) (i : StationIx) (o : Offset) : Replay :=
  ⟨i, if (o - t.oldest).toNat < t.history.length then o else t.oldest, t.historyEnd - 1, false, false⟩

theorem startReplay_taken (h : (s.streams.get n).replay = none) (he : (s.streams.get n).history ≠ []) (o : Offset) :
    s.startReplay i n o =
      ⟨s.putStream n { s.streams.get n with replay := some ((s.streams.get n).started i o) }, .ok,
        be 4 ((s.streams.get n).started i o).cursor.toNat ++ be 4 ((s.streams.get n).started i o).last.toNat⟩ := by
  rw [State.startReplay, h]
  simp only [Option.isSome_none, Bool.false_eq_true, if_false, he, Stream.started, Stream.inHistory, decide_eq_true_eq]

/-- Who asked for a stream's replay, and its last offset. -/
def Stream.target (t : Stream) : Option (StationIx × Offset) := t.replay.map (fun r => (r.requester, r.last))

theorem adjustReplay_target (t : Stream) : t.adjustReplay.target = t.target := by
  unfold Stream.target
  rw [Stream.adjustReplay]
  cases h : t.replay with
  | none => simp only [h]
  | some r => dsimp only; split <;> [skip; split] <;> simp [h]

/-- An entry that passes to history leaves whom a replay is for and where it ends (R52, R60). -/
theorem pass_target (s : State) (n m : NodeId) (o : Offset) (e : Entry) :
    ((s.pass m o e).streams.get n).target = (s.streams.get n).target := by
  have hm : (s.makeRoom m).target = (s.streams.get m).target := by
    rw [State.makeRoom]
    split
    · rfl
    · split
      · rfl
      · rw [Stream.recycle]
        split
        · rfl
        · exact adjustReplay_target _
  have ha (x : Stream) : (x.append e).target = x.target := by rw [Stream.append]; split <;> rfl
  rw [State.pass, State.putStream_streams, Tab.get_put]
  split
  · next h => rw [ha, h]; exact hm
  · rfl

theorem passAll_target (s : State) (n m : NodeId) (o : Offset) (es : List Entry) :
    ((s.passAll m o es).streams.get n).target = (s.streams.get n).target := by
  induction es generalizing s o with
  | nil => rfl
  | cons e es ih => exact (ih _ _).trans (pass_target s n m o e)

theorem formBatch_target (s : State) (n m : NodeId) : ((s.formBatch m).streams.get n).target = (s.streams.get n).target := by
  rw [State.formBatch, passAll_target, State.putStream_streams, Tab.get_put]
  split
  · next h => rw [h]; rfl
  · rfl

theorem serve_su (s : State) (b : Bool) (p : Producer) : (s.serve b p).1.su = s.su := by
  cases p with
  | batch m =>
    obtain ⟨fs, d, c, a, r, h⟩ := State.formBatch_eq s m
    rw [State.serve, h]; rfl
  | replay m =>
    simp only [State.serve, State.replayFrame]
    split
    · rfl
    · split <;> rfl
  | imageOpen r =>
    obtain ⟨st, p, im, q, pt, nt, h, -⟩ := sendOpen_media (ns := fun _ => True) s r
    rw [State.serve, h]
  | needs =>
    obtain ⟨st, p, nd, fs, q, h, -⟩ := tryOne_work s
    rw [State.serve, h]
  | refetch f =>
    simp only [State.serve, State.refetch]
    split
    · split <;> rfl
    · rfl
  | rewrite m =>
    obtain ⟨st, p, im, q, pt, nt, h, -⟩ := sendWrite_media (ns := fun _ => True) s m
    rw [State.serve, h]
  | notice =>
    simp only [State.serve, State.sendNotice]
    split
    · rw [State.putSet_su]; rfl
    · rfl

/-- A CONSOLE_OUTPUT to address `d` with LAST (R59). -/
def TxFrame.closes (f : TxFrame) (d : MacAddr) : Prop := f.cls = .console ∧ f.dst = d ∧ 5 ≤ byteAt f.body 6

/-- Node `n`'s replay to station `i`'s address `d` goes on to offset `last`, or its LAST frame is queued (R58 to R60). -/
def State.Replays (s : State) (n : NodeId) (i : StationIx) (last : Offset) (d : MacAddr) : Prop :=
  s.addressOf i = d ∧
    ((s.streams.get n).target = some (i, last) ∨ (s.streams.get n).target = none ∧ ∃ f ∈ s.up.frames, f.closes d)

theorem State.Replays.of_same {last : Offset} {d : MacAddr} (h : s.Replays n i last d) (hu : t.su = s.su)
    (hs : (t.streams.get n).target = (s.streams.get n).target) (hf : ∀ f ∈ s.up.frames, f ∈ t.up.frames) : t.Replays n i last d := by
  refine ⟨by rw [← h.1, State.addressOf, State.station, hu]; rfl, h.2.imp (hs.trans ·) fun ⟨hn, f, hm, hc⟩ => ⟨hs.trans hn, f, hf f hm, hc⟩⟩

theorem UplinkGrows.mem (h : UplinkGrows s t) (f : TxFrame) (hf : f ∈ s.up.frames) : f ∈ t.up.frames :=
  h.settled.kept.mem f hf

theorem byteAt_encodeOutput (o : Offset) (es : List Entry) (gap : Bool) : 5 ≤ byteAt (encodeOutput o es true gap true) 6 := by
  cases gap <;> simp [encodeOutput, byteAt, be]

theorem State.Replays.enqueue {last : Offset} {d : MacAddr} {m : NodeId} {x : Stream} {b : List Byte} {j : StationIx}
    (h : s.Replays n i last d) (hm : (s.streams.get m).target ≠ none)
    (hx : m = n → (s.streams.get n).target = some (i, last) →
      x.target = some (i, last) ∨ x.target = none ∧ (consoleFrame (s.addressOf j) m b).closes d) :
    ((s.enqueue (consoleFrame (s.addressOf j) m b)).putStream m x).Replays n i last d := by
  obtain ⟨ha, hr⟩ := h
  refine ⟨ha, ?_⟩
  have hu : ((s.enqueue (consoleFrame (s.addressOf j) m b)).putStream m x).up.frames = _ := frames_enqueue _
  rw [hu]
  rw [State.putStream_streams, Tab.get_put]
  by_cases hn : m = n
  · rw [if_pos hn.symm]
    rcases hr with hr | ⟨hr, -⟩
    · exact (hx hn hr).imp_right fun ⟨hx, hc⟩ => ⟨hx, _, List.mem_append_right _ (List.mem_singleton_self _), hc⟩
    · exact absurd hr (hn ▸ hm)
  · rw [if_neg (Ne.symm hn)]
    exact hr.imp_right fun ⟨hr, f, hf, hc⟩ => ⟨hr, f, List.mem_append_left _ hf, hc⟩

/-- A replay frame goes on with the replay, or is the LAST one (R59, R60). -/
theorem replayFrame_replays {last : Offset} {d : MacAddr} {m : NodeId} (h : s.Replays n i last d) :
    (s.replayFrame m).Replays n i last d := by
  rw [State.replayFrame]
  split
  · exact h
  · next r hr =>
    have target (hm : m = n) (ht : (s.streams.get n).target = some (i, last)) : r.requester = i ∧ r.last = last := by
      rw [← hm, Stream.target, hr] at ht
      simpa using ht
    have runs : (s.streams.get m).target ≠ none := by rw [Stream.target, hr]; nofun
    split
    · exact h.enqueue runs fun hm ht => .inr ⟨rfl, rfl, by rw [(target hm ht).1]; exact h.1, byteAt_encodeOutput ..⟩
    · refine h.enqueue runs fun hm ht => ?_
      split
      · next hd =>
        refine .inr ⟨rfl, rfl, by rw [(target hm ht).1]; exact h.1, ?_⟩
        rw [hd]
        exact byteAt_encodeOutput ..
      · exact .inl (by simp [Stream.target, target hm ht])

theorem serve_replays {last : Offset} {d : MacAddr} (b : Bool) {p : Producer} (hp : p ≠ .needs) (h : s.Replays n i last d) :
    (s.serve b p).1.Replays n i last d := by
  have same (hs : ((s.serve b p).1.streams.get n).target = (s.streams.get n).target) : (s.serve b p).1.Replays n i last d :=
    h.of_same (serve_su s b p) hs (serve_uplink s b p).mem
  cases p with
  | batch m => exact same (formBatch_target s n m)
  | replay m => exact replayFrame_replays h
  | needs => exact absurd rfl hp
  | imageOpen _ | refetch _ | rewrite _ | notice => exact same (by rw [serve_streams s b hp nofun nofun])

theorem finish_replays {last : Offset} {d : MacAddr} (h : s.Replays n i last d) : s.finish.Replays n i last d :=
  finish_preserves (R := fun a b => a.Replays n i last d → b.Replays n i last d) (fun _ => id) (fun f g => g ∘ f) (fun _ _ => id)
    (fun _ b _ hp => serve_replays b hp)
    (fun a h => h.of_same rfl rfl fun _ hf => (takeNext_frames a.up).mem_iff.mpr hf) s h

theorem State.Replays.goesOn {last : Offset} {d : MacAddr} (h : s.Replays n i last d) {r : Replay}
    (hr : (s.streams.get n).replay = some r) : r.requester = i ∧ r.last = last := by
  rcases h.2 with ht | ⟨ht, -⟩ <;> rw [Stream.target, hr] at ht
  · simpa using ht
  · cases ht

theorem State.Replays.closed {last : Offset} {d : MacAddr} (h : s.Replays n i last d) (hr : (s.streams.get n).replay = none) :
    ∃ f ∈ s.up.frames, f.closes d := by
  rcases h.2 with ht | ⟨-, hf⟩
  · rw [Stream.target, hr] at ht
    cases ht
  · exact hf

theorem ofBe_be_offset (o : Offset) : BitVec.ofNat 32 (ofBe (be 4 o.toNat)) = o := by
  have := o.isLt
  apply BitVec.eq_of_toNat_eq
  simp only [be, ofBe, List.foldl, BitVec.toNat_ofNat]
  omega

/-- Settles O32. -/
theorem replayStartsWithinHistory : Obligations.ReplayStartsWithinHistory := by
  intro s h bytes body i n a start c t renewed ho
  have hd : s.promise.owner i .replay (some n) h.node body = s.promise.takeReplay i n body := rfl
  have len (hb : body = be 4 start.toNat) : body.length = 4 := by rw [hb]; rfl
  have taken (hb : body = be 4 start.toNat) (hs : t.att i = some a) :
      s.promise.owner i .replay (some n) h.node body = (State.promise renewed).startReplay i n start := by
    rw [hd, takeReplay_taken (s := s.promise) (len hb) hs, hb, ofBe_be_offset]
    rfl
  have hx : renewed.promise.streams.get n = t.putAtt { a with lease := s.now / 1000 + s.lease * 1000 } := Tab.get_put_same _ _ _
  refine ⟨fun hl => ?_, fun hb hn => ?_, fun hb hs => ⟨fun hr => ?_, fun hr he => ?_, fun hr he => ?_⟩⟩
  · have hb := hd.trans (takeReplay_badRequest (s := s.promise) hl)
    refine ⟨fun hn => ho.answers_eq (hb.trans ?_), fun hs => ho.answers_eq (hb.trans ?_)⟩
    · rw [State.refuseRenewed, renewLease_none (s := s.promise) hn]; rfl
    · rw [State.refuseRenewed, renewLease_some (s := s.promise) hs]; rfl
  · exact ho.refused (hd.trans (takeReplay_wrongState (s := s.promise) (len hb) hn))
  · exact ho.answers_eq ((taken hb hs).trans (startReplay_busy (by rw [hx]; exact hr) start))
  · have := startReplay_empty (s := renewed.promise) (i := i) (n := n) (by rw [hx]; exact hr) (by rw [hx]; exact he) start
    rw [hx] at this
    exact ho.answers_eq ((taken hb hs).trans this)
  · have hst := startReplay_taken (s := renewed.promise) (i := i) (n := n) (by rw [hx]; exact hr) (by rw [hx]; exact he) start
    rw [hx] at hst
    have hd := (taken hb hs).trans hst
    refine ⟨ho.answers hd ?_, fun u hu => ?_⟩
    · apply putStream_settles <;> rw [hx]
      exact fun _ => rfl
    · rw [ho.exec_eq, hd] at hu
      cases hu
      have starts (x : Stream) (hx : x.target = some (i, t.historyEnd - 1)) (hd : Head) (r : Result) (b : List Byte) :
          (((renewed.promise.putStream n x).answer hd 0x08 r b).finish).Replays n i (t.historyEnd - 1) (s.addressOf i) :=
        finish_replays ⟨rfl, .inl ((congrArg Stream.target (Tab.get_put_same renewed.promise.streams n _)).trans hx)⟩
      split
      · next r hr => exact (starts _ rfl _ _ _).goesOn hr
      · next hr => exact (starts _ rfl _ _ _).closed hr

/-! ## Typed input (R62, R63) -/

theorem att_putAtt {t : Stream} {b : Attachment} (h : t.att i = some a) (hb : b.station = i) : (t.putAtt b).att i = some b := by
  have key (as : List Attachment) (h : as.find? (fun c => c.station = i) = some a) :
      (as.map (fun c => if c.station = i then b else c)).find? (fun c => c.station = i) = some b := by
    induction as with
    | nil => cases h
    | cons x xs ih =>
      by_cases hx : x.station = i
      · simp [hx, hb]
      · rw [List.find?_cons_of_neg (by simpa using hx)] at h
        simpa [hx] using ih h
  rw [Stream.att, Stream.putAtt, hb]
  exact key t.atts h

@[simp] theorem putAtt_settings (t : Stream) (a : Attachment) : (t.putAtt a).settings = t.settings := rfl

theorem putAtt_putAtt (t : Stream) {a b : Attachment} (h : a.station = b.station) : (t.putAtt a).putAtt b = t.putAtt b := by
  simp only [Stream.putAtt, List.map_map]
  congr 1
  apply List.map_congr_left
  intro x _
  by_cases hx : x.station = b.station <;> simp [hx, h]

/-- The items a line still takes: an IDLE transmitter takes one more than the queue holds (log entry 34). -/
def Line.room (l : Line) : Nat := 256 - l.txQueue.length + if l.transmitter = .idle then 1 else 0

theorem Line.given_nil (l : Line) (now : Nat) : l.given now [] = l := by
  unfold Line.given
  split
  · next h => cases h
  · rw [List.append_nil]

theorem Line.given_cons {l : Line} (h : l.transmitter = .idle) (now : Nat) (x : TxItem) (xs : List TxItem) :
    l.given now (x :: xs) = { l with transmitter := l.begin now x, txQueue := xs } := by
  simp only [Line.given, h]

theorem Line.begin_ne_idle (l : Line) (now : Nat) (x : TxItem) : l.begin now x ≠ .idle := by cases x <;> nofun

theorem Line.given_given {l : Line} (now : Nat) (xs ys : List TxItem) :
    (l.given now xs).given now ys = l.given now (xs ++ ys) := by
  by_cases h : l.transmitter = .idle
  · cases xs with
    | nil => rw [l.given_nil]; rfl
    | cons x xs =>
      rw [l.given_cons h, List.cons_append, l.given_cons h, Line.given_of_busy (l.begin_ne_idle now x)]
  · rw [Line.given_of_busy h, Line.given_of_busy h, Line.given_of_busy (l := { l with txQueue := l.txQueue ++ xs }) h, List.append_assoc]

/-- A line that was given items has room for what its room still holds. -/
theorem Line.given_room {l : Line} (hl : l.inBounds) (now k : Nat) (xs : List TxItem) (hk : 0 < k) (h2 : k ≤ 2) :
    (l.given now xs).txQueue.length + k ≤ 256 ↔ xs.length + k ≤ l.room := by
  obtain ⟨-, -, -, -, -, -, -, hq, hi⟩ := hl
  by_cases h : l.transmitter = .idle
  · have := hi h
    rw [Line.room, if_pos h, this]
    cases xs with
    | nil => simp only [l.given_nil, this, List.length_nil]; omega
    | cons x xs => simp only [l.given_cons h, List.length_cons, List.length_nil]; omega
  · rw [Line.given_of_busy h, Line.room, if_neg h, List.length_append]
    omega

/-- A state whose station's attachment on node `n` was renewed and stands in escape state `e`, and whose line was given the items
`xs`. -/
def State.gave (s : State) (n : NodeId) (a : Attachment) (e : Option Nat) (xs : List TxItem) : State :=
  (s.withAtt n { a with lease := s.leaseDeadline, escape := e }).putLine n ((s.lines.get n).given s.now xs)

section
variable (s) (n) (e : Option Nat) (xs : List TxItem)

@[simp] theorem gave_stream (a : Attachment) : (s.gave n a e xs).streams.get n =
    (s.streams.get n).putAtt { a with lease := s.leaseDeadline, escape := e } := Tab.get_put_same _ _ _

@[simp] theorem gave_line (a : Attachment) : (s.gave n a e xs).lines.get n = (s.lines.get n).given s.now xs :=
  Tab.get_put_same _ _ _

variable {s n}

theorem gave_att (h : (s.streams.get n).att i = some a) :
    ((s.gave n a e xs).streams.get n).att i = some { a with lease := s.leaseDeadline, escape := e } := by
  rw [gave_stream]
  exact att_putAtt h (mem_of_att h).2

theorem gave_nil (h : (s.streams.get n).att i = some a) : s.gave n a a.escape [] = s.renewLease n i := by
  rw [renewLease_some h, State.gave, Line.given_nil]
  exact State.putLine_self _ n

theorem gave_setEscape (h : (s.streams.get n).att i = some a) (d : Option Nat) :
    (s.gave n a e xs).setEscape i n d = s.gave n a d xs := by
  rw [State.setEscape, gave_att e xs h]
  simp only [gave_stream]
  rw [putAtt_putAtt _ (a := { a with lease := s.leaseDeadline, escape := e })
    (b := { a with lease := s.leaseDeadline, escape := d }) rfl]
  simp only [State.gave, State.withAtt, State.putStream, State.putLine, Tab.put_put]

theorem gave_sendItems (hl : (s.lines.get n).inBounds) (ys : List TxItem) :
    (s.gave n a e xs).sendItems n ys = s.gave n a e (xs ++ ys) := by
  rw [sendItems_eq_given]
  · rw [gave_line, show (s.gave n a e xs).now = s.now from rfl, Line.given_given]
    simp only [State.gave, State.putLine, Tab.put_put]
  · rw [gave_line]
    obtain ⟨-, -, -, -, -, -, -, -, hi⟩ := hl
    intro h
    cases xs with
    | nil => rw [Line.given_nil] at h ⊢; exact hi h
    | cons x xs =>
      by_cases hb : (s.lines.get n).transmitter = .idle
      · rw [Line.given_cons hb] at h
        exact absurd h (Line.begin_ne_idle _ _ x)
      · rw [Line.given_of_busy hb] at h
        exact absurd h hb

theorem gave_txRoom (hl : (s.lines.get n).inBounds) {k : Nat} (hk : 0 < k) (h2 : k ≤ 2) :
    (s.gave n a e xs).txRoom n k = decide (xs.length + k ≤ (s.lines.get n).room) := by
  rw [State.txRoom, gave_line]
  exact decide_eq_decide.mpr (Line.given_room hl _ _ _ hk h2)

end

/-! ## The recognizer (R63, R64) -/

section
variable {xs : List TxItem} {b : Byte}

theorem typeByte_hold (h : (s.streams.get n).att i = some a) :
    (s.gave n a none xs).typeByte i n (s.streams.get n).settings.escapeByte =
      some ⟨s.gave n a (some (s.ms + (s.streams.get n).settings.windowMs)) xs, none, false⟩ := by
  rw [State.typeByte, gave_att none xs h]
  simp only [gave_stream, putAtt_settings, Option.isSome_none, Bool.false_eq_true, if_false]
  rw [gave_setEscape _ _ h]
  exact if_pos trivial

theorem typeByte_plain (h : (s.streams.get n).att i = some a) (hl : (s.lines.get n).inBounds)
    (hb : b ≠ (s.streams.get n).settings.escapeByte) : (s.gave n a none xs).typeByte i n b =
      if xs.length + 1 ≤ (s.lines.get n).room then some ⟨s.gave n a none (xs ++ [.byte b]), none, false⟩ else none := by
  rw [State.typeByte, gave_att none xs h]
  simp only [gave_stream, putAtt_settings, Option.isSome_none, Bool.false_eq_true, if_false]
  rw [if_neg hb, gave_txRoom none xs hl Nat.one_pos (by decide), gave_sendItems none xs hl]
  simp only [decide_eq_true_eq]

theorem typeByte_command {d : Nat} (h : (s.streams.get n).att i = some a) :
    (s.gave n a (some d) xs).typeByte i n b = (s.gave n a (some d) xs).typeCommand i n b := by
  rw [State.typeByte, gave_att _ xs h]
  rfl

/-- The escape byte after a held one (R64). -/
theorem typeCommand_again {d : Nat} (h : (s.streams.get n).att i = some a) (hl : (s.lines.get n).inBounds) :
    (s.gave n a (some d) xs).typeCommand i n (s.streams.get n).settings.escapeByte =
      if xs.length + 1 ≤ (s.lines.get n).room then
        some ⟨s.gave n a none (xs ++ [.byte (s.streams.get n).settings.escapeByte]), none, false⟩ else none := by
  rw [State.typeCommand]
  simp only [gave_stream, putAtt_settings]
  rw [gave_setEscape _ _ h, gave_txRoom _ xs hl Nat.one_pos (by decide), gave_sendItems none xs hl]
  simp only [decide_eq_true_eq]
  exact if_pos trivial

/-- The BREAK command (R64). -/
theorem typeCommand_break {d : Nat} (h : (s.streams.get n).att i = some a) (hl : (s.lines.get n).inBounds)
    (he : (s.streams.get n).settings.escapeByte ≠ 0x62) : (s.gave n a (some d) xs).typeCommand i n 0x62 =
      if xs.length + 1 ≤ (s.lines.get n).room then some ⟨s.gave n a none (xs ++ [.brk]), some .taken, false⟩ else none := by
  rw [State.typeCommand]
  simp only [gave_stream, putAtt_settings]
  rw [gave_setEscape _ _ h, gave_txRoom _ xs hl Nat.one_pos (by decide), gave_sendItems none xs hl (ys := [.brk])]
  simp only [decide_eq_true_eq]
  exact (if_neg (Ne.symm he)).trans (if_pos trivial)

/-- A byte that no command names follows the held one (R64). -/
theorem typeCommand_other {d : Nat} (h : (s.streams.get n).att i = some a) (hl : (s.lines.get n).inBounds)
    (hb : b ∉ [(s.streams.get n).settings.escapeByte, 0x62, 0x72, 0x63, 0x64]) : (s.gave n a (some d) xs).typeCommand i n b =
      if xs.length + 2 ≤ (s.lines.get n).room then
        some ⟨s.gave n a none (xs ++ [.byte (s.streams.get n).settings.escapeByte, .byte b]), none, false⟩ else none := by
  simp only [List.mem_cons, List.not_mem_nil, or_false, not_or] at hb
  obtain ⟨h1, h2, h3, h4, h5⟩ := hb
  rw [State.typeCommand]
  simp only [gave_stream, putAtt_settings]
  rw [gave_setEscape _ _ h, gave_txRoom _ xs hl (k := 2) (by decide) (by decide),
    gave_sendItems none xs hl (ys := [.byte (s.streams.get n).settings.escapeByte, .byte b])]
  simp only [decide_eq_true_eq]
  exact (if_neg h1).trans ((if_neg h2).trans ((if_neg h3).trans ((if_neg h4).trans (if_neg h5))))

theorem typeBytes_taken {m : State} {r : Typed} {k : Nat} {e : EscapeResult} {bs : List Byte} (h : m.typeByte i n b = some r)
    (hs : r.stop = false) :
    m.typeBytes i n k e (b :: bs) = r.state.typeBytes i n (k + 1) (r.command.getD e) bs := by
  simp only [State.typeBytes, h, hs, Bool.false_eq_true, if_false]

theorem typeBytes_refused {m : State} {k : Nat} {e : EscapeResult} {bs : List Byte} (h : m.typeByte i n b = none) :
    m.typeBytes i n k e (b :: bs) = ⟨m, k, e⟩ := by
  simp only [State.typeBytes, h]

/-- What bytes spell is given to the line, as far as it has room for it all (R62 to R64). -/
theorem typeBytes_spells {pre post : List Byte} {items : List TxItem} {brk : Bool} {k : Nat} {r : EscapeResult}
    (h : (s.streams.get n).att i = some a) (hl : (s.lines.get n).inBounds)
    (hp : Spells (s.streams.get n).settings.escapeByte pre items brk) (hr : xs.length + items.length ≤ (s.lines.get n).room) :
    (s.gave n a none xs).typeBytes i n k r (pre ++ post) =
      (s.gave n a none (xs ++ items)).typeBytes i n (k + pre.length) (if brk then .taken else r) post := by
  induction hp generalizing xs k r with
  | nil => rw [List.append_nil]; rfl
  | plain b bytes items brk hb _ ih =>
    rw [List.length_cons] at hr
    have hb := typeByte_plain (xs := xs) h hl hb
    rw [if_pos (by omega)] at hb
    rw [List.cons_append, typeBytes_taken hb rfl, ih (by simp only [List.length_append, List.length_singleton]; omega)]
    simp [Nat.add_assoc, Nat.add_comm 1]
  | twice bytes items brk _ ih =>
    rw [List.length_cons] at hr
    have hb := typeCommand_again (xs := xs) (d := s.ms + (s.streams.get n).settings.windowMs) h hl
    rw [if_pos (by omega), ← typeByte_command h] at hb
    rw [List.cons_append, List.cons_append, typeBytes_taken (typeByte_hold h) rfl, typeBytes_taken hb rfl,
      ih (by simp only [List.length_append, List.length_singleton]; omega)]
    simp [Nat.add_assoc, Nat.add_comm 2]
  | brk bytes items brk he _ ih =>
    rw [List.length_cons] at hr
    have hb := typeCommand_break (xs := xs) (d := s.ms + (s.streams.get n).settings.windowMs) h hl he
    rw [if_pos (by omega), ← typeByte_command h] at hb
    rw [List.cons_append, List.cons_append, typeBytes_taken (typeByte_hold h) rfl, typeBytes_taken hb rfl,
      ih (by simp only [List.length_append, List.length_singleton]; omega)]
    simp [Nat.add_assoc, Nat.add_comm 2]
  | other b bytes items brk hb _ ih =>
    simp only [List.length_cons] at hr
    have hb := typeCommand_other (xs := xs) (d := s.ms + (s.streams.get n).settings.windowMs) h hl hb
    rw [if_pos (by omega), ← typeByte_command h] at hb
    rw [List.cons_append, List.cons_append, typeBytes_taken (typeByte_hold h) rfl, typeBytes_taken hb rfl,
      ih (by simp only [List.length_append, List.length_cons, List.length_nil]; omega)]
    simp [Nat.add_assoc, Nat.add_comm 2]

theorem spells_plain {esc : Byte} {bytes : List Byte} (h : esc ∉ bytes) : Spells esc bytes (bytes.map .byte) false := by
  induction bytes with
  | nil => exact .nil
  | cons b bs ih =>
    rw [List.mem_cons, not_or] at h
    exact .plain b bs _ _ (Ne.symm h.1) (ih h.2)

/-! ## CONSOLE_INPUT (R57, R62) -/

theorem takeInput_badRequest {body : List Byte} (h : body = [] ∨ 1024 < body.length) :
    s.takeInput i n body = s.refuseRenewed i n .badRequest := if_pos h

theorem takeInput_none {body : List Byte} (h : body ≠ []) (hl : body.length ≤ 1024) (ha : (s.streams.get n).att i = none) :
    s.takeInput i n body = s.refuse .wrongState := by
  rw [State.takeInput, if_neg (not_or.mpr ⟨h, Nat.not_lt.mpr hl⟩), ha]

theorem takeInput_watch {body : List Byte} (h : body ≠ []) (hl : body.length ≤ 1024) (ha : (s.streams.get n).att i = some a)
    (hm : a.mode = .watch) : s.takeInput i n body = s.refuseRenewed i n .wrongState := by
  rw [State.takeInput, if_neg (not_or.mpr ⟨h, Nat.not_lt.mpr hl⟩), ha]
  simp only [hm]

theorem takeInput_typing {body : List Byte} (h : body ≠ []) (hl : body.length ≤ 1024) (ha : (s.streams.get n).att i = some a)
    (hm : a.mode = .typing) : s.takeInput i n body = (s.gave n a a.escape []).typeMessage i n body := by
  rw [State.takeInput, if_neg (not_or.mpr ⟨h, Nat.not_lt.mpr hl⟩), ha, gave_nil ha]
  simp only [hm]

/-- The message of an idle recognizer is decided by what its bytes do in order (R62). -/
theorem typeMessage_eq {m t : State} {body : List Byte} {k : Nat} {r : EscapeResult}
    (h : m.typeBytes i n 0 .none body = ⟨t, k, r⟩) :
    m.typeMessage i n body = ⟨t, if k = body.length then .ok else .partialTaken, be 2 k ++ r.bytes⟩ := by
  rw [State.typeMessage, h]

/-- Settles O30. -/
theorem consoleInputIsTypedInOrder : Obligations.ConsoleInputIsTypedInOrder := by
  intro s h bytes body i n a c t l renewed ho
  have hd : s.promise.owner i .consoleInput (some n) h.node body = s.promise.takeInput i n body := rfl
  have refused {r : Result} (hb : s.promise.takeInput i n body = s.promise.refuseRenewed i n r) (hs : t.att i = some a) :
      Answers c s h 0x07 renewed r [] := by
    refine ho.answers_eq (hd.trans (hb.trans ?_))
    rw [State.refuseRenewed, renewLease_some (s := s.promise) hs]; rfl
  refine ⟨fun hb => ⟨fun hn => ho.answers_eq (hd.trans ((takeInput_badRequest (s := s.promise) hb).trans ?_)), fun hs =>
    refused (takeInput_badRequest hb) hs⟩, fun hb hl => ⟨fun hn => ?_, fun hs hm => ?_, fun hs hm he hx law => ?_⟩⟩
  · rw [State.refuseRenewed, renewLease_none (s := s.promise) hn]; rfl
  · exact ho.refused (hd.trans (takeInput_none (s := s.promise) hb hl hn))
  · exact refused (takeInput_watch (s := s.promise) hb hl hs hm) hs
  · intro taken
    have hin : (s.lines.get n).inBounds := (lineLaw_iff.mp law n).1
    have htaken : taken = body.take (s.lines.get n).room := rfl
    have hlen : taken.length = min (s.lines.get n).room body.length := by rw [htaken, List.length_take]
    have split : taken ++ body.drop (s.lines.get n).room = body := List.take_append_drop _ _
    have hsp : Spells (s.streams.get n).settings.escapeByte taken (taken.map .byte) false :=
      spells_plain fun hm => hx (List.mem_of_mem_take hm)
    have all : (s.promise.gave n a none []).typeBytes i n 0 .none body =
        ⟨s.promise.gave n a none (taken.map .byte), taken.length, .none⟩ := by
      rw [← split, typeBytes_spells (s := s.promise) hs hin hsp (by
        rw [List.length_map]; show 0 + _ ≤ (s.lines.get n).room; omega)]
      cases hr : body.drop (s.lines.get n).room with
      | nil => simp [State.typeBytes]
      | cons b bs =>
        have hfull : (s.lines.get n).room < body.length := by
          apply Nat.lt_of_not_le
          intro hle
          rw [List.drop_eq_nil_of_le hle] at hr
          cases hr
        have hb : b ≠ (s.streams.get n).settings.escapeByte := fun hb =>
          hx (hb ▸ List.mem_of_mem_drop (hr ▸ List.mem_cons_self))
        have hnone := typeByte_plain (s := s.promise) (xs := taken.map .byte) hs hin hb
        rw [if_neg (by rw [List.length_map, hlen]; show ¬_ + 1 ≤ (s.lines.get n).room; omega)] at hnone
        simpa using typeBytes_refused hnone
    have hd' := takeInput_typing (s := s.promise) hb hl hs hm
    rw [he, typeMessage_eq all] at hd'
    have ha := ho.answers_eq (e := s.gave n a none (taken.map .byte)) (hd.trans hd')
    rwa [State.gave, show ({ a with lease := s.leaseDeadline, escape := none } : Attachment) =
      { a with lease := s.now / 1000 + s.lease * 1000 } by rw [← he]; rfl] at ha

end

end Sys2Proof.Machine
end

section
/-! PROOFS. The rules for power actions and the media port: what the operations of the Power Sequencer and of a port's attachment
make of a state, but for what free descriptors then change (chapters 5 to 7). -/
namespace Sys2Proof.Machine

-- Side by side, the proofs of this text would need more thread stacks than the check's memory limit holds.
set_option Elab.async false

variable {s e t u : State} {n : NodeId}

/-! ## Updates of what free descriptors never change -/

theorem Delivers.putPort (h : Delivers e t) (n : NodeId) (x : MediaPort) : Delivers (e.putPort n x) (t.putPort n x) := by
  rw [delivers_iff] at *
  exact ⟨congrArg (fun x' : State => x'.putPort n x) h.1, h.2⟩

theorem Delivers.putPower (h : Delivers e t) (n : NodeId) (x : Power) : Delivers (e.putPower n x) (t.putPower n x) := by
  rw [delivers_iff] at *
  exact ⟨congrArg (fun x' : State => x'.putPower n x) h.1, h.2⟩

theorem Delivers.putWatch (h : Delivers e t) (n : NodeId) (x : Watch) : Delivers (e.putWatch n x) (t.putWatch n x) := by
  rw [delivers_iff] at *
  exact ⟨congrArg (fun x' : State => x'.putWatch n x) h.1, h.2⟩

theorem Delivers.putLine (h : Delivers e t) (n : NodeId) (x : Line) : Delivers (e.putLine n x) (t.putLine n x) := by
  rw [delivers_iff] at *
  exact ⟨congrArg (fun x' : State => x'.putLine n x) h.1, h.2⟩

theorem Delivers.putMatcher (h : Delivers e t) (x : Matcher) : Delivers (e.putMatcher x) (t.putMatcher x) := by
  rw [delivers_iff] at *
  exact ⟨congrArg (fun x' : State => x'.putMatcher x) h.1, h.2⟩

theorem PoolWork.putPort (h : PoolWork e t) (n : NodeId) (x : MediaPort) : PoolWork (e.putPort n x) (t.putPort n x) := by
  obtain ⟨st, p, nd, fs, q, rfl, hst⟩ := h
  exact ⟨st, p, nd, fs, q, rfl, hst⟩

theorem putPort_putPort (s : State) (n : NodeId) (x y : MediaPort) : (s.putPort n x).putPort n y = s.putPort n y := by
  simp only [State.putPort, Tab.put_put]

theorem putPower_putPower (s : State) (n : NodeId) (x y : Power) : (s.putPower n x).putPower n y = s.putPower n y := by
  simp only [State.putPower, Tab.put_put]

theorem putWatch_putWatch (s : State) (n : NodeId) (x y : Watch) : (s.putWatch n x).putWatch n y = s.putWatch n y := by
  simp only [State.putWatch, Tab.put_put]

theorem pw_putPower (s : State) (n : NodeId) (x : Power) : (s.putPower n x).pw n = x := Tab.get_put_same _ _ _

theorem wt_putWatch (s : State) (n : NodeId) (x : Watch) : (s.putWatch n x).wt n = x := Tab.get_put_same _ _ _

theorem putPower_self (s : State) (n : NodeId) : s.putPower n (s.pw n) = s := by simp only [State.putPower, State.pw, Tab.put_get]

theorem putWatch_self (s : State) (n : NodeId) : s.putWatch n (s.wt n) = s := by simp only [State.putWatch, State.wt, Tab.put_get]

theorem putPort_self (s : State) (n : NodeId) : s.putPort n (s.port n) = s := by simp only [State.putPort, State.port, Tab.put_get]

theorem Delivers.outstanding_eq (h : Delivers s t) (n : NodeId) : t.outstanding n = s.outstanding n := by
  obtain ⟨-, hw, -⟩ := h.images
  have := congrArg Option.isSome (hw n).2
  simpa [State.outstanding] using this

/-! ## The port's request and attachment (R120, R121) -/

/-- A port without its active request (R121, R133). -/
def MediaPort.dropped (p : MediaPort) (outstanding : Bool) : MediaPort :=
  { p with active := none, staging := if outstanding then p.staging else [] }

/-- An active request dropped: its pin or its need is gone, and the port is without it (R121). -/
theorem dropActive_putPort (s : State) (n : NodeId) (x : MediaPort) : PoolWork (s.putPort n x) ((s.dropActive n).putPort n x) := by
  have h := (dropActive_works s n).putPort n x
  split at h
  · rwa [State.clearActive, putPort_putPort] at h
  · exact h

theorem outstanding_dropActive (s : State) (n : NodeId) : (s.dropActive n).outstanding n = s.outstanding n := by
  rw [State.outstanding, writes_dropActive, State.outstanding]

/-- A port DETACHED (R120, R133). -/
def MediaPort.detached (p : MediaPort) (outstanding : Bool) : MediaPort :=
  { p.dropped outstanding with attached := false, lock := false, sense := ⟨.none, none⟩, bootFirst := false, usb := .nothing }

theorem portDetach_works (s : State) (n : NodeId) :
    PoolWork (s.putPort n ((s.port n).detached (s.outstanding n))) (s.portDetach n) := by
  rw [State.portDetach, outstanding_dropActive, port_dropActive]
  have hx := dropActive_putPort s n ((s.port n).detached (s.outstanding n))
  by_cases ha : (s.port n).active.isSome = true
  · rw [if_pos ha]
    convert hx using 3
    rw [show (s.clearActive n).port n = (s.port n).dropped (s.outstanding n) from State.port_putPort_same _ _ _]
    cases s.outstanding n <;> rfl
  · rw [if_neg ha]
    convert hx using 3
    have hn : (s.port n).active = none := by simpa using ha
    simp only [MediaPort.detached, MediaPort.dropped, hn]

/-- A port in whose permission or bus power nothing is left to attach it. -/
theorem portUpdate_detach_works (s : State) (n : NodeId) (h : ((s.pw n).granted && (s.port n).busPower) = false) :
    PoolWork (if (s.port n).attached then s.putPort n ((s.port n).detached (s.outstanding n)) else s) (s.portUpdate n) := by
  rw [State.portUpdate, show ((s.power.get n).granted && (s.port n).busPower) = _ from h]
  by_cases ha : (s.port n).attached = true
  · simp only [ha, Bool.not_false, Bool.and_true, Bool.false_and, Bool.false_eq_true, if_false, if_true]
    exact portDetach_works s n
  · simp only [ha, Bool.not_false, Bool.and_false, Bool.false_and, Bool.false_eq_true, if_false]
    exact .refl s

/-- The state with node `n`'s permission withdrawn (R96, R120). -/
def State.denied (s : State) (n : NodeId) : State :=
  (s.putPower n (s.pw n).denied).putPort n ((s.port n).withdrawn (s.outstanding n))

theorem deny_works (s : State) (n : NodeId) : PoolWork (s.denied n) (s.deny n) := by
  have h := portUpdate_detach_works ((s.putPower n (s.pw n).denied).putPort n { s.port n with grantBoot := false }) n (by
    rw [show ((s.putPower n (s.pw n).denied).putPort n _).pw n = (s.pw n).denied from pw_putPower _ _ _]
    rfl)
  rw [State.port_putPort_same, putPort_putPort] at h
  have he : s.denied n = if (s.port n).attached = true then (s.putPower n (s.pw n).denied).putPort n
      (({ s.port n with grantBoot := false } : MediaPort).detached (s.outstanding n))
      else (s.putPower n (s.pw n).denied).putPort n { s.port n with grantBoot := false } := by
    rw [State.denied, MediaPort.withdrawn]
    by_cases ha : (s.port n).attached = true
    · rw [if_pos ha, if_pos ha]; rfl
    · rw [if_neg ha, if_neg ha]
  rw [he]
  exact h

theorem Delivers.deny (h : Delivers e t) (n : NodeId) : Delivers (e.denied n) (t.deny n) := by
  refine Delivers.trans ?_ (deny_works t n).delivers
  rw [State.denied, State.denied, h.pw_eq, h.port_eq, h.outstanding_eq]
  exact (h.putPower n _).putPort n _

/-! ## Reboot marks (R95) -/

/-- The three orders of a reboot mark, but for what batches then take (R95). -/
def State.rebooted (s : State) (n : NodeId) : State :=
  ((s.withEntry n (.mark .reboot)).putLine n ((s.lines.get n).toPrimary s.now)).putMatcher
    ((s.matcherOffered n (.mark .reboot)).rebootOrder n)

theorem rebootMark_delivers (s : State) (n : NodeId) : Delivers (s.rebooted n) (s.rebootMark n) := by
  have h := (offerMatched_settles s n (.mark .reboot)).delivers
  show Delivers _ (((s.offerMatched n (.mark .reboot)).putLine n
    (((s.offerMatched n (.mark .reboot)).lines.get n).toPrimary (s.offerMatched n (.mark .reboot)).now)).putMatcher
    ((s.offerMatched n (.mark .reboot)).matcher.rebootOrder n))
  rw [h.line_eq, h.now_eq, h.matcher_eq]
  exact (h.putLine n _).putMatcher _

theorem withEntry_node (s : State) (n : NodeId) (k : EntryKind) : NodeWork n s (s.withEntry n k) := by
  refine (putStream_node s _).trans (putMatcher_node _ _ ?_ fun j hj => ?_)
  · rw [State.matcherOffered]
    split
    · exact (Matcher.take_eq _ _ _).1
    · rfl
  · rw [State.matcherOffered]
    split
    · exact (Matcher.take_eq _ _ _).2 j hj
    · exact ⟨rfl, rfl⟩

theorem rebooted_node (s : State) (n : NodeId) : NodeWork n s (s.rebooted n) :=
  (withEntry_node s n _).trans ((putLine_node _ _).trans
    (putMatcher_node _ _ rfl fun _ hk => ⟨Tab.get_put_ne _ _ hk, Tab.get_put_ne _ _ hk⟩))

theorem rebooted_marked (s : State) (n : NodeId) : RebootMarked n s (s.rebooted n) :=
  ⟨.refl _, Tab.get_put_same _ _ _, Tab.get_put_same _ _ _, Tab.get_put_same _ _ _⟩

theorem RebootMarked.delivers (h : RebootMarked n s t) (k : Delivers t u) : RebootMarked n s u := by
  obtain ⟨h1, h2, h3, h4⟩ := h
  exact ⟨h1.trans (k.streams n), (k.line_eq n).trans h2, k.matcher_eq ▸ h3, k.matcher_eq ▸ h4⟩

/-! ## Actions begin (R89 to R93) -/

theorem Begins.delivers {a : Action} {p : Power} (h : Begins n a p s t) (k : Delivers t u) : Begins n a p s u := by
  obtain ⟨h1, h2, h3, h4, h5, h6⟩ := h
  refine ⟨(k.pw_eq n).trans h1, (k.wt_eq n).trans h2, ?_, ?_, h5.trans k.elsewhere, h6.trans k.images⟩
  · rw [k.port_eq n]; exact h3
  · split at h4
    · next hk => rw [if_pos hk]; exact h4.delivers k
    · next hk => rw [if_neg hk]; exact h4.trans k.console

/-- The watch told of an action (R99, R110). -/
theorem wt_tellTaken (s : State) (n : NodeId) (a : Action) :
    (s.tellTaken n a).wt n = if a.byWatch then s.wt n else (s.wt n).stop := by
  rw [State.tellTaken]
  split
  · rfl
  · exact wt_putWatch _ _ _

theorem tellTaken_eq (s : State) (n : NodeId) (a : Action) :
    s.tellTaken n a = s.putWatch n (if a.byWatch then s.wt n else (s.wt n).stop) := by
  rw [State.tellTaken]
  split
  · exact (putWatch_self s n).symm
  · rfl

theorem Delivers.raise (h : Delivers e t) (hn : t.notices = e.notices) (id : SetId) (ev : Event) :
    Delivers (e.raise id ev) (t.raise id ev) := by
  have hs : (t.raise id ev).notices = (e.raise id ev).notices := by
    cases id <;> simp only [State.raise, State.putSet, State.pendingSet, hn]
  rw [delivers_iff] at h ⊢
  obtain ⟨h1, h2, h3, h4, -⟩ := h
  have h1' : (t.raise id ev).still = (e.raise id ev).still := by cases id <;> exact h1
  cases id <;> exact ⟨h1', h2, h3, h4, .of_eq hs⟩

/-- What of a state the beginning of action `a` changes, the power record becoming `p` (R90 to R93, R95, R96). -/
def State.begun (s : State) (n : NodeId) (a : Action) (p : Power) : State :=
  let q := (if a.kind = .reset ∨ a.kind = .cycle then s.rebooted n else s).putPower n p
  if a.kind = .powerOn ∨ a.kind = .softOff then q else q.putPort n ((s.port n).withdrawn (s.outstanding n))

/-- A power record put in the place of another and denied at once. -/
theorem putPower_deny_delivers (h : Delivers e t) (n : NodeId) (x : Power) :
    Delivers ((e.putPower n x.denied).putPort n ((e.port n).withdrawn (e.outstanding n))) ((t.putPower n x).deny n) := by
  have hd := (h.putPower n x).deny n
  rw [State.denied, pw_putPower, putPower_putPower] at hd
  exact hd

theorem beginAction_delivers (s : State) (n : NodeId) (a : Action) :
    Delivers (s.begun n a ((s.pw n).begun s.ms a)) (s.beginAction n a) := by
  have mark := rebootMark_delivers s n
  have hms : (s.rebootMark n).ms = s.ms := congrArg (· / 1000) mark.now_eq
  have hpw : (s.rebootMark n).pw n = s.pw n := mark.pw_eq n
  obtain ⟨kind, origin, toMedia, preempted⟩ := a
  cases kind with
  | powerOn => exact .refl _
  | softOff => exact .refl _
  | hardOff => exact putPower_deny_delivers (.refl s) n _
  | reset =>
    show Delivers _ (((s.rebootMark n).putPower n _).deny n)
    rw [hms, hpw]
    exact putPower_deny_delivers mark n _
  | cycle =>
    show Delivers _ (((s.rebootMark n).putPower n _).deny n)
    rw [hms, hpw]
    exact putPower_deny_delivers mark n _

theorem begun_node (s : State) (n : NodeId) (a : Action) (p : Power) : NodeWork n s (s.begun n a p) := by
  have mark : NodeWork n s (if a.kind = .reset ∨ a.kind = .cycle then s.rebooted n else s) := by
    split
    · exact rebooted_node s n
    · exact .refl s
  rw [State.begun]
  split
  · exact mark.trans (putPower_node _ _)
  · exact mark.trans ((putPower_node _ _).trans (putPort_node _ _))

theorem ImagesSettled.of_eq (h : t.images = s.images) : ImagesSettled s t := by
  unfold ImagesSettled State.image
  rw [h]
  exact ImagesSettled.refl s

section
variable (s : State) (n : NodeId) (a : Action) (p : Power)

theorem pw_begun : (s.begun n a p).pw n = p := by
  rw [State.begun]
  split <;> exact Tab.get_put_same _ _ _

theorem wt_begun : (s.begun n a p).wt n = s.wt n := by
  rw [State.begun]
  split <;> split <;> rfl

theorem images_begun : (s.begun n a p).images = s.images := by
  rw [State.begun]
  split <;> split <;> rfl

theorem notices_begun : (s.begun n a p).notices = s.notices := by
  rw [State.begun]
  split <;> split <;> rfl

theorem up_begun : (s.begun n a p).up = s.up := by
  rw [State.begun]
  split <;> split <;> rfl

theorem port_begun : (s.begun n a p).port n =
    if a.kind = .powerOn ∨ a.kind = .softOff then s.port n else (s.port n).withdrawn (s.outstanding n) := by
  rw [State.begun]
  split
  · split <;> rfl
  · exact Tab.get_put_same _ _ _

/-- An action that begins makes of the state what the rules for it say (R90 to R93, R95, R96, R110). -/
theorem begun_begins :
    Begins n a p s ((s.putWatch n (if a.byWatch then s.wt n else (s.wt n).stop)).begun n a p) := by
  have work := (putWatch_node (n := n) s (if a.byWatch then s.wt n else (s.wt n).stop)).trans (begun_node _ n a p)
  refine ⟨pw_begun _ n a p, (wt_begun _ n a p).trans (wt_putWatch s n _), ?_, ?_, work.elsewhere, ?_⟩
  · rw [port_begun]
    split <;> rfl
  · split
    · next h =>
      rw [State.begun, if_pos h]
      obtain ⟨h1, h2, h3, h4⟩ := rebooted_marked (s.putWatch n (if a.byWatch then s.wt n else (s.wt n).stop)) n
      split <;> exact ⟨h1, h2, h3, h4⟩
    · next h =>
      rw [State.begun, if_neg h]
      split <;> exact .refl n s
  · exact .of_eq (images_begun _ n a p)

end

/-! ## The resting states (R96, R98, R109, R110) -/

/-- What of a state an entry to OFF changes (R96, R98, R110). -/
def State.enteredOff (s : State) (n : NodeId) (ev : PowerEvent) (act : Option Action) : State :=
  (((s.raise (some n) (.power ev .off act)).putPower n (s.pw n).inOff).putPort n ((s.port n).withdrawn (s.outstanding n))).putWatch n
    (s.wt n).stop

theorem enterOff_delivers (s : State) (n : NodeId) (ev : PowerEvent) (act : Option Action) :
    Delivers (s.enteredOff n ev act) (s.enterOff n ev act) := by
  let x : Power := { s.pw n with state := .off, action := none, phase := none, tick := none, button := false, reset := false }
  have h := putPower_deny_delivers (.refl (s.raise (some n) (.power ev .off act))) n x
  have hw := h.putWatch n (s.wt n).stop
  have he : s.enterOff n ev act = ((((s.raise (some n) (.power ev .off act)).putPower n x).deny n).putWatch n (s.wt n).stop) := by
    show ((((s.putPower n x).raise (some n) (.power ev .off act)).deny n).stopWatch n) = _
    rw [State.stopWatch, (deny_works _ n).delivers.wt_eq]
    rfl
  rw [he]
  exact hw

theorem EntersOff.delivers {ev : PowerEvent} {act : Option Action} (h : EntersOff n ev act s t) (k : Delivers t u) :
    EntersOff n ev act s u := by
  obtain ⟨h1, h2, h3, h4, h5, h6, h7, h8⟩ := h
  exact ⟨(k.pw_eq n).trans h1, (k.wt_eq n).trans h2, (k.port_eq n).trans h3, h4.trans k.console, h5.trans k.elsewhere,
    h6.trans k.uplink, h7.trans k.images, k.notices_trans h8 (h5.2.2.2.1) h5.1⟩

theorem enteredOff_enters (s : State) (n : NodeId) (ev : PowerEvent) (act : Option Action) :
    EntersOff n ev act s (s.enteredOff n ev act) :=
  ⟨Tab.get_put_same _ _ _, Tab.get_put_same _ _ _, Tab.get_put_same _ _ _, .refl n s,
    ((raise_node s _ _).trans ((putPower_node _ _).trans ((putPort_node _ _).trans (putWatch_node _ _)))).elsewhere,
    .refl s, .refl s, .of_eq rfl⟩

/-- An entry to OFF (R96, R98, R110). -/
theorem enterOff_enters (s : State) (n : NodeId) (ev : PowerEvent) (act : Option Action) :
    EntersOff n ev act s (s.enterOff n ev act) :=
  (enteredOff_enters s n ev act).delivers (enterOff_delivers s n ev act)

/-- The power record on an entry to ON (R96, R97). -/
def Power.inOn (p : Power) (ms : Nat) (keep : Bool) : Power :=
  { p with
    state := .on, action := none, phase := none, tick := none, button := false, reset := false
    reattach := if p.granted then p.reattach else some (ms + 500)
    armed := if p.granted then p.armed else keep && p.toMedia }

/-- What of a state an entry to ON changes (R95, R96, R98, R109). -/
def State.enteredOn (s : State) (n : NodeId) (ev : PowerEvent) (mark keep starts : Bool) : State :=
  let b := s.raise (some n) (.power ev .on (s.pw n).action)
  ((if mark then b.rebooted n else b).putPower n ((s.pw n).inOn s.ms keep)).putWatch n
    (if starts then (s.wt n).start s.ms else s.wt n)

theorem startReattach_eq (s : State) (n : NodeId) (armed : Bool) : s.startReattach n armed = s.putPower n { s.pw n with
    reattach := if (s.pw n).granted then (s.pw n).reattach else some (s.ms + 500)
    armed := if (s.pw n).granted then (s.pw n).armed else armed } := by
  rw [State.startReattach]
  split
  · exact (putPower_self s n).symm
  · rfl

theorem enterOn_delivers (s : State) (n : NodeId) (ev : PowerEvent) (mark keep : Bool) :
    Delivers (s.enteredOn n ev mark keep (entryStarts (s.pw n).state (s.wt n).localStart (s.pw n).action))
      (s.enterOn n ev mark keep) := by
  let x : Power := { s.pw n with state := .on, action := none, phase := none, tick := none, button := false, reset := false }
  let r : State := s.raise (some n) (.power ev .on (s.pw n).action)
  let b : State := r.putPower n x
  let c : State := if mark then b.rebootMark n else b
  have marked : Delivers (if mark then b.rebooted n else b) c := by
    dsimp only [c]
    split
    · exact rebootMark_delivers b n
    · exact .refl b
  have kept : Delivers ((if mark then r.rebooted n else r).putPower n x) c := by
    cases mark <;> exact marked
  have hx : c.pw n = x := (kept.pw_eq n).trans (pw_putPower _ n x)
  have hw : c.wt n = s.wt n := (kept.wt_eq n).trans (by cases mark <;> rfl)
  have hms : c.ms = s.ms := congrArg (· / 1000) (kept.now_eq.trans (by cases mark <;> rfl))
  have hd : c.startReattach n (keep && (s.pw n).toMedia) = c.putPower n ((s.pw n).inOn s.ms keep) := by
    rw [startReattach_eq, hx, hms]
    rfl
  have he : s.enterOn n ev mark keep =
      (c.putPower n ((s.pw n).inOn s.ms keep)).putWatch n
        (if entryStarts (s.pw n).state (s.wt n).localStart (s.pw n).action then (s.wt n).start s.ms else s.wt n) := by
    show (if entryStarts (s.pw n).state ((c.startReattach n (keep && (s.pw n).toMedia)).wt n).localStart (s.pw n).action
      then (c.startReattach n (keep && (s.pw n).toMedia)).putWatch n
        (((c.startReattach n (keep && (s.pw n).toMedia)).wt n).start (c.startReattach n (keep && (s.pw n).toMedia)).ms)
      else c.startReattach n (keep && (s.pw n).toMedia)) = _
    rw [hd, show (c.putPower n _).wt n = s.wt n from hw, show (c.putPower n _).ms = s.ms from hms]
    split
    · rfl
    · rw [← hw]
      exact (putWatch_self _ n).symm
  rw [he]
  have hk := (kept.putPower n ((s.pw n).inOn s.ms keep)).putWatch n
    (if entryStarts (s.pw n).state (s.wt n).localStart (s.pw n).action then (s.wt n).start s.ms else s.wt n)
  rwa [putPower_putPower] at hk

theorem EntersOn.delivers {ev : PowerEvent} {mark keep starts : Bool} (h : EntersOn n ev mark keep starts s t) (k : Delivers t u) :
    EntersOn n ev mark keep starts s u := by
  obtain ⟨h1, h2, h3, h4, h5, h6, h7, h8⟩ := h
  refine ⟨(k.pw_eq n).trans h1, (k.wt_eq n).trans h2, (k.port_eq n).trans h3, ?_, h5.trans k.elsewhere,
    h6.trans k.uplink, h7.trans k.images, k.notices_trans h8 (h5.2.2.2.1) h5.1⟩
  cases mark
  · exact h4.trans k.console
  · exact h4.delivers k

theorem Watch.start_eq (w : Watch) (ms : Nat) : w.start ms =
    if w.timeS ≠ 0 ∧ w.state ≠ .held then { w with state := .watching, timer := some (ms + w.timeS * 1000) } else w := by
  rw [Watch.start]
  by_cases h : w.timeS = 0 ∨ w.state = .held
  · rw [if_pos h, if_neg (by rintro ⟨h1, h2⟩; exact h.elim h1 h2)]
  · rw [if_neg h, if_pos (not_or.mp h)]

theorem enteredOn_enters (s : State) (n : NodeId) (ev : PowerEvent) (mark keep starts : Bool) :
    EntersOn n ev mark keep starts s (s.enteredOn n ev mark keep starts) := by
  have mark_node : NodeWork n s (if mark then (s.raise (some n) (.power ev .on (s.pw n).action)).rebooted n
      else s.raise (some n) (.power ev .on (s.pw n).action)) := by
    split
    · exact (raise_node s _ _).trans (rebooted_node _ n)
    · exact raise_node s _ _
  have work : NodeWork n s (s.enteredOn n ev mark keep starts) := mark_node.trans ((putPower_node _ _).trans (putWatch_node _ _))
  have rest (r : State) : (if mark then r.rebooted n else r).ports = r.ports ∧ (if mark then r.rebooted n else r).up = r.up ∧
      (if mark then r.rebooted n else r).images = r.images ∧ (if mark then r.rebooted n else r).notices = r.notices := by
    cases mark <;> exact ⟨rfl, rfl, rfl, rfl⟩
  have rest := rest (s.raise (some n) (.power ev .on (s.pw n).action))
  have hp : (s.enteredOn n ev mark keep starts).pw n = (s.pw n).inOn s.ms keep := pw_putPower _ n _
  have hw : (s.enteredOn n ev mark keep starts).wt n = if starts then (s.wt n).start s.ms else s.wt n := wt_putWatch _ n _
  refine ⟨hp, hw.trans ?_, ?_, ?_, work.elsewhere, ?_, ?_, ?_⟩
  · cases starts
    · rfl
    · exact (Watch.start_eq _ _).trans (if_congr (by simp) rfl rfl)
  · exact congrArg (Tab.get · n) rest.1
  · cases mark
    · exact .refl n s
    · obtain ⟨h1, h2, h3, h4⟩ := rebooted_marked (s.raise (some n) (.power ev .on (s.pw n).action)) n
      exact ⟨h1, h2, h3, h4⟩
  · exact (UplinkGrows.of_eq rest.2.1).settled
  · exact .of_eq rest.2.2.1
  · exact .of_eq rest.2.2.2

/-- An entry to ON (R95, R96, R98, R109). -/
theorem enterOn_enters (s : State) (n : NodeId) (ev : PowerEvent) (mark keep : Bool) :
    EntersOn n ev mark keep (entryStarts (s.pw n).state (s.wt n).localStart (s.pw n).action) s (s.enterOn n ev mark keep) :=
  (enteredOn_enters s n ev mark keep _).delivers (enterOn_delivers s n ev mark keep)

/-! ## Actions offered (R88, R89) -/

section
variable {a : Action}

theorem offerAction_refused {r : Result} (h : availability a.kind (s.pw n).state = .refused r) : s.offerAction n a = (s, r) := by
  rw [State.offerAction, h]

theorem offerAction_noMedium (h : availability a.kind (s.pw n).state = .taken) (hm : s.lacksMedium n a = true) :
    s.offerAction n a = (s, .noMedium) := by
  rw [State.offerAction, h]
  exact if_pos hm

theorem offerAction_taken (h : availability a.kind (s.pw n).state = .taken) (hm : s.lacksMedium n a = false) :
    s.offerAction n a = ((s.tellTaken n a).beginAction n a, .ok) := by
  rw [State.offerAction, h]
  exact if_neg (by rw [hm]; nofun)

theorem offerAction_preempts (h : availability a.kind (s.pw n).state = .preempts) :
    s.offerAction n a = ((s.tellTaken n a).preempt n a, .ok) := by
  rw [State.offerAction, h]

theorem availability_on {k : ActionKind} (h : k ≠ .powerOn) : availability k .on = .taken := by
  cases k with
  | powerOn => exact absurd rfl h
  | softOff | hardOff | reset | cycle => rfl

end

section
variable (s) (n) (a : Action)

theorem taken_delivers : Delivers ((s.putWatch n (if a.byWatch then s.wt n else (s.wt n).stop)).begun n a ((s.pw n).begun s.ms a))
    ((s.tellTaken n a).beginAction n a) := by
  rw [tellTaken_eq]
  exact beginAction_delivers _ n a

/-- A taken action begins (R90 to R93, R95, R96, R110). -/
theorem taken_begins : Begins n a ((s.pw n).begun s.ms a) s ((s.tellTaken n a).beginAction n a) :=
  (begun_begins s n a _).delivers (taken_delivers s n a)

theorem taken_uplink : UplinkSettled s ((s.tellTaken n a).beginAction n a) :=
  .trans (UplinkGrows.of_eq (up_begun (s.putWatch n _) n a _)).settled (taken_delivers s n a).uplink

theorem rebootMark_notices : (s.rebootMark n).notices = s.notices := by
  obtain ⟨fs, u, m, h⟩ := offerMatched_eq s n (.mark .reboot)
  simp only [State.rebootMark, State.offerMark, h]
  rfl

theorem deny_notices : (s.deny n).notices = s.notices := (deny_works s n).notices_eq

theorem taken_notices : ((s.tellTaken n a).beginAction n a).notices = s.notices := by
  rw [tellTaken_eq]
  obtain ⟨kind, origin, toMedia, preempted⟩ := a
  cases kind with
  | powerOn => rfl
  | softOff => rfl
  | hardOff => exact deny_notices _ n
  | reset => exact (deny_notices _ n).trans (rebootMark_notices _ n)
  | cycle => exact (deny_notices _ n).trans (rebootMark_notices _ n)

/-- A HARD_OFF preempts the action in flight (R89): an ACTIVE level is brought down. -/
theorem preempt_active_delivers (h : (s.pw n).filtered = .active) (ha : a.kind = .hardOff) :
    Delivers (s.begun n a ((s.pw n).preempted s.ms a)) (s.preempt n a) := by
  rw [State.preempt, State.begun, Power.preempted, if_neg (not_not_intro h), if_neg (by rw [ha]; decide),
    if_neg (by rw [ha]; decide)]
  dsimp only
  rw [if_pos h]
  split
  · exact putPower_deny_delivers (.refl s) n _
  · exact putPower_deny_delivers (.refl s) n _

end

end Sys2Proof.Machine
end

section
/-! PROOFS. The obligations about power actions, the PGOOD filter, the phase timers and the boot watch (chapters 5 and 6). -/
namespace Sys2Proof.Machine

-- Side by side, the proofs of this text would need more thread stacks than the check's memory limit holds.
set_option Elab.async false

variable {s e t u v : State} {n : NodeId} {a : Action} {p : Power}

/-! ## Power actions requested (R88, R89) -/

theorem actionOf_code (k : ActionKind) : actionOf (BitVec.ofNat 8 k.code) = some k := by cases k <;> rfl

theorem actionOf_none {x : Byte} (h : 4 < x.toNat) : actionOf x = none := by
  refine List.find?_eq_none.mpr fun k _ hk => ?_
  have : k.code ≤ 4 := by cases k <;> decide
  have := of_decide_eq_true hk
  omega

theorem takePower_length {i : StationIx} {b : List Byte} (h : b.length ≠ 2) : s.takePower i n b = s.refuse .badRequest := by
  unfold State.takePower
  split
  · exact absurd rfl h
  · rfl

theorem takePower_undefined {i : StationIx} {b : List Byte} (h : ∀ x, b.head? = some x → 4 < x.toNat) :
    s.takePower i n b = s.refuse .badRequest := by
  unfold State.takePower
  split
  · next code flags =>
    rw [actionOf_none (h code rfl)]
  · rfl

theorem takePower_media {i : StationIx} {k : ActionKind} {flags : Byte} (hm : flags.getLsbD 0 = true)
    (hk : ¬(k = .reset ∨ k = .cycle)) : s.takePower i n [BitVec.ofNat 8 k.code, flags] = s.refuse .badRequest := by
  rw [State.takePower, actionOf_code]
  exact if_pos ⟨hm, not_or.mp hk⟩

theorem takePower_offered {i : StationIx} {k : ActionKind} {flags : Byte} (h : flags.getLsbD 0 = true → k = .reset ∨ k = .cycle) :
    s.takePower i n [BitVec.ofNat 8 k.code, flags] =
      ⟨(s.offerAction n ⟨k, .station i, flags.getLsbD 0, none⟩).1, (s.offerAction n ⟨k, .station i, flags.getLsbD 0, none⟩).2, []⟩ := by
  rw [State.takePower, actionOf_code]
  exact if_neg fun ⟨hm, h1, h2⟩ => (h hm).elim h1 h2

theorem Begins.su_eq (h : Begins n a p s t) : t.su = s.su := h.2.2.2.2.1.2.2.2.1

theorem Begins.now_eq (h : Begins n a p s t) : t.now = s.now := h.2.2.2.2.1.1

/-- What an action that begins leaves, its answer and the end of the step leave. -/
theorem Begins.answered {h : Head} {kind : Byte} {r : Result} {b : List Byte} (hv : Settles (t.answer h kind r b) v)
    (hb : Begins n a p e.promise t) (hu : UplinkSettled e.promise t) :
    Begins n a p e v ∧ UplinkSettled (e.withAnswer h kind r b) v :=
  ⟨(show Begins n a p e (t.answer h kind r b) from hb).delivers hv.delivers, (hu.answer h kind r b).trans hv.delivers.uplink⟩

/-- What was pending before an effect, its answer and the end of the step may let leave. -/
theorem NoticesSettled.answered {h : Head} {kind : Byte} {r : Result} {b : List Byte} (hn : NoticesSettled e t) (hsu : t.su = e.su)
    (hnow : t.now = e.now) (hv : Settles (t.answer h kind r b) v) : NoticesSettled e v :=
  hv.delivers.notices_trans (.trans hsu hnow (framesKept_append t [answerFrame h kind r b]) hn (.of_eq rfl)) hsu hnow

theorem Watch.stop_stop (w : Watch) : w.stop.stop = w.stop := by
  unfold Watch.stop
  split
  · rfl
  · rfl

theorem preempt_notices (s : State) (n : NodeId) (a : Action) (h : (s.pw n).filtered = .active) :
    (s.preempt n a).notices = s.notices := by
  rw [State.preempt, if_pos h]
  split <;> exact deny_notices _ n

theorem preempt_done (s : State) (n : NodeId) (a : Action) (h : (s.pw n).filtered ≠ .active) :
    s.preempt n a = s.enterOff n .hardOffDone (some { a with preempted := (s.pw n).action.map Action.kind }) := by
  rw [State.preempt]
  exact if_neg h

/-- An action that ends at once in OFF (R89). -/
theorem EntersOff.begins {ev : PowerEvent} {act : Option Action} (h : EntersOff n ev act (s.putWatch n (s.wt n).stop) t)
    (ha : a.kind = .hardOff) (hw : a.byWatch = false) : Begins n a (s.pw n).inOff s t := by
  obtain ⟨h1, h2, h3, h4, h5, -, h7, -⟩ := h
  refine ⟨h1, ?_, ?_, ?_, (putWatch_node s _).elsewhere.trans h5, h7⟩
  · rw [h2, wt_putWatch, Watch.stop_stop, hw]
    rfl
  · rw [ha]
    exact h3
  · rw [ha]
    exact h4

/-- A HARD_OFF preempts the action in flight (R89). -/
theorem preempt_begins (ha : a.kind = .hardOff) (hw : a.byWatch = false) :
    Begins n a ((s.pw n).preempted s.ms a) s ((s.tellTaken n a).preempt n a) ∧
      UplinkSettled s ((s.tellTaken n a).preempt n a) ∧
      NoticesSettled (if (s.pw n).filtered = .active then s
        else s.raise (some n) (.power .hardOffDone .off (some { a with preempted := (s.pw n).action.map Action.kind })))
        ((s.tellTaken n a).preempt n a) := by
  rw [tellTaken_eq]
  by_cases hf : (s.pw n).filtered = .active
  · rw [if_pos hf]
    have hd := preempt_active_delivers (s.putWatch n (if a.byWatch then s.wt n else (s.wt n).stop)) n a hf ha
    exact ⟨(begun_begins s n a _).delivers hd, .trans (UplinkGrows.of_eq (up_begun (s.putWatch n _) n a _)).settled hd.uplink,
      .of_eq (preempt_notices (s.putWatch n _) n a hf)⟩
  · rw [if_neg hf, hw, preempt_done (s.putWatch n _) n a hf]
    have he := enterOff_enters (s.putWatch n (s.wt n).stop) n .hardOffDone
      (some { a with preempted := (s.pw n).action.map Action.kind })
    have hp : (s.pw n).preempted s.ms a = (s.pw n).inOff := if_pos hf
    rw [hp]
    exact ⟨he.begins ha hw, he.2.2.2.2.2.1, he.2.2.2.2.2.2.2⟩

theorem availability_acting {k : ActionKind} {st : PowerState} (hs : st.acting = true) (hk : k ≠ .hardOff) :
    availability k st = .refused .busy := by
  cases st with
  | unknown | off | on => cases hs
  | starting | softStopping | hardStopping | resetting | dwelling =>
    cases k with
    | hardOff => exact absurd rfl hk
    | powerOn | softOff | reset | cycle => rfl

theorem availability_hardOff {st : PowerState} (hs : st.acting = true) (hh : st ≠ .hardStopping) :
    availability .hardOff st = .preempts := by
  cases st with
  | unknown | off | on => cases hs
  | hardStopping => exact absurd rfl hh
  | starting | softStopping | resetting | dwelling => rfl

/-- Settles O36. -/
theorem powerActionsFollowTheAvailabilityTable : Obligations.PowerActionsFollowTheAvailabilityTable := by
  intro s h bytes body i n k flags c a p rebooting refused ok
  refine ⟨fun ho hx => ?_, fun ho => ?_⟩
  · exact ho.refused (show s.promise.takePower i n body = _ from takePower_undefined hx)
  have hd : s.promise.owner i .powerAction (some n) h.node body = s.promise.takePower i n body := rfl
  have ends {x : State} (hx : s.promise.owner i .powerAction (some n) h.node body = ⟨x, .ok, []⟩) {q : Power} {y : State}
      (hb : Begins n a q s.promise x) (hu : UplinkSettled s.promise x) (hn : NoticesSettled y x) (hsu : y.su = s.su)
      (hnow : y.now = s.now) : ∃ t, exec c s = .next t ∧ Begins n a q s t ∧ ok t ∧ NoticesSettled y t := by
    obtain ⟨v, hv, hs⟩ := ho.ends hx
    obtain ⟨h1, h2⟩ := hb.answered hs hu
    exact ⟨v, hv, h1, h2, hn.answered (hb.su_eq.trans hsu.symm) (hb.now_eq.trans hnow.symm) hs⟩
  refine ⟨fun hl => ho.refused (hd.trans (takePower_length hl)), fun hb hm hk => ?_, fun hb hm => ?_⟩
  · exact ho.refused (hd.trans (hb ▸ takePower_media hm hk))
  have hoff : s.promise.owner i .powerAction (some n) h.node body = ⟨(s.promise.offerAction n a).1, (s.promise.offerAction n a).2, []⟩ :=
    hd.trans (hb ▸ takePower_offered hm)
  have refuse {r : Result} (hx : s.promise.offerAction n a = (s.promise, r)) : refused r :=
    ho.refused (hoff.trans (by rw [hx]; rfl))
  have by_table {r : Result} (hx : availability k p.state = .refused r) : refused r :=
    refuse (offerAction_refused (s := s.promise) hx)
  refine ⟨fun hs => by_table ?_, fun hs hk => by_table ?_, fun hs hk => by_table ?_, fun hs hk => by_table ?_,
    fun hs hk => by_table ?_, fun hs hk => by_table ?_, fun hs hk hm hp => refuse ?_, fun hx => ?_, fun hs hh hk => ?_⟩
  · rw [hs]; cases k <;> rfl
  · rw [hs]; rcases hk with rfl | rfl <;> rfl
  · rw [hs]; rcases hk with rfl | rfl <;> rfl
  · rw [hs, hk]; rfl
  · exact availability_acting hs hk
  · rw [hs, hk]; rfl
  · have hk' : k ≠ .powerOn := by rintro rfl; exact hk.elim nofun nofun
    refine offerAction_noMedium (s := s.promise) (show availability k p.state = _ from hs ▸ availability_on hk') ?_
    show (a.toMedia && !(s.port n).medium.isPresent) = true
    rw [hm, hp]
    rfl
  · have ht : s.promise.offerAction n a = ((s.promise.tellTaken n a).beginAction n a, .ok) := by
      rcases hx with ⟨hs, hk⟩ | ⟨hs, hk, hp⟩
      · refine offerAction_taken (s := s.promise) (show availability k p.state = _ by rw [hs, hk]; rfl) ?_
        have : a.toMedia = false := Bool.eq_false_iff.mpr fun h => by rcases hm h with h | h <;> rw [hk] at h <;> cases h
        show (a.toMedia && _) = false
        rw [this]
        rfl
      · refine offerAction_taken (s := s.promise) (show availability k p.state = _ from hs ▸ availability_on hk) ?_
        show (a.toMedia && !(s.port n).medium.isPresent) = false
        cases h : a.toMedia
        · rfl
        · rw [hp h]
          rfl
    rw [ht] at hoff
    exact ends hoff (taken_begins _ n a) (taken_uplink _ n a) (.of_eq (taken_notices s.promise n a)) rfl rfl
  · have ht := offerAction_preempts (s := s.promise) (n := n) (a := a) (show availability k p.state = _ from hk ▸ availability_hardOff hs hh)
    rw [ht] at hoff
    obtain ⟨h1, h2, h3⟩ := preempt_begins (s := s.promise) (n := n) (a := a) hk rfl
    refine ends hoff h1 h2 (y := if p.filtered = .active then s else _) ?_ ?_ ?_
    · by_cases hf : p.filtered = .active
      · rw [if_pos (show (s.promise.pw n).filtered = _ from hf)] at h3
        rw [if_pos hf]
        exact h3
      · rw [if_neg (show ¬(s.promise.pw n).filtered = _ from hf)] at h3
        rw [if_neg hf]
        exact h3
    · split <;> rfl
    · split <;> rfl

/-! ## The phase timers (R89 to R93) -/

section
variable {c : Instr} {f : State → State} {ev : PowerEvent} {applies : Power → Bool} {g : State → State} {d : Nat}

theorem EntersOn.ends {mark keep starts : Bool} (hc : exec c s = s.whenRunning f) (hp : s.porn = true)
    (h : EntersOn n ev mark keep starts e (f s)) : ∃ t, exec c s = .next t ∧ EntersOn n ev mark keep starts e t :=
  ⟨_, exec_running hc hp, h.delivers (finish_settles _).delivers⟩

theorem EntersOff.ends {act : Option Action} (hc : exec c s = s.whenRunning f) (hp : s.porn = true)
    (h : EntersOff n ev act e (f s)) : ∃ t, exec c s = .next t ∧ EntersOff n ev act e t :=
  ⟨_, exec_running hc hp, h.delivers (finish_settles _).delivers⟩

theorem phaseEnds_running (h : (s.pw n).phase = some d) (ha : applies (s.pw n) = true) :
    s.phaseEnds n applies g = g (s.reachMs d) := by
  rw [State.phaseEnds, h]
  exact if_pos ha

theorem phaseEnds_stopped (h : (s.pw n).phase = none ∨ applies (s.pw n) = false) : s.phaseEnds n applies g = s := by
  rw [State.phaseEnds]
  split
  · next d hd =>
    rcases h with h | h
    · rw [hd] at h; cases h
    · exact if_neg (by rw [h]; nofun)
  · rfl

end

/-- Settles O38. -/
theorem phaseTimersEndTheirPhases : Obligations.PhaseTimersEndTheirPhases := by
  intro s n d hp p e ms own pressing starting stopping goesOn
  have press : Power.pressing p = true ↔ pressing := by simp [Power.pressing, pressing]
  have onWait : (p.state == .starting && !p.button) = true ↔ starting := by simp [starting]
  have offWait : (p.state == .softStopping && !p.button) = true ↔ stopping := by simp [stopping]
  refine ⟨fun hd => ⟨fun h => ?_, fun h => ?_, fun h => ?_, fun h => ?_, fun h => ?_, fun h => ?_⟩, fun h => ?_, fun h => ?_,
    fun h => ?_, fun h => ?_, fun h => ?_, fun h => ?_, fun h => ?_, fun hd h => ?_⟩
  · refine completes_of_eq (f := (·.phaseEnds n Power.pressing (·.pressEnds n))) rfl hp ?_
    rw [phaseEnds_running hd (press.mpr h), State.pressEnds]
    rcases h with ⟨-, h | h⟩
    · rw [show ((s.reachMs d).pw n).state = .starting from h, show (s.pw n).state = .starting from h]; rfl
    · rw [show ((s.reachMs d).pw n).state = .softStopping from h, show (s.pw n).state = .softStopping from h]; rfl
  · refine EntersOff.ends (f := (·.phaseEnds n (fun p => p.state == .starting && !p.button)
      (fun b => b.enterOff n .onFailed (b.pw n).action))) rfl hp ?_
    rw [phaseEnds_running hd (onWait.mpr h)]
    exact enterOff_enters e n _ _
  · refine EntersOn.ends (f := (·.phaseEnds n (fun p => p.state == .softStopping && !p.button)
      (fun b => b.enterOn n .softOffFailed false false))) rfl hp ?_
    rw [phaseEnds_running hd (offWait.mpr h)]
    have := enterOn_enters e n .softOffFailed false false
    rwa [show (e.pw n).state = .softStopping from h.1] at this
  · refine EntersOn.ends (f := (·.phaseEnds n (fun p => p.state == .hardStopping)
      (fun b => b.enterOn n .hardOffFailed false false))) rfl hp ?_
    rw [phaseEnds_running (applies := fun p => p.state == .hardStopping) hd (beq_iff_eq.mpr h)]
    have := enterOn_enters e n .hardOffFailed false false
    have hs : entryStarts .hardStopping (e.wt n).localStart (e.pw n).action = own := by
      show entryStarts .hardStopping (e.wt n).localStart p.action = _
      dsimp only [own]
      cases p.action <;> rfl
    rwa [show (e.pw n).state = .hardStopping from h, hs] at this
  · refine EntersOn.ends (f := (·.phaseEnds n (fun p => p.state == .resetting)
      (fun b => b.enterOn n .resetDone false true))) rfl hp ?_
    rw [phaseEnds_running (applies := fun p => p.state == .resetting) hd (beq_iff_eq.mpr h)]
    have := enterOn_enters e n .resetDone false true
    rwa [show (e.pw n).state = .resetting from h] at this
  · refine completes_of_eq (f := (·.phaseEnds n (fun p => p.state == .dwelling) (fun b => b.beginStarting n (b.pw n).action))) rfl hp ?_
    rw [phaseEnds_running (applies := fun p => p.state == .dwelling) hd (beq_iff_eq.mpr h)]
    rfl
  · exact completes_of_eq (f := (·.phaseEnds n Power.pressing (·.pressEnds n))) rfl hp
      (phaseEnds_stopped (h.imp_right fun h => Bool.eq_false_iff.mpr (mt press.mp h)))
  · exact completes_of_eq (f := (·.phaseEnds n _ _)) rfl hp
      (phaseEnds_stopped (h.imp_right fun h => Bool.eq_false_iff.mpr (mt onWait.mp h)))
  · exact completes_of_eq (f := (·.phaseEnds n _ _)) rfl hp
      (phaseEnds_stopped (h.imp_right fun h => Bool.eq_false_iff.mpr (mt offWait.mp h)))
  · exact completes_of_eq (f := (·.phaseEnds n _ _)) rfl hp
      (phaseEnds_stopped (h.imp_right fun h => beq_eq_false_iff_ne.mpr h))
  · exact completes_of_eq (f := (·.phaseEnds n _ _)) rfl hp
      (phaseEnds_stopped (h.imp_right fun h => beq_eq_false_iff_ne.mpr h))
  · exact completes_of_eq (f := (·.phaseEnds n _ _)) rfl hp
      (phaseEnds_stopped (h.imp_right fun h => beq_eq_false_iff_ne.mpr h))
  · refine completes_of_eq (f := (·.tickExpires n)) rfl hp ?_
    rw [State.tickExpires]
    split
    · next d hd =>
      rcases h with h | h
      · rw [show p.tick = some d from hd] at h; cases h
      · exact if_neg h
    · rfl
  · refine completes_of_eq (f := (·.tickExpires n)) rfl hp ?_
    rw [State.tickExpires, show (s.pw n).tick = some d from hd]
    exact if_pos h

/-! ## The PGOOD filter (R85, R87, R90 to R94) -/

/-- The read level becomes the filtered level (R85). -/
def State.filtered (s : State) (n : NodeId) : State := s.putPower n { s.pw n with filtered := (s.pw n).read, wait := none }

section
variable (hu : (s.pw n).filtered ≠ .unacquired)

theorem filterDelivers_acquires (h : (s.pw n).filtered = .unacquired) :
    s.filterDelivers n = (s.filtered n).acquired n (s.pw n).read := by
  rw [State.filterDelivers]
  exact if_pos h

include hu

theorem filterDelivers_rises (h : (s.pw n).read = .active) : s.filterDelivers n = (s.filtered n).filteredRise n := by
  rw [State.filterDelivers]
  exact (if_neg hu).trans (if_pos h)

theorem filterDelivers_falls (h : (s.pw n).read = .inactive) : s.filterDelivers n = (s.filtered n).filteredFall n := by
  rw [State.filterDelivers]
  exact (if_neg hu).trans (if_neg (by rw [h]; decide))

end

theorem filterExpires_running {d : Nat} (h : (s.pw n).wait = some d) : s.filterExpires n = (s.reachMs d).filterDelivers n := by
  rw [State.filterExpires, h]

/-- A reported level starts the filter's wait afresh, or stops it (R85). -/
theorem pgoodLevel_eq (s : State) (n : NodeId) (high : Bool) : s.pgoodLevel n high =
    if (s.pw n).raw = high then s else s.putPower n { s.pw n with
      raw := high
      wait := if (s.pw n).filtered ≠ .unacquired ∧
          (if high = (s.pw n).settings.pgoodHigh then Filtered.active else .inactive) = (s.pw n).filtered then none
        else some (s.ms + (s.pw n).settings.filterMs) } := by
  rw [State.pgoodLevel]
  by_cases h : (s.pw n).raw = high
  · rw [if_pos h, h, bne_self_eq_false, Power.rewait_same, ← h]
    exact putPower_self s n
  · rw [if_neg h, show ((s.pw n).raw != high) = true from bne_iff_ne.mpr h, Power.rewait_changed, Power.read_eq]

/-- Settles O37. -/
theorem filteredPowerGoodMovesTheState : Obligations.FilteredPowerGoodMovesTheState := by
  intro s n high d hp p c read e w own rises falls goesOn goesOff
  have hpg : exec (.pgoodLevelChange n high) s = s.whenRunning (·.pgoodLevel n high) := by
    show execPgoodLevelChange n high s = _
    rw [execPgoodLevelChange, if_pos hp]
  refine ⟨fun h => ?_, fun h => ?_, fun h => ?_, fun hd => ?_⟩
  · refine completes_of_eq (f := (·.pgoodLevel n high)) hpg hp ?_
    rw [pgoodLevel_eq]
    exact if_pos h
  · refine completes_of_eq (f := (·.pgoodLevel n high)) hpg hp ?_
    rw [pgoodLevel_eq]
    exact if_neg h
  · refine completes_of_eq (f := (·.filterExpires n)) rfl hp ?_
    rw [State.filterExpires, show (s.pw n).wait = none from h]
  have hread : p.read = read p.raw := Power.read_eq p
  have he : (s.reachMs d).filtered n = e := by
    rw [State.filtered, show ((s.reachMs d).pw n).read = read p.raw from hread]
    rfl
  have hx : s.filterExpires n = (s.reachMs d).filterDelivers n := filterExpires_running hd
  have rise (h : rises) : s.filterExpires n = e.filteredRise n := by
    rw [hx, filterDelivers_rises (s := s.reachMs d) h.1 (hread.trans h.2), he]
  have fall (h : falls) : s.filterExpires n = e.filteredFall n := by
    rw [hx, filterDelivers_falls (s := s.reachMs d) h.1 (hread.trans h.2), he]
  have hpe : e.pw n = { p with filtered := read p.raw, wait := none } := pw_putPower _ n _
  have hse : (e.pw n).state = p.state := by rw [hpe]
  have hae : (e.pw n).action = p.action := by rw [hpe]
  have goOn {ev : PowerEvent} {mark keep starts : Bool} (h : s.filterExpires n = e.enterOn n ev mark keep)
      (hs : entryStarts p.state w.localStart p.action = starts) : goesOn ev mark keep starts := by
    refine EntersOn.ends (f := (·.filterExpires n)) rfl hp ?_
    show EntersOn n ev mark keep starts e (s.filterExpires n)
    rw [h, ← hs, ← hse, ← hae]
    exact enterOn_enters e n ev mark keep
  have goOff {ev : PowerEvent} {act : Option Action} (h : s.filterExpires n = e.enterOff n ev act) : goesOff ev act := by
    refine EntersOff.ends (f := (·.filterExpires n)) rfl hp ?_
    show EntersOff n ev act e (s.filterExpires n)
    rw [h]
    exact enterOff_enters e n ev act
  refine ⟨fun hu hs => ?_, fun h hs => goOn (?_ : _ = e.enterOn n .onDone true true) ?_,
    fun h hs => goOn (?_ : _ = e.enterOn n .cycleInterrupted true true) ?_,
    fun h hs => goOn (?_ : _ = e.enterOn n .startedLocally true false) ?_,
    fun h hs => goOff ?_, fun h hs => goOff ?_, fun h hs hc => goOff ?_, fun h hs hc => ?_, fun h hs => goOff ?_, fun h => ?_⟩
  · have hq : s.filterExpires n = if read p.raw = .active then e.enterOn n .acquired false false else e.enterOff n .acquired none := by
      rw [hx, filterDelivers_acquires (s := s.reachMs d) hu, he, State.acquired, if_pos (hse.trans hs),
        show ((s.reachMs d).pw n).read = read p.raw from hread]
    split
    · next ha => exact goOn (hq.trans (if_pos ha)) (by rw [hs]; rfl)
    · next ha => exact goOff (hq.trans (if_neg ha))
  · rw [rise h, State.filteredRise, hse, hs]
  · rw [hs]; rfl
  · rw [rise h, State.filteredRise, hse, hs]
  · rw [hs]; dsimp only [own]; cases p.action <;> rfl
  · rw [rise h, State.filteredRise, hse, hs]
  · rw [hs]; rfl
  · rw [fall h, State.filteredFall, hse, hs]
  · rw [fall h, State.filteredFall, hse, hs, hae]
  · rw [fall h, State.filteredFall, hse, hs, hae]
    exact if_neg (by rw [hpe]; show ¬p.cycling = true; rw [hc]; nofun)
  · refine completes_of_eq (f := (·.filterExpires n)) rfl hp ?_
    show s.filterExpires n = _
    rw [fall h, State.filteredFall, hse, hs]
    refine (if_pos (by rw [hpe]; exact hc)).trans ?_
    rw [State.beginDwell, hpe]
    rfl
  · rw [fall h, State.filteredFall, hse, hs, hae]
  · refine completes_of_eq (f := (·.filterExpires n)) rfl hp ?_
    show s.filterExpires n = e
    rcases h with ⟨hu, hs⟩ | ⟨h, h1, h2, h3⟩ | ⟨h, h1, h2, h3, h4⟩
    · rw [hx, filterDelivers_acquires (s := s.reachMs d) hu, he, State.acquired]
      exact if_neg (by rw [hse]; exact hs)
    · rw [rise h, State.filteredRise, hse]
      cases hs : p.state <;> simp_all
    · rw [fall h, State.filteredFall, hse]
      cases hs : p.state <;> simp_all

/-! ## CLEAR_HOLD and BOOT_OK (R112, R116) -/

theorem placeOf_nodeByte (n : NodeId) : placeOf (nodeByte n) = some (some n) := by
  revert n; decide

theorem wellFormed_of_node {k : RequestKind} {b : List Byte} (hk : concern k b = some .node) (n : NodeId) :
    wellFormedFor k (nodeByte n) b = some (some n) := by
  rw [wellFormedFor, hk, placeOf_nodeByte]

/-- A request that concerns a node names one of the eight (R7). -/
theorem wellFormed_none {k : RequestKind} {b : List Byte} {node : Byte} (hk : concern k b = some .node) (h : 7 < node.toNat) :
    wellFormedFor k node b = none := by
  have hn : nodeOfByte node = none := dif_neg (by omega)
  rw [wellFormedFor, hk, placeOf, hn]
  by_cases hx : node = 15 <;> simp [hx]

/-- A request of the Power Sequencer or the boot watch, decided in order (R7, R8). -/
theorem Takes.guarded {c : Instr} {h : Head} {kind : Byte} {body : List Byte} {i : StationIx} {k : RequestKind}
    (ha : Takes s c h kind body i) (hk : kindClass kind = .request k) (hc : concern k body = some .node)
    (hr : ∀ s : State, s.permitted i k (some n) body = s.holds i n .power) {effect : Prop}
    (hb : Owned s c h kind body i k (some n) → (body ≠ [] → Answers c s h kind s .badRequest []) ∧ (body = [] → effect)) :
    (7 < h.node.toNat → Answers c s h kind s .badRequest []) ∧
      (h.node = nodeByte n → s.holds i n .power = false → Answers c s h kind s .notPermitted []) ∧
      (h.node = nodeByte n → s.holds i n .power = true →
        (body ≠ [] → Answers c s h kind s .badRequest []) ∧ (body = [] → effect)) := by
  refine ⟨fun hn => ?_, fun hn hp => ?_, fun hn hp => hb ?_⟩
  · exact ha.answers hk (t := s.promise) (by rw [State.decideRequest, wellFormed_none hc hn]; rfl) (.refl _)
  · exact ha.not_permitted hk (hn ▸ wellFormed_of_node hc n) ((hr s).trans hp)
  · exact { ha with request := hk, place := hn ▸ wellFormed_of_node hc n, right := (hr s).trans hp }

theorem takeClearHold_held (h : (s.wt n).state = .held) :
    s.takeClearHold n [] = ⟨s.putWatch n { s.wt n with state := .idle, count := 0, faultHeld := false }, .ok, []⟩ := by
  rw [State.takeClearHold, if_neg (not_not_intro rfl), if_pos h]

theorem takeClearHold_other (h : (s.wt n).state ≠ .held) : s.takeClearHold n [] = s.refuse .noEffect := by
  rw [State.takeClearHold, if_neg (not_not_intro rfl), if_neg h]

theorem takeBootOk_eq (s : State) (i : StationIx) (n : NodeId) :
    ((s.wt n).state = .watching → s.takeBootOk i n [] = ⟨s.satisfy n (.request i), .ok, []⟩) ∧
      ((s.wt n).state = .idle → s.takeBootOk i n [] = s.refuse .noEffect) ∧
      ((s.wt n).state = .held → s.takeBootOk i n [] = s.refuse .wrongState) := by
  rw [State.takeBootOk, if_neg (not_not_intro rfl)]
  exact ⟨fun h => by rw [h], fun h => by rw [h], fun h => by rw [h]⟩

/-- Settles O40. -/
theorem clearHoldAndBootOkActOnTheWatch : Obligations.ClearHoldAndBootOkActOnTheWatch := by
  intro s h bytes body i n w idle guarded
  refine ⟨fun ha => ha.guarded (k := .clearHold) rfl rfl (fun _ => rfl) fun ho => ⟨fun hb => ?_, fun hb => ?_⟩,
    fun ha => ha.guarded (k := .bootOk) rfl rfl (fun _ => rfl) fun ho => ⟨fun hb => ?_, fun hb => ?_⟩⟩
  · exact ho.refused (show s.promise.takeClearHold n body = _ from if_pos hb)
  · subst hb
    split
    · next hw => exact ho.answers_eq (show s.promise.takeClearHold n [] = _ from takeClearHold_held (s := s.promise) hw)
    · next hw => exact ho.refused (show s.promise.takeClearHold n [] = _ from takeClearHold_other (s := s.promise) hw)
  · exact ho.refused (show s.promise.takeBootOk i n body = _ from if_pos hb)
  · subst hb
    obtain ⟨h1, h2, h3⟩ := takeBootOk_eq s.promise i n
    split
    · next hw => exact ho.answers_eq (show s.promise.takeBootOk i n [] = _ from h1 hw)
    · next hw => exact ho.refused (show s.promise.takeBootOk i n [] = _ from h2 hw)
    · next hw => exact ho.refused (show s.promise.takeBootOk i n [] = _ from h3 hw)

/-! ## The watch's failures (R113, R114) -/

section
variable {cause : FailCause}

theorem fail_reported (h : (s.wt n).limit = 0) : s.fail n cause =
    (s.putWatch n { s.wt n with state := .idle, timer := none, count := 0 }).raise (some n) (.bootFailed 0 cause none) := by
  rw [State.fail]
  exact if_pos h

theorem fail_at_limit (h : (s.wt n).limit ≠ 0) (hl : (s.wt n).limit ≤ (s.wt n).count) :
    s.fail n cause = s.holdWatch n (s.wt n).count cause := by
  rw [State.fail]
  exact (if_neg h).trans (if_pos hl)

theorem fail_reaches (hl : (s.wt n).count < (s.wt n).limit) (hr : (s.wt n).count + 1 = (s.wt n).limit ∨ (s.wt n).holdStands = true) :
    s.fail n cause = s.holdWatch n ((s.wt n).count + 1) cause := by
  rw [State.fail]
  exact (if_neg (by omega)).trans ((if_neg (by omega)).trans (if_pos hr))

/-- A failure below the limit, the watch idle at its new count (R114). -/
def State.counted (s : State) (n : NodeId) : State :=
  s.putWatch n { s.wt n with state := .idle, timer := none, count := (s.wt n).count + 1 }

theorem fail_escalates (hl : (s.wt n).count + 1 < (s.wt n).limit) (hr : (s.wt n).holdStands = false) :
    s.fail n cause = ((s.counted n).offerAction n ⟨escalation ((s.wt n).count + 1), .watch, false, none⟩).1.raise (some n)
      (.bootFailed ((s.wt n).count + 1) cause (some (escalation ((s.wt n).count + 1)))) := by
  rw [State.fail]
  exact (if_neg (by omega)).trans ((if_neg (by omega)).trans (if_neg fun h => h.elim (fun h => by omega) fun h => by rw [hr] at h; cases h))

end

theorem escalation_eq (k : Nat) : escalation (k + 1) = if k = 0 then .reset else .cycle := by
  rw [escalation]
  exact if_congr (by omega) rfl rfl

theorem availability_escalation {st : PowerState} (h : st ≠ .on) (k : Nat) : ∃ r, availability (escalation k) st = .refused r := by
  rw [escalation]
  cases st with
  | on => exact absurd rfl h
  | unknown | off | starting | softStopping | hardStopping | resetting | dwelling => split <;> exact ⟨_, rfl⟩

theorem Begins.raise (h : Begins n a p s t) (m : NodeId) (ev : Event) : Begins n a p s (t.raise (some m) ev) := by
  obtain ⟨h1, h2, h3, h4, h5, h6⟩ := h
  exact ⟨h1, h2, h3, h4, h5.trans (raise_node t _ _).elsewhere, h6⟩

section
variable {cause : FailCause} (hl : (s.wt n).count + 1 < (s.wt n).limit) (hr : (s.wt n).holdStands = false)
include hl hr

/-- A failure of a node that is not in ON has no action (R88, R114). -/
theorem fail_alone (hs : (s.pw n).state ≠ .on) : s.fail n cause = (s.counted n).raise (some n)
    (.bootFailed ((s.wt n).count + 1) cause (some (escalation ((s.wt n).count + 1)))) := by
  obtain ⟨r, hx⟩ := availability_escalation hs ((s.wt n).count + 1)
  rw [fail_escalates hl hr, offerAction_refused (s := s.counted n) hx]

/-- A failure of a node in ON begins the watch's own RESET or CYCLE (R114). -/
theorem fail_begins (hs : (s.pw n).state = .on) :
    let a : Action := ⟨escalation ((s.wt n).count + 1), .watch, false, none⟩
    Begins n a ((s.pw n).begun s.ms a) (s.counted n) (s.fail n cause) ∧ UplinkSettled s (s.fail n cause) ∧
      (s.fail n cause).notices = ((s.counted n).raise (some n)
        (.bootFailed ((s.wt n).count + 1) cause (some (escalation ((s.wt n).count + 1))))).notices := by
  intro a
  have hk : a.kind ≠ .powerOn := by
    show escalation _ ≠ _
    rw [escalation]
    split <;> nofun
  have ht : (s.counted n).offerAction n a = (((s.counted n).tellTaken n a).beginAction n a, .ok) :=
    offerAction_taken (by rw [show ((s.counted n).pw n).state = .on from hs]; exact availability_on hk) rfl
  rw [fail_escalates hl hr, ht]
  refine ⟨(taken_begins (s.counted n) n a).raise n _, taken_uplink (s.counted n) n a, ?_⟩
  have hn := taken_notices (s.counted n) n a
  simp only [State.raise, State.putSet, State.pendingSet, hn]

end

theorem holdStands_of_watching (h : (s.wt n).state = .watching) : (s.wt n).holdStands = false := by
  rw [Watch.holdStands, h]
  exact Bool.and_false _

/-- Settles O41. -/
theorem watchExpiryEscalates : Obligations.WatchExpiryEscalates := by
  intro s n d hp c w e held idle act a failed
  refine ⟨fun h => completes_of_eq (f := (·.watchExpires n)) rfl hp ?_, fun hd hs => ?_⟩
  · rw [State.watchExpires]
    split
    · next d hd =>
      rcases h with h | h
      · rw [show w.timer = some d from hd] at h; cases h
      · exact if_neg h
    · rfl
  have hx : s.watchExpires n = e.fail n .expiry := by
    rw [State.watchExpires, show (s.wt n).timer = some d from hd]
    exact if_pos hs
  have hr : (e.wt n).holdStands = false := holdStands_of_watching (s := e) hs
  have done {x : State} (h : e.fail n .expiry = x) : Completes c s x :=
    completes_of_eq (f := (·.watchExpires n)) rfl hp (hx.trans h)
  refine ⟨fun h => done (fail_reported (s := e) h), fun h hl => done (fail_at_limit (s := e) h hl), fun h => done ?_,
    fun hl hs => done ?_, fun hl hs => ?_⟩
  · rw [fail_reaches (s := e) (show w.count < w.limit by omega) (.inl h), ← h]
    rfl
  · rw [fail_alone (s := e) hl hr hs, escalation_eq]
    rfl
  · obtain ⟨h1, h2, h3⟩ := fail_begins (s := e) (cause := .expiry) hl hr hs
    rw [escalation_eq] at h1 h3
    refine ⟨_, exec_running (f := (·.watchExpires n)) rfl hp, ?_⟩
    rw [hx]
    have hf := (finish_settles (e.fail n .expiry)).delivers
    exact ⟨h1.delivers hf, h2.trans hf.uplink, hf.notices_trans (.of_eq h3) h1.su_eq h1.now_eq⟩

/-! ## Actions of completed patterns (R78 to R80, R111, R113) -/

theorem faultReport_aside {i : PatternIx} {off : Offset}
    (h : ¬((s.pw n).state = .on ∧ (s.pw n).action = none ∧ (s.wt n).state ≠ .held)) :
    s.faultReport n i off = s.raise (some n) (.pattern i off) := if_neg h

theorem faultReport_counts {i : PatternIx} {off : Offset}
    (h : (s.pw n).state = .on ∧ (s.pw n).action = none ∧ (s.wt n).state ≠ .held) :
    s.faultReport n i off = s.fail n (.fault i off) := if_pos h

theorem holdStands_iff {w : Watch} : w.holdStands = true ↔ w.faultHeld = true ∧ w.state = .idle := by
  simp [Watch.holdStands]

/-! ### EJECT_MEDIA, by the medium (R80) -/

theorem patternEject_of_empty {i : PatternIx} (h : (s.port n).medium = .empty) : s.patternEject n i = s := by
  rw [State.patternEject, h]

theorem patternEject_of_ejecting {i : PatternIx} {m : MediumRef} {b : Nat} {c : EjectCause}
    (h : (s.port n).medium = .ejecting m b c) : s.patternEject n i = s := by
  rw [State.patternEject, h]

theorem patternEject_of_loading {i : PatternIx} {m : MediumRef} (h : (s.port n).medium = .loading m) :
    s.patternEject n i = if (s.port n).lock then s.raise (some n) (.ejectRefused i) else s.eject n (.pattern i) := by
  rw [State.patternEject, h]

theorem patternEject_of_present {i : PatternIx} {m : MediumRef} {b : Nat} (h : (s.port n).medium = .present m b) :
    s.patternEject n i = if (s.port n).lock then s.raise (some n) (.ejectRefused i) else s.eject n (.pattern i) := by
  rw [State.patternEject, h]

/-- Settles O48. -/
theorem completedPatternsAct : Obligations.CompletedPatternsAct := by
  intro s n off i w noted fault stands counts eject locked
  have fault_eq : fault = if w.faultReboot then s.faultReport n i off else noted := rfl
  have counted (h : counts) : fault = s.fail n (.fault i off) := by
    rw [fault_eq, if_pos h.1, faultReport_counts h.2]
  refine ⟨rfl, rfl, fun h => ?_, fun h hl => ?_, fun h hl hr => ?_, fun h hl hr => ?_, ?_⟩
  · rw [fault_eq]
    split
    · next hf => exact faultReport_aside fun hx => h ⟨hf, hx⟩
    · rfl
  · rw [counted h, fail_reported hl]
  · rw [counted h]
    by_cases hc : w.limit ≤ w.count
    · rw [fail_at_limit hl hc, if_pos hc]
      rfl
    · rw [fail_reaches (Nat.lt_of_not_le hc) (hr.imp (fun h : w.limit ≤ w.count + 1 => by
        show w.count + 1 = w.limit; omega) holdStands_iff.mpr), if_neg hc]
      rfl
  · have hh : (s.wt n).holdStands = false := Bool.eq_false_iff.mpr fun h => hr (holdStands_iff.mp h)
    obtain ⟨h1, h2, h3⟩ := fail_begins (s := s) (cause := .fault i off) hl hh h.2.1
    rw [escalation_eq] at h1 h3
    rw [counted h]
    refine ⟨?_, h1, h2, h3⟩
    exact h1.2.1.trans (wt_putWatch s n _)
  · have hx : eject = s.patternEject n i := rfl
    rw [hx]
    split
    · next hm => exact patternEject_of_empty hm
    · next hm => exact patternEject_of_ejecting hm
    · next hm => exact patternEject_of_loading hm
    · next hm => exact patternEject_of_present hm

end Sys2Proof.Machine
end

section
/-! PROOFS. The obligations about the media port and its block requests (chapters 5 and 7). -/
namespace Sys2Proof.Machine

-- Side by side, the proofs of this text would need more thread stacks than the check's memory limit holds.
set_option Elab.async false

variable {s e t u v : State} {n : NodeId}

/-! ## Requests taken (R121) -/

theorem takesRequest_false (h : (s.port n).attached = false ∨ (s.port n).active.isSome) : s.takesRequest n = false := by
  rw [State.takesRequest]
  rcases h with h | h
  · rw [h]; rfl
  · rw [show (s.port n).active.isNone = false by cases hx : (s.port n).active <;> simp_all]
    exact Bool.and_false _

theorem takesRequest_true (h : (s.port n).attached = true) (ha : (s.port n).active = none) : s.takesRequest n = true := by
  rw [State.takesRequest, h, ha]; rfl

theorem offerRequest_refused (h : (s.port n).attached = false ∨ (s.port n).active.isSome) (f : State → State) :
    s.offerRequest n f = s := if_neg (by rw [takesRequest_false h]; nofun)

theorem offerRequest_taken (h : (s.port n).attached = true) (ha : (s.port n).active = none) (f : State → State) :
    s.offerRequest n f = f s := if_pos (takesRequest_true h ha)

/-- What a port's change of its own leaves, with what free descriptors do. -/
theorem Delivers.port_ends {x : MediaPort} (h : Delivers (s.putPort n x) t) : t.port n = x ∧ t.pw n = s.pw n ∧ t.wt n = s.wt n ∧
    ConsoleKept n s t ∧ ElsewhereKept n s t ∧ UplinkSettled s t ∧ ImagesSettled s t ∧ NoticesSettled s t :=
  ⟨(h.port_eq n).trans (State.port_putPort_same _ _ _), h.pw_eq n, h.wt_eq n, h.console,
    (putPort_node s x).elsewhere.trans h.elsewhere, h.uplink, h.images, h.notices⟩

/-! ## The port's attachment (R96, R120) -/

/-- A port ATTACHED with an indication (R120, R139). -/
def MediaPort.fresh (q : MediaPort) (first : Bool) : MediaPort :=
  { q with
    busPower := true, attached := true, grantBoot := false, bootFirst := first, lock := false, sense := ⟨.none, none⟩,
    active := none, usb := .nothing }

theorem portUpdate_attaches (h : ((s.pw n).granted && (s.port n).busPower) = true) (ha : (s.port n).attached = false) :
    s.portUpdate n = s.putPort n ((s.port n).fresh (s.port n).grantBoot) := by
  have hb : (s.port n).busPower = true := (Bool.and_eq_true_iff.mp h).2
  rw [State.portUpdate, show ((s.power.get n).granted && (s.port n).busPower) = _ from h]
  simp only [ha, Bool.not_false, Bool.and_self, if_true]
  rw [State.portAttach, MediaPort.fresh, ← hb]

theorem portUpdate_same (h : ((s.pw n).granted && (s.port n).busPower) = (s.port n).attached) : s.portUpdate n = s := by
  rw [State.portUpdate, show ((s.power.get n).granted && (s.port n).busPower) = _ from h]
  cases (s.port n).attached <;> rfl

/-- The permission granted (R96, R97, R120, R139). -/
theorem grantPort_eq (h : (s.port n).attached = false) : s.grantPort n =
    (s.putPower n { s.pw n with granted := true, reattach := none, armed := false }).putPort n
      (if (s.port n).busPower then (s.port n).fresh ((s.pw n).armed && (s.port n).medium.isPresent)
        else { s.port n with grantBoot := (s.pw n).armed && (s.port n).medium.isPresent, bootFirst := false }) := by
  let a : State := (s.putPower n { s.pw n with granted := true, reattach := none, armed := false }).putPort n
    { s.port n with grantBoot := (s.pw n).armed && (s.port n).medium.isPresent, bootFirst := false }
  have hq : a.port n = { s.port n with grantBoot := (s.pw n).armed && (s.port n).medium.isPresent, bootFirst := false } :=
    State.port_putPort_same _ _ _
  have hg : (a.pw n).granted = true := congrArg Power.granted (pw_putPower s n _)
  show a.portUpdate n = _
  by_cases hb : (s.port n).busPower = true
  · rw [if_pos hb, portUpdate_attaches (by rw [hg, hq]; exact hb) (by rw [hq]; exact h), hq, putPort_putPort]
    rfl
  · rw [if_neg hb, portUpdate_same (by rw [hg, hq, Bool.true_and, h]; simpa using hb)]

/-- Bus power lost at an attached port (R120). -/
theorem setBusPower_detaches (h : (s.port n).attached = true) :
    PoolWork (s.putPort n { (s.port n).withdrawn (s.outstanding n) with busPower := false, grantBoot := (s.port n).grantBoot })
      (s.setBusPower n false) := by
  have hw := portUpdate_detach_works (s.putPort n { s.port n with busPower := false }) n (by
    rw [State.port_putPort_same]; exact Bool.and_false _)
  rw [State.port_putPort_same, putPort_putPort, if_pos h] at hw
  rw [MediaPort.withdrawn, if_pos h]
  exact hw

/-- An active request aborted (R121). -/
theorem abortRequest_works (h : (s.port n).attached = true) (ha : (s.port n).active.isSome) :
    PoolWork (s.putPort n { (s.port n).dropped (s.outstanding n) with sense := ⟨.aborted, none⟩, usb := .nothing })
      (s.abortRequest n) := by
  have hx := dropActive_putPort s n { (s.port n).dropped (s.outstanding n) with sense := ⟨.aborted, none⟩, usb := .nothing }
  have hp : (s.dropActive n).port n = (s.port n).dropped (s.outstanding n) := by
    rw [port_dropActive, if_pos ha]
    exact State.port_putPort_same _ _ _
  rw [State.abortRequest, h, Bool.true_and, if_pos ha, State.putSense, State.give, hp, State.port_putPort_same, putPort_putPort]
  exact hx

/-- Settles O39. -/
theorem portAttachesDetachesAndAborts : Obligations.PortAttachesDetachesAndAborts := by
  refine ⟨fun s n hp => ?_, fun s n d hp law => ?_⟩
  · intro p c
    refine ⟨fun h x hx => ?_, fun h ha => ?_⟩
    · simp only [c, List.mem_cons, List.not_mem_nil, or_false] at hx
      rcases hx with rfl | rfl | rfl | rfl | rfl | rfl | rfl <;>
        exact completes_of_eq (f := (·.offerRequest n _)) rfl hp (offerRequest_refused h _)
    · refine completes_of_eq (f := (·.offerRequest n _)) rfl hp ((offerRequest_taken h ha _).trans ?_)
      rw [State.status, State.putSense, State.give, State.port_putPort_same, putPort_putPort]
  obtain ⟨-, hre, hatt, hact, -⟩ := law n
  intro p q boot fresh ends
  have hbus (on : Bool) : exec (.busPowerChange n on) s = s.whenRunning (·.setBusPower n on) := by
    show execBusPowerChange n on s = _
    rw [execBusPowerChange, if_pos hp]
  refine ⟨fun h => completes_of_eq (f := (·.reattachExpires n)) rfl hp ?_,
    fun h => completes_of_eq (f := (·.reattachExpires n)) rfl hp ?_,
    completes_of_eq (f := (·.setBusPower n true)) (hbus true) hp ?_,
    fun h => completes_of_eq (f := (·.setBusPower n false)) (hbus false) hp ?_, fun h => ?_,
    fun h => completes_of_eq (f := (·.abortRequest n)) rfl hp ?_, fun h => ?_⟩
  · rw [State.reattachExpires, show (s.pw n).reattach = none from h]
  · rw [State.reattachExpires, show (s.pw n).reattach = some d from h]
    have hgr : (s.pw n).granted = false := (hre (by rw [h]; rfl)).1
    exact grantPort_eq (s := s.reachMs d) (by rw [show ((s.reachMs d).port n).attached = _ from hatt, hgr]; rfl)
  · show (s.putPort n { q with busPower := true }).portUpdate n = _
    have hq : (s.putPort n { q with busPower := true }).port n = { q with busPower := true } := State.port_putPort_same _ _ _
    by_cases hg : p.granted = true
    · by_cases ha : q.attached = true
      · rw [portUpdate_same (by rw [hq]; show (p.granted && true) = q.attached; rw [hg, ha]; rfl), if_neg (by rw [ha]; rintro ⟨-, h⟩; cases h)]
      · have ha' : q.attached = false := by simpa using ha
        rw [portUpdate_attaches (by rw [hq]; show (p.granted && true) = true; rw [hg]; rfl) (by rw [hq]; exact ha'), if_pos ⟨hg, ha'⟩, hq,
          putPort_putPort]
        rfl
    · have hg' : p.granted = false := by simpa using hg
      have ha : q.attached = false := by rw [hatt]; show (p.granted && _) = false; rw [hg']; rfl
      rw [portUpdate_same (by rw [hq]; show (p.granted && true) = q.attached; rw [hg', ha]; rfl), if_neg (fun h => hg h.1)]
  · exact portUpdate_same (s := s.putPort n { q with busPower := false }) (by
      rw [State.port_putPort_same]; exact (Bool.and_false _).trans h.symm)
  · exact ⟨_, exec_running (hbus false) hp, ((setBusPower_detaches h).delivers.trans (finish_settles _).delivers).port_ends⟩
  · rw [State.abortRequest]
    exact if_neg (by rw [show (s.port n).active = none from h]; simp)
  · exact ⟨_, exec_running (f := (·.abortRequest n)) rfl hp,
      ((abortRequest_works (hact h) h).delivers.trans (finish_settles _).delivers).port_ends⟩

end Sys2Proof.Machine
end

section
/-! PROOFS. The obligation about the escape recognizer (R62 to R65, R88). -/
namespace Sys2Proof.Machine

-- Side by side, the proofs of this text would need more thread stacks than the check's memory limit holds.
set_option Elab.async false

variable {s e t u v : State} {n : NodeId} {i : StationIx} {a : Attachment} {xs : List TxItem} {b : Byte}

/-! ## What a message makes of the attachment and the line -/

theorem gave_withAtt (s : State) (n : NodeId) (a : Attachment) (e : Option Nat) :
    s.gave n a e [] = s.withAtt n { a with lease := s.leaseDeadline, escape := e } := by
  rw [State.gave, Line.given_nil]
  exact State.putLine_self _ n

theorem putAtt_without (t : Stream) {b : Attachment} (h : b.station = i) : (t.putAtt b).without i = t.without i := by
  have hf : (t.putAtt b).atts.filter (fun c => c.station ≠ i) = t.atts.filter (fun c => c.station ≠ i) := by
    rw [Stream.putAtt, h]
    induction t.atts with
    | nil => rfl
    | cons x xs ih => by_cases hx : x.station = i <;> simpa [hx, h] using ih
  simp only [Stream.without, hf]
  rfl

/-- The removal of the attachment of a message's sender (R56, R64). -/
theorem gave_detach_settles (h : (s.streams.get n).att i = some a) (e : Option Nat) (xs : List TxItem) :
    Settles ((s.putStream n ((s.streams.get n).without i)).putLine n ((s.lines.get n).given s.now xs)) ((s.gave n a e xs).detach n i) := by
  have hd := detach_settles (gave_att e xs h)
  rw [gave_stream, putAtt_without _ (by exact (mem_of_att h).2)] at hd
  have he : (s.gave n a e xs).putStream n ((s.streams.get n).without i) =
      (s.putStream n ((s.streams.get n).without i)).putLine n ((s.lines.get n).given s.now xs) := by
    simp only [State.gave, State.withAtt, State.putStream, State.putLine, Tab.put_put]
  rwa [he] at hd

/-- The room a line has for its next items, as its queue tells it (R39). -/
theorem room_of_queue {l : Line} (hl : l.inBounds) {k : Nat} (hk : 0 < k) (h2 : k ≤ 2) : l.txQueue.length + k ≤ 256 ↔ k ≤ l.room := by
  have := l.given_room hl 0 k [] hk h2
  rwa [Line.given_nil, List.length_nil, Nat.zero_add] at this

theorem room_of_items {l : Line} {k : Nat} (h : l.txQueue.length + k ≤ 256) : k ≤ l.room := by
  rw [Line.room]
  omega

theorem room_of_full {l : Line} (hi : l.transmitter ≠ .idle) {k : Nat} (h : l.txQueue.length + k = 256) : l.room = k := by
  rw [Line.room, if_neg hi]
  omega

/-! ## The commands (R64) -/

/-- What a RESET or CYCLE typed by station `i` is refused with (R88, R65). -/
def State.escapeRefusal (s : State) (i : StationIx) (n : NodeId) : Result :=
  if s.holds i n .power = false then .notPermitted else if (s.pw n).state = .off then .wrongState else .busy

theorem availability_rebooting {k : ActionKind} (hk : k = .reset ∨ k = .cycle) {st : PowerState} (h : st ≠ .on) :
    availability k st = .refused (if st = .off then .wrongState else .busy) := by
  cases st with
  | on => exact absurd rfl h
  | unknown | off | starting | softStopping | hardStopping | resetting | dwelling => rcases hk with rfl | rfl <;> rfl

theorem escapeAction_refused {k : ActionKind} (hk : k = .reset ∨ k = .cycle)
    (h : s.holds i n .power = true → (s.pw n).state ≠ .on) :
    s.escapeAction i n k = ⟨s, some (.refused (s.escapeRefusal i n)), false⟩ := by
  rw [State.escapeAction, State.escapeRefusal]
  by_cases hp : s.holds i n .power = true
  · have hr := availability_rebooting hk (h hp)
    simp only [hp, Bool.not_true, Bool.false_eq_true, if_false, Bool.true_eq_false]
    rw [offerAction_refused (a := ⟨k, .escape i, false, none⟩) hr]
    split <;> rfl
  · have hp' : s.holds i n .power = false := by simpa using hp
    simp only [hp', Bool.not_false, if_true]

theorem escapeAction_taken {k : ActionKind} (hk : k ≠ .powerOn) (hp : s.holds i n .power = true) (h : (s.pw n).state = .on) :
    s.escapeAction i n k =
      ⟨(s.tellTaken n ⟨k, .escape i, false, none⟩).beginAction n ⟨k, .escape i, false, none⟩, some .taken, false⟩ := by
  rw [State.escapeAction]
  simp only [hp, Bool.not_true, Bool.false_eq_true, if_false]
  rw [offerAction_taken (a := ⟨k, .escape i, false, none⟩) (by rw [h]; exact availability_on hk) rfl]
  rfl

/-- The byte of a RESET or a CYCLE (R64). -/
def actionByte (k : ActionKind) : Byte := if k = .reset then 0x72 else 0x63

theorem typeCommand_action {d : Nat} (h : (s.streams.get n).att i = some a) {k : ActionKind} (hk : k = .reset ∨ k = .cycle)
    (he : (s.streams.get n).settings.escapeByte ≠ actionByte k) :
    (s.gave n a (some d) xs).typeCommand i n (actionByte k) = some ((s.gave n a none xs).escapeAction i n k) := by
  rw [State.typeCommand]
  simp only [gave_stream, putAtt_settings]
  rw [gave_setEscape _ _ h]
  rcases hk with rfl | rfl
  · exact (if_neg (Ne.symm he)).trans rfl
  · exact (if_neg (Ne.symm he)).trans rfl

theorem typeCommand_detach {d : Nat} (h : (s.streams.get n).att i = some a)
    (he : (s.streams.get n).settings.escapeByte ≠ 0x64) :
    (s.gave n a (some d) xs).typeCommand i n 0x64 = some ⟨(s.gave n a none xs).detach n i, some .taken, true⟩ := by
  rw [State.typeCommand]
  simp only [gave_stream, putAtt_settings]
  rw [gave_setEscape _ _ h]
  exact (if_neg (Ne.symm he)).trans rfl

/-- No room for what the byte after a held one spells (R64). -/
theorem typeCommand_full {d : Nat} (h : (s.streams.get n).att i = some a) (hl : (s.lines.get n).inBounds)
    (hr : (s.lines.get n).room ≤ xs.length)
    (hb : b = (s.streams.get n).settings.escapeByte ∨ b ∉ ([0x72, 0x63, 0x64] : List Byte)) :
    (s.gave n a (some d) xs).typeCommand i n b = none := by
  by_cases he : b = (s.streams.get n).settings.escapeByte
  · subst he
    rw [typeCommand_again h hl, if_neg (by omega)]
  · have hn := hb.resolve_left he
    by_cases hk : b = 0x62
    · subst hk
      rw [typeCommand_break h hl (Ne.symm he), if_neg (by omega)]
    · rw [typeCommand_other h hl (List.not_mem_cons_of_ne_of_not_mem he (List.not_mem_cons_of_ne_of_not_mem hk hn)), if_neg (by omega)]

/-! ## Messages (R62, R65) -/

theorem typeBytes_stopped {m : State} {r : Typed} {k : Nat} {e : EscapeResult} {bs : List Byte} (h : m.typeByte i n b = some r)
    (hs : r.stop = true) : m.typeBytes i n k e (b :: bs) = ⟨r.state, k + 1, r.command.getD e⟩ := by
  simp only [State.typeBytes, h, hs, if_true]

section
variable {c : Instr} {h : Head} {body : List Byte} {k : Nat} {r : EscapeResult}

theorem owner_typed (hs : (s.streams.get n).att i = some a)
    (hm : a.mode = .typing) (hb : body ≠ []) (hl : body.length ≤ 1024)
    (hx : (s.promise.gave n a a.escape []).typeBytes i n 0 .none body = ⟨t, k, r⟩) :
    s.promise.owner i .consoleInput (some n) h.node body =
      ⟨t, if k = body.length then .ok else .partialTaken, be 2 k ++ r.bytes⟩ := by
  show s.promise.takeInput i n body = _
  rw [takeInput_typing (s := s.promise) hb hl hs hm, typeMessage_eq hx]

/-- A message answered with what its bytes did (R65). -/
theorem Owned.message (ho : Owned s c h 0x07 body i .consoleInput (some n)) (hs : (s.streams.get n).att i = some a)
    (hm : a.mode = .typing) (hb : body ≠ []) (hl : body.length ≤ 1024)
    (hx : (s.promise.gave n a a.escape []).typeBytes i n 0 .none body = ⟨t, k, r⟩) (he : Settles e.promise t) :
    Answers c s h 0x07 e (if k = body.length then .ok else .partialTaken) (be 2 k ++ r.bytes) :=
  ho.answers (owner_typed hs hm hb hl hx) he

/-- A message that begins an action (R64, R90 to R93). -/
theorem Owned.message_begins (ho : Owned s c h 0x07 body i .consoleInput (some n)) (hs : (s.streams.get n).att i = some a)
    (hm : a.mode = .typing) (hb : body ≠ []) (hl : body.length ≤ 1024) {x : Action}
    (hx : (s.promise.gave n a a.escape []).typeBytes i n 0 .none body =
      ⟨((s.promise.gave n a none xs).tellTaken n x).beginAction n x, k, r⟩) (hk : k = body.length) :
    ∃ u, exec c s = .next u ∧ Begins n x ((s.pw n).begun s.ms x) (s.gave n a none xs) u ∧
      UplinkSettled (s.withAnswer h 0x07 .ok (be 2 k ++ r.bytes)) u ∧ NoticesSettled s u := by
  have hd := owner_typed (h := h) hs hm hb hl hx
  rw [if_pos hk] at hd
  obtain ⟨u, hu, hv⟩ := ho.ends hd
  have hb := taken_begins (s.promise.gave n a none xs) n x
  obtain ⟨h1, h2⟩ := hb.answered (e := s.gave n a none xs) hv (taken_uplink (s.promise.gave n a none xs) n x)
  refine ⟨u, hu, h1, h2, ?_⟩
  exact NoticesSettled.answered (e := s) (.of_eq (taken_notices (s.promise.gave n a none xs) n x)) hb.su_eq hb.now_eq hv

end

/-- One byte that is taken, alone (R65). -/
theorem typeBytes_one {m : State} {r : Typed} {k : Nat} {x : EscapeResult} (h : m.typeByte i n b = some r) :
    m.typeBytes i n k x [b] = ⟨r.state, k + 1, r.command.getD x⟩ := by
  cases hs : r.stop with
  | true => exact typeBytes_stopped h hs
  | false => exact typeBytes_taken h hs

section
variable {c : Instr} {h : Head}

/-- A message of one byte that is taken (R65). -/
theorem Owned.byte_taken (ho : Owned s c h 0x07 [b] i .consoleInput (some n)) (hs : (s.streams.get n).att i = some a)
    (hm : a.mode = .typing) {r : Typed} (hx : (s.promise.gave n a a.escape []).typeByte i n b = some r)
    (hse : Settles e.promise r.state) : Answers c s h 0x07 e .ok ([0, 1] ++ (r.command.getD .none).bytes) :=
  ho.message hs hm (List.cons_ne_nil b []) (Nat.le_add_left 1 1023) (typeBytes_one hx) hse

/-- A message of one byte that is not taken (R65). -/
theorem Owned.byte_refused (ho : Owned s c h 0x07 [b] i .consoleInput (some n)) (hs : (s.streams.get n).att i = some a)
    (hm : a.mode = .typing) (hx : (s.promise.gave n a a.escape []).typeByte i n b = none) :
    Answers c s h 0x07 (s.gave n a a.escape []) .partialTaken [0, 0, 0, 0] :=
  ho.message (e := s.gave n a a.escape []) hs hm (List.cons_ne_nil b []) (Nat.le_add_left 1 1023) (typeBytes_refused hx) (.refl _)

/-- A message of one byte that gives the line items, or that is not taken where they do not fit (R64, R65). -/
theorem Owned.byte_offers (ho : Owned s c h 0x07 [b] i .consoleInput (some n)) (hs : (s.streams.get n).att i = some a)
    (hm : a.mode = .typing) (hl : (s.lines.get n).inBounds) {ys : List TxItem} {r : Option EscapeResult} (hk : 0 < ys.length)
    (h2 : ys.length ≤ 2) (hx : (s.promise.gave n a a.escape []).typeByte i n b =
      if ys.length ≤ (s.lines.get n).room then some ⟨s.promise.gave n a none ys, r, false⟩ else none) :
    if (s.lines.get n).txQueue.length + ys.length ≤ 256 then
      Answers c s h 0x07 (s.gave n a none ys) .ok ([0, 1] ++ (r.getD .none).bytes)
    else Answers c s h 0x07 (s.gave n a a.escape []) .partialTaken [0, 0, 0, 0] := by
  have hq := room_of_queue hl hk h2
  split
  · next hr =>
    rw [if_pos (hq.mp hr)] at hx
    exact ho.byte_taken (e := s.gave n a none ys) hs hm hx (.refl _)
  · next hr =>
    rw [if_neg (mt hq.mpr hr)] at hx
    exact ho.byte_refused hs hm hx

end

theorem refusal_code (s : State) (i : StationIx) (n : NodeId) : (s.escapeRefusal i n).code =
    if s.holds i n .power = false then 7 else if (s.pw n).state = .off then 6 else 4 := by
  rw [State.escapeRefusal]
  split
  · rfl
  · split <;> rfl

/-- A RESET or CYCLE typed alone (R64, R88). -/
theorem Owned.byte_acts {c : Instr} {h : Head} {k : ActionKind} (hk : k = .reset ∨ k = .cycle)
    (ho : Owned s c h 0x07 [actionByte k] i .consoleInput (some n)) (hs : (s.streams.get n).att i = some a) (hm : a.mode = .typing)
    {d : Nat} (hd : a.escape = some d) (he : (s.streams.get n).settings.escapeByte ≠ actionByte k) :
    ((s.holds i n .power = true → (s.pw n).state ≠ .on) →
      Answers c s h 0x07 (s.gave n a none []) .ok ([0, 1] ++ [2, (s.escapeRefusal i n).code])) ∧
    (s.holds i n .power = true → (s.pw n).state = .on → ∃ u, exec c s = .next u ∧
      Begins n ⟨k, .escape i, false, none⟩ ((s.pw n).begun s.ms ⟨k, .escape i, false, none⟩) (s.gave n a none []) u ∧
      UplinkSettled (s.withAnswer h 0x07 .ok [0, 1, 1, 0]) u ∧ NoticesSettled s u) := by
  have hx : (s.promise.gave n a a.escape []).typeByte i n (actionByte k) =
      some ((s.promise.gave n a none []).escapeAction i n k) := by
    rw [hd, typeByte_command (s := s.promise) hs]
    exact typeCommand_action (s := s.promise) hs hk he
  refine ⟨fun hr => ?_, fun hp hs' => ?_⟩
  · rw [escapeAction_refused (s := s.promise.gave n a none []) hk hr] at hx
    exact ho.byte_taken (e := s.gave n a none []) hs hm hx (.refl _)
  · have hn : k ≠ .powerOn := by rintro rfl; exact hk.elim nofun nofun
    rw [escapeAction_taken (s := s.promise.gave n a none []) hn hp hs'] at hx
    exact ho.message_begins hs hm (List.cons_ne_nil _ []) (Nat.le_add_left 1 1023) (typeBytes_one hx) rfl

theorem windowExpires_held {d : Nat} (h : (s.streams.get n).att i = some a) (hd : a.escape = some d) :
    s.windowExpires n i =
      ((s.reachMs d).withAtt n { a with escape := none }).releaseByte n (s.streams.get n).settings.escapeByte := by
  rw [State.windowExpires, h]
  simp only [Option.bind_some, hd]
  rw [State.setEscape, show ((s.reachMs d).streams.get n).att i = some a from h]
  rfl

/-- Settles O31. -/
theorem escapeCommandsAct : Obligations.EscapeCommandsAct := by
  intro s h bytes i n a b d pre post items more brk later c t l lease window withEscape esc command typed acts hs
  have plain (e : Option Nat) : s.gave n a e [] = withEscape e := gave_withAtt s n a e
  refine ⟨fun ho hm law => ?_, fun hm he law hsp => ?_, ?_⟩
  · have hin : (s.lines.get n).inBounds := (lineLaw_iff.mp law n).1
    have offers {ys : List TxItem} {r : Option EscapeResult} (hk : 0 < ys.length) (h2 : ys.length ≤ 2)
        (hx : (s.promise.gave n a a.escape []).typeByte i n b =
          if ys.length ≤ (s.lines.get n).room then some ⟨s.promise.gave n a none ys, r, false⟩ else none) :
        typed ys (r.getD .none).bytes := by
      have := ho.byte_offers hs hm hin hk h2 hx
      rw [plain] at this
      exact this
    have commanded {d : Nat} (hd : a.escape = some d) :
        (s.promise.gave n a a.escape []).typeByte i n b = (s.promise.gave n a (some d) []).typeCommand i n b := by
      rw [hd]
      exact typeByte_command (s := s.promise) hs
    have acted {k : ActionKind} (hk : k = .reset ∨ k = .cycle) (hh : a.escape.isSome) (hb : b = actionByte k)
        (hb' : actionByte k ≠ esc) : acts k := by
      obtain ⟨d, hd⟩ := Option.isSome_iff_exists.mp hh
      subst hb
      obtain ⟨h1, h2⟩ := ho.byte_acts hk hs hm hd (Ne.symm hb')
      rw [plain, refusal_code] at h1
      rw [plain] at h2
      refine ⟨fun hp => ?_, fun hp => ⟨fun h0 => ?_, fun h0 => ?_, h2 hp⟩⟩
      · rw [if_pos hp] at h1
        exact h1 fun h => by rw [hp] at h; cases h
      · rw [if_neg (by rw [hp]; nofun), if_pos h0] at h1
        exact h1 fun _ h => by rw [h0] at h; cases h
      · have hoff : (s.pw n).state ≠ .off := by rintro h; rw [h] at h0; exact h0.elim nofun nofun
        rw [if_neg (by rw [hp]; nofun), if_neg hoff] at h1
        exact h1 fun _ h => by rw [h] at h0; exact h0.elim nofun nofun
    refine ⟨fun hn hb => ?_, fun hh hb => ?_, fun hh hb hb' => ?_, fun hh hb hb' => acted (.inl rfl) hh hb' (Eq.trans_ne hb'.symm hb),
      fun hh hb hb' => acted (.inr rfl) hh hb' (Eq.trans_ne hb'.symm hb), fun hh hb hb' => ?_, fun hh hb => ?_⟩
    · subst hb
      rw [← plain]
      exact ho.byte_taken (e := s.gave n a (some window) []) hs hm (by rw [hn]; exact typeByte_hold (s := s.promise) hs) (.refl _)
    · obtain ⟨d, hd⟩ := Option.isSome_iff_exists.mp hh
      subst hb
      exact offers (r := none) Nat.one_pos (Nat.le_succ 1) ((commanded hd).trans (typeCommand_again (s := s.promise) hs hin))
    · obtain ⟨d, hd⟩ := Option.isSome_iff_exists.mp hh
      subst hb'
      exact offers (r := some .taken) Nat.one_pos (Nat.le_succ 1)
        ((commanded hd).trans (typeCommand_break (s := s.promise) hs hin (Ne.symm hb)))
    · obtain ⟨d, hd⟩ := Option.isSome_iff_exists.mp hh
      subst hb'
      have hx := (commanded hd).trans (typeCommand_detach (s := s.promise) hs (Ne.symm hb))
      have hset := gave_detach_settles (s := s.promise) hs none []
      rw [Line.given_nil] at hset
      have hself : (s.promise.putStream n ((s.promise.streams.get n).without i)).putLine n (s.promise.lines.get n) =
          s.promise.putStream n ((s.promise.streams.get n).without i) := State.putLine_self _ n
      rw [hself] at hset
      exact ho.byte_taken (e := s.putStream n (t.without i)) hs hm hx hset
    · obtain ⟨d, hd⟩ := Option.isSome_iff_exists.mp hh
      exact offers (r := none) (ys := [.byte esc, .byte b]) Nat.two_pos (Nat.le_refl 2)
        ((commanded hd).trans (typeCommand_other (s := s.promise) hs hin hb))
  · have hin : (s.lines.get n).inBounds := (lineLaw_iff.mp law n).1
    intro message result count give acting act refusal
    have spelled (rest : List Byte) (hr : items.length ≤ (s.lines.get n).room) :
        (s.promise.gave n a a.escape []).typeBytes i n 0 .none (pre ++ rest) =
          (s.promise.gave n a none items).typeBytes i n pre.length (if brk then .taken else .none) rest := by
      have := typeBytes_spells (s := s.promise) (xs := []) (k := 0) (r := .none) (post := rest) hs hin hsp
        (by rw [List.length_nil, Nat.zero_add]; exact hr)
      rw [Nat.zero_add, List.nil_append] at this
      rw [he]
      exact this
    have bytes_eq : (if brk then EscapeResult.taken else .none).bytes = result brk := by cases brk <;> rfl
    have held {k : Nat} {r : EscapeResult} {rest : List Byte} {x : TypedAll}
        (h : (s.promise.gave n a (some window) items).typeBytes i n (k + 1) r rest = x) :
        (s.promise.gave n a none items).typeBytes i n k r (esc :: rest) = x :=
      (typeBytes_taken (typeByte_hold (s := s.promise) hs) rfl).trans h
    have hkn : act.kind ≠ .powerOn := by dsimp only [act]; split <;> nofun
    have rebooting (h : acting) : (act.kind = .reset ∨ act.kind = .cycle) ∧ b = actionByte act.kind ∧ esc ≠ actionByte act.kind := by
      obtain ⟨hne, hb⟩ := h
      have hb' : b = actionByte act.kind := by
        dsimp only [act]
        rcases hb with rfl | rfl <;> rfl
      exact ⟨by dsimp only [act]; split <;> simp, hb', hb' ▸ Ne.symm hne⟩
    refine ⟨fun hq => ?_, fun hpost hq ho hact hx => ?_⟩
    · have hr := room_of_items hq
      refine ⟨fun ho hb => ?_, fun ho => ?_, fun ho hx => ?_, fun ho hact hp hon => ?_, fun hidle hfull => ⟨fun ho hb => ?_, fun ho hb => ?_⟩⟩
      · have hx := spelled [] hr
        rw [List.append_nil] at hx
        have := ho.1.message (e := s.gave n a none items) hs hm hb ho.2 hx (.refl _)
        rwa [if_pos rfl, bytes_eq] at this
      · have hx := (spelled [esc] hr).trans (typeBytes_one (typeByte_hold (s := s.promise) hs))
        have := ho.1.message (e := s.gave n a (some window) items) hs hm (by simp) ho.2 hx (.refl _)
        rw [if_pos (by rw [List.length_append]; rfl)] at this
        rw [← bytes_eq]
        exact this
      · have hx := (spelled (esc :: 0x64 :: post) hr).trans (held (typeBytes_stopped (typeByte_command (s := s.promise) hs ▸
          typeCommand_detach (s := s.promise) hs hx) rfl))
        have := ho.1.message (e := (s.putStream n (t.without i)).putLine n (l.given s.now items)) hs hm (by simp) ho.2 hx (gave_detach_settles (s := s.promise) hs none items)
        rwa [show (if pre.length + 1 + 1 = (pre ++ esc :: 0x64 :: post).length then Result.ok else .partialTaken) =
          if post = [] then .ok else .partialTaken from if_congr (by
            rw [List.length_append, List.length_cons, List.length_cons, ← List.length_eq_zero_iff]; omega) rfl rfl] at this
      · obtain ⟨hk, hb, hbe⟩ := rebooting hact
        have hc := typeCommand_action (s := s.promise) (xs := items) (d := window) hs hk hbe
        rw [escapeAction_taken (s := s.promise.gave n a none items) hkn hp hon, ← hb, ← typeByte_command (s := s.promise) hs] at hc
        have hx := (spelled [esc, b] hr).trans (held (typeBytes_one hc))
        exact ho.1.message_begins hs hm (by simp) ho.2 hx (by rw [List.length_append]; rfl)
      · have hf := room_of_full hidle hfull
        have hn := typeByte_plain (s := s.promise) (xs := items) hs hin hb
        rw [if_neg (by rw [show (s.promise.lines.get n).room = _ from hf]; omega)] at hn
        have hx := (spelled (b :: post) hr).trans (typeBytes_refused hn)
        have := ho.1.message (e := s.gave n a none items) hs hm (by simp) ho.2 hx (.refl _)
        rwa [if_neg (by simp), bytes_eq] at this
      · have hf := room_of_full hidle hfull
        have hn := typeCommand_full (s := s.promise) (xs := items) (d := window) hs hin (Nat.le_of_eq hf) hb
        rw [← typeByte_command (s := s.promise) hs] at hn
        have hx := (spelled (esc :: b :: post) hr).trans (held (typeBytes_refused hn))
        have := ho.1.message (e := s.gave n a (some window) items) hs hm (by simp) ho.2 hx (.refl _)
        rwa [if_neg (by simp), bytes_eq] at this
    · have hr : items.length + more.length ≤ (s.lines.get n).room :=
        room_of_items (by rw [← Nat.add_assoc]; exact hq)
      obtain ⟨hk, hb, hbe⟩ := rebooting hact
      have hc := typeCommand_action (s := s.promise) (xs := items) (d := window) hs hk hbe
      rw [escapeAction_refused (s := s.promise.gave n a none items) hk hx, ← hb, ← typeByte_command (s := s.promise) hs] at hc
      have hx := (spelled (esc :: b :: post) (Nat.le_of_add_right_le hr)).trans (held (typeBytes_taken hc rfl))
      have hp := typeBytes_spells (s := s.promise) (xs := items) (k := pre.length + 1 + 1) (post := [])
        (r := .refused (s.escapeRefusal i n)) hs hin hpost hr
      rw [List.append_nil] at hp
      have := ho.1.message (e := s.gave n a none (items ++ more)) hs hm (by simp) ho.2 (hx.trans hp) (.refl _)
      have hbytes : (if later then EscapeResult.taken else .refused (s.escapeRefusal i n)).bytes =
          if later then [1, 0] else [2, refusal] := by
        cases later
        · exact congrArg (fun x => [2, x]) (refusal_code s i n)
        · rfl
      rw [if_pos (by simp; omega), show pre.length + 1 + 1 + post.length = pre.length + (2 + post.length) by omega] at this
      rw [← hbytes]
      exact this
  · intro c hp law
    refine ⟨fun h => completes_of_eq (f := (·.windowExpires n i)) rfl hp ?_,
      fun h => completes_of_eq (f := (·.windowExpires n i)) rfl hp ?_⟩
    · rw [State.windowExpires, show (s.streams.get n).att i = some a from hs]
      simp only [Option.bind_some, show a.escape = none from h]
    · show s.windowExpires n i = _
      rw [windowExpires_held hs h, State.releaseByte]
      obtain ⟨-, -, -, -, -, -, -, -, hi⟩ := (lineLaw_iff.mp law n).1
      by_cases hq : l.txQueue.length < 256
      · rw [if_pos ((txRoom_iff _).mpr hq), if_pos hq]
        exact sendItems_eq_given (s := (s.reachMs d).withAtt n { a with escape := none }) hi
      · rw [if_neg (mt (txRoom_iff _).mp hq), if_neg hq]
        rfl

end Sys2Proof.Machine
end

section
/-! PROOFS. The obligation about the stop sample: characters handed on and judged (R29 to R37, R77). -/
namespace Sys2Proof.Machine

-- Side by side, the proofs of this text would need more thread stacks than the check's memory limit holds.
set_option Elab.async false

variable {s e t u : State} {n : NodeId}

/-! ## Effects that stand where a batch has taken entries -/

theorem Settles.putStream (h : Settles e t) (n : NodeId) {x y : Stream} (hx : StreamSettled x y) :
    Settles (e.putStream n x) (t.putStream n y) := by
  obtain ⟨hd, hp, hf⟩ := h
  rw [delivers_iff] at hd
  obtain ⟨h1, h2, h3, h4, h5⟩ := hd
  refine ⟨delivers_iff.mpr ⟨h1, fun m => ?_, h3, h4, h5⟩, hp, hf⟩
  rw [State.putStream_streams, State.putStream_streams, Tab.get_put, Tab.get_put]
  split
  · exact hx
  · exact h2 m

theorem Settles.putLine (h : Settles e t) (n : NodeId) (l : Line) : Settles (e.putLine n l) (t.putLine n l) :=
  ⟨h.1.putLine n l, h.2⟩

/-- An entry that a ring with room takes, it takes where batches have made more room (R47). -/
theorem StreamSettled.offered {x y : Stream} (h : StreamSettled x y) (hr : x.ring.length < 1024) (k : EntryKind) (d : Nat) :
    StreamSettled (x.offered k d) (y.offered k d) := by
  obtain ⟨h1, h2, h3, h4, h5, h6, h7, h8⟩ := h
  have hy : y.ring.length < 1024 := Nat.lt_of_le_of_lt h7.length_le hr
  rw [Stream.offered, Stream.offered, if_pos hr, if_pos hy]
  refine ⟨by rw [h1], rfl, h3, by rw [h5], h5, h6, ?_, fun ha => ?_⟩
  · show (if y.atts = [] then [] else y.ring ++ [⟨k, y.overrun⟩]) <:+ (if x.atts = [] then [] else x.ring ++ [⟨k, x.overrun⟩])
    rw [h5, h2]
    split
    · exact List.suffix_refl _
    · obtain ⟨p, hp⟩ := h7
      exact ⟨p, by rw [← hp, List.append_assoc]⟩
  · show (if y.atts = [] then [] else y.ring ++ [⟨k, y.overrun⟩]) = (if x.atts = [] then [] else x.ring ++ [⟨k, x.overrun⟩])
    rw [if_pos (h5.trans ha), if_pos (show x.atts = [] from ha)]

theorem Settles.withEntry (h : Settles e t) (hr : (e.streams.get n).ring.length < 1024) (k : EntryKind) :
    Settles (e.withEntry n k) (t.withEntry n k) := by
  have hs := h.delivers.streams n
  have hy : (t.streams.get n).ring.length < 1024 := Nat.lt_of_le_of_lt hs.2.2.2.2.2.2.1.length_le hr
  have hd : t.now + (t.streams.get n).settings.flushCount * (t.lines.get n).charTime =
      e.now + (e.streams.get n).settings.flushCount * (e.lines.get n).charTime := by
    rw [h.delivers.now_eq, h.delivers.line_eq, hs.2.2.2.2.2.1]
  have hm : t.matcherOffered n k = e.matcherOffered n k := by
    rw [State.matcherOffered, State.matcherOffered, if_pos hr, if_pos hy, h.delivers.matcher_eq, hs.2.1]
  rw [State.withEntry, State.withEntry, hd, hm]
  exact (h.putStream n (hs.offered hr k _)).putMatcher _

/-! ## The judgement (R33 to R37) -/

/-- What a character handed on makes of the line, the mark it offers and the event it raises (R33 to R37). -/
def Line.judged (rates : List Nat) (flawed : Bool) (one : Line) : Line × Option Mark × Option Event :=
  let l := one
  let next := if l.candidate + 1 < rates.length then l.candidate + 1 else 0
  let laps := if next = 0 then l.laps + 1 else l.laps
  if flawed then
    if l.errors < l.settings.threshold then ({ one with errors := l.errors + 1, goodRun := 0 }, none, none)
    else if l.settings.autobaud = false ∨ rates.length ≤ 1 ∨ l.suspended = true then
      ({ one with errors := 0, noisy := true }, none, some (.lineNoisy l.rate))
    else if 4 ≤ laps then
      ({ one with
        candidate := 0, hunting := false, errors := 0, goodRun := 0, laps := 0, discard := 2, noisy := true,
        suspended := true }, some (.rate 0), some (.lineNoisy l.settings.primary))
    else
      ({ one with candidate := next, hunting := true, errors := 0, goodRun := 0, laps := laps, discard := 2 },
        some (.rate next), if l.hunting then none else some (.lineHunting (rates.getD next l.settings.primary)))
  else if l.hunting = false then ({ one with errors := l.errors - 1 }, none, none)
  else if l.goodRun + 1 < 32 then ({ one with errors := l.errors - 1, goodRun := l.goodRun + 1 }, none, none)
  else ({ one with errors := 0, hunting := false, goodRun := 0, laps := 0 }, none, some (.lineLocked l.rate))

/-- A mark in node `n`'s stream, if there is one. -/
def State.marked (s : State) (n : NodeId) : Option Mark → State
  | some m => s.withEntry n (.mark m)
  | none => s

/-- A mark offered to node `n`'s ring, if there is one. -/
def State.marks (s : State) (n : NodeId) : Option Mark → State
  | some m => s.offerMark n m
  | none => s

/-- An event raised for node `n`, if there is one. -/
def State.raises (s : State) (n : NodeId) : Option Event → State
  | some e => s.raise (some n) e
  | none => s

theorem putLine_putLine (s : State) (n : NodeId) (x y : Line) : (s.putLine n x).putLine n y = s.putLine n y := by
  simp only [State.putLine, Tab.put_put]

/-- The primary rate is the first candidate (R24). -/
theorem LineSettings.rates_getD_zero (x : LineSettings) (d : Nat) : x.rates.getD 0 d = x.primary := by
  simp [LineSettings.rates]

/-- The switch of an overflow on a line that hunts (R35, R37). -/
theorem switchRate_eq (s : State) (n : NodeId) {next laps : Nat}
    (hn : next = if (s.lines.get n).candidate + 1 < (s.lines.get n).settings.rates.length then (s.lines.get n).candidate + 1 else 0)
    (hl : laps = if next = 0 then (s.lines.get n).laps + 1 else (s.lines.get n).laps) : s.switchRate n =
    if 4 ≤ laps then
      ((s.putLine n { s.lines.get n with
        candidate := 0, hunting := false, errors := 0, goodRun := 0, laps := 0, discard := 2, noisy := true,
        suspended := true }).offerMark n (.rate 0)).raise (some n) (.lineNoisy (s.lines.get n).settings.primary)
    else
      ((s.putLine n { s.lines.get n with
        candidate := next, hunting := true, errors := 0, goodRun := 0, laps := laps, discard := 2 }).offerMark n (.rate next)).raises n
        (if (s.lines.get n).hunting then none
         else some (.lineHunting ((s.lines.get n).settings.rates.getD next (s.lines.get n).settings.primary))) := by
  have hc : (s.lines.get n).nextCandidate = (next, decide (next = 0)) := by
    rw [Line.nextCandidate, hn]
    split <;> simp
  have hp := (s.lines.get n).settings.rates_getD_zero (s.lines.get n).settings.primary
  simp only [State.switchRate, State.endHunt, hc, decide_eq_true_eq, ← hl, Line.rate, hp]
  cases (s.lines.get n).hunting <;> rfl

theorem judge_flawed {rates : List Nat} (h : (s.lines.get n).settings.rates = rates) : s.judge n true =
    ((s.putLine n ((s.lines.get n).judged rates true).1).marks n ((s.lines.get n).judged rates true).2.1).raises n
      ((s.lines.get n).judged rates true).2.2 := by
  subst h
  have hc : (s.lines.get n).cannotHunt = true ↔ (s.lines.get n).settings.autobaud = false ∨
      (s.lines.get n).settings.rates.length ≤ 1 ∨ (s.lines.get n).suspended = true := by
    simp [Line.cannotHunt, or_assoc]
  rw [State.judge]
  by_cases he : (s.lines.get n).errors < (s.lines.get n).settings.threshold
  · simp only [Line.judged, he, if_true, State.marks, State.raises]
  · by_cases hh : (s.lines.get n).cannotHunt = true
    · simp only [Line.judged, if_neg he, if_pos hh, if_pos (hc.mp hh), if_true, State.marks, State.raises]
      rfl
    · simp only [Line.judged, if_neg he, if_neg hh, if_neg (mt hc.mpr hh), if_true, switchRate_eq s n rfl rfl]
      generalize (if (s.lines.get n).candidate + 1 < (s.lines.get n).settings.rates.length then (s.lines.get n).candidate + 1
        else 0) = next
      generalize (if next = 0 then (s.lines.get n).laps + 1 else (s.lines.get n).laps) = laps
      split <;> rfl

theorem judge_clean {rates : List Nat} : s.judge n false =
    ((s.putLine n ((s.lines.get n).judged rates false).1).marks n ((s.lines.get n).judged rates false).2.1).raises n
      ((s.lines.get n).judged rates false).2.2 := by
  rw [State.judge]
  simp only [Line.judged, State.cleanRun, State.putLine_lines, Tab.get_put_same, Bool.not_eq_true', putLine_putLine, if_false,
    Bool.false_eq_true]
  by_cases hh : (s.lines.get n).hunting = false
  · simp only [if_pos hh, State.marks, State.raises]
  · by_cases hg : (s.lines.get n).goodRun + 1 < 32
    · simp only [if_neg hh, if_pos hg, State.marks, State.raises]
    · simp only [if_neg hh, if_neg hg, State.marks, State.raises]
      rfl

theorem judge_eq {rates : List Nat} (h : (s.lines.get n).settings.rates = rates) (flawed : Bool) : s.judge n flawed =
    ((s.putLine n ((s.lines.get n).judged rates flawed).1).marks n ((s.lines.get n).judged rates flawed).2.1).raises n
      ((s.lines.get n).judged rates flawed).2.2 := by
  cases flawed with
  | true => exact judge_flawed h
  | false => exact judge_clean

/-! ## Effects of the judgement -/

theorem marks_settles (s : State) (n : NodeId) (m : Option Mark) : Settles (s.marked n m) (s.marks n m) := by
  cases m with
  | some m => exact offerMatched_settles s n (.mark m)
  | none => exact .refl s

theorem offerMatched_notices (s : State) (n : NodeId) (k : EntryKind) : (s.offerMatched n k).notices = s.notices := by
  obtain ⟨fs, u, m, h⟩ := offerMatched_eq s n k
  rw [h]
  rfl

theorem marks_notices (s : State) (n : NodeId) (m : Option Mark) : (s.marks n m).notices = s.notices := by
  cases m with
  | some m => exact offerMatched_notices s n (.mark m)
  | none => rfl

theorem marked_notices (s : State) (n : NodeId) (m : Option Mark) : (s.marked n m).notices = s.notices := by cases m <;> rfl

theorem Settles.marked (h : Settles e t) {m : Option Mark} (hr : m = none ∨ (e.streams.get n).ring.length < 1024) :
    Settles (e.marked n m) (t.marked n m) := by
  cases m with
  | some m => exact h.withEntry (hr.resolve_left nofun) _
  | none => exact h

theorem Settles.raises (h : Settles e t) (hn : t.notices = e.notices) (n : NodeId) (ev : Option Event) :
    Settles (e.raises n ev) (t.raises n ev) := by
  cases ev with
  | some ev => exact h.raise hn _ ev
  | none => exact h

/-- The effect of what a judgement `j` makes of node `n`'s line. -/
def State.judgedTo (s : State) (n : NodeId) (j : Line × Option Mark × Option Event) : State :=
  ((s.putLine n j.1).marked n j.2.1).raises n j.2.2

theorem judge_settles {rates : List Nat} (h : (s.lines.get n).settings.rates = rates) (flawed : Bool) :
    Settles (s.judgedTo n ((s.lines.get n).judged rates flawed)) (s.judge n flawed) := by
  rw [judge_eq h]
  exact (marks_settles _ n _).raises ((marks_notices _ n _).trans (marked_notices _ n _).symm) n _

theorem Settles.judgedTo (h : Settles e t) (hn : t.notices = e.notices) (j : Line × Option Mark × Option Event)
    (hr : j.2.1 = none ∨ (e.streams.get n).ring.length < 1024) : Settles (e.judgedTo n j) (t.judgedTo n j) :=
  ((h.putLine n j.1).marked hr).raises (((marked_notices (t.putLine n j.1) n _).trans hn).trans (marked_notices (e.putLine n j.1) n _).symm) n _

/-! ## A character handed on (R29, R77) -/

theorem handChar_discards {k : EntryKind} (h : 0 < (s.lines.get n).discard) :
    s.handChar n k = s.putLine n { s.lines.get n with discard := (s.lines.get n).discard - 1 } := by
  rw [State.handChar]
  exact if_pos h

theorem handChar_judges {k : EntryKind} (h : (s.lines.get n).discard = 0) :
    s.handChar n k = (s.offerChar n k).judge n k.flawed := by
  rw [State.handChar]
  exact if_neg (by omega)

theorem withEntry_ring {k : EntryKind} (h : (s.streams.get n).ring.length < 1023) :
    ((s.withEntry n k).streams.get n).ring.length < 1024 := by
  show (((s.streams.put n _).get n)).ring.length < 1024
  rw [Tab.get_put_same, Stream.offered, if_pos (by omega)]
  show (if _ then [] else (s.streams.get n).ring ++ [_]).length < 1024
  split
  · exact Nat.succ_pos 1023
  · rw [List.length_append]
    exact Nat.add_lt_add_right h 1

theorem offerChar_plain {k : EntryKind} (hc : s.completionsOf n k = []) : s.offerChar n k = s.offerMatched n k := by
  rw [State.offerChar, hc]
  rfl

/-- A character that completes no pattern, handed on and judged. -/
theorem handChar_plain {k : EntryKind} {x : Line} (hx : s.lines.get n = x) (hd : x.discard = 0) (hc : s.completionsOf n k = [])
    (hr : (x.judged x.settings.rates k.flawed).2.1 = none ∨ (s.streams.get n).ring.length < 1023) :
    Settles ((s.withEntry n k).judgedTo n (x.judged x.settings.rates k.flawed)) (s.handChar n k) := by
  subst hx
  have h := offerMatched_settles s n k
  have hl : (s.offerMatched n k).lines.get n = s.lines.get n := h.delivers.line_eq n
  rw [handChar_judges hd, offerChar_plain hc]
  exact (h.judgedTo (offerMatched_notices s n k) _ (hr.imp_right withEntry_ring)).trans
    (hl ▸ judge_settles rfl k.flawed)

/-! ## The actions of completed patterns leave the line's settings -/

/-- The settings of node `n`'s line stand. -/
def LineSettingsStand (n : NodeId) (s t : State) : Prop := (t.lines.get n).settings = (s.lines.get n).settings

theorem Begins.lineSettings {a : Action} {p : Power} (h : Begins n a p s t) : LineSettingsStand n s t := by
  obtain ⟨-, -, -, h, -⟩ := h
  split at h
  · exact (congrArg Line.settings h.2.1 :)
  · exact (congrArg Line.settings h.1 :)

theorem faultSeen_lineSettings (s : State) (n : NodeId) (off : Offset) (i : PatternIx) :
    LineSettingsStand n s (s.patternAction n off .faultSeen i) := by
  obtain ⟨-, -, aside, reported, holds, begins, -⟩ := completedPatternsAct s n off i
  by_cases hc : (s.wt n).faultReboot = true ∧ (s.pw n).state = .on ∧ (s.pw n).action = none ∧ (s.wt n).state ≠ .held
  · by_cases hl : (s.wt n).limit = 0
    · rw [LineSettingsStand, reported hc hl]
      rfl
    · by_cases hr : (s.wt n).limit ≤ (s.wt n).count + 1 ∨ ((s.wt n).faultHeld = true ∧ (s.wt n).state = .idle)
      · rw [LineSettingsStand, holds hc hl hr]
        rfl
      · exact (begins hc (by omega) fun h => hr (.inr h)).2.1.lineSettings
  · rw [LineSettingsStand, aside hc]
    rfl

theorem patternAction_lineSettings (s : State) (n : NodeId) (off : Offset) (x : PatternAction) (i : PatternIx) :
    LineSettingsStand n s (s.patternAction n off x i) := by
  cases x with
  | notify => rfl
  | bootSeen =>
    rw [LineSettingsStand, (completedPatternsAct s n off i).2.1]
    split <;> rfl
  | faultSeen => exact faultSeen_lineSettings s n off i
  | ejectMedia => exact congrArg Line.settings (patternEject_media (ns := (· = n)) s rfl i).console.1

theorem patternActions_lineSettings (s : State) (n : NodeId) (off : Offset) (l : List PatternIx) :
    LineSettingsStand n s (s.patternActions n off l) :=
  foldl_keeps (R := LineSettingsStand n) (fun _ => rfl) (fun h k => Eq.trans k h) _ (fun a i _ => by
    split
    · exact patternAction_lineSettings a n off _ i
    · rfl) s

/-! ## What the end of a step leaves of a judgement -/

theorem judgedTo_line (s : State) (n : NodeId) (j : Line × Option Mark × Option Event) : (s.judgedTo n j).lines.get n = j.1 := by
  obtain ⟨l, m, ev⟩ := j
  cases m <;> cases ev <;> exact Tab.get_put_same _ _ _

theorem judgedTo_still (s : State) (n : NodeId) (j : Line × Option Mark × Option Event) :
    (s.judgedTo n j).power = s.power ∧ (s.judgedTo n j).watches = s.watches ∧ (s.judgedTo n j).ports = s.ports ∧
      (s.judgedTo n j).images = s.images ∧ (s.judgedTo n j).up = s.up ∧ (s.judgedTo n j).su = s.su ∧ (s.judgedTo n j).now = s.now := by
  obtain ⟨l, m, ev⟩ := j
  cases m <;> cases ev <;> exact ⟨rfl, rfl, rfl, rfl, rfl, rfl, rfl⟩

/-- What a settled judgement leaves but for the marks and the event: everything outside the line, its stream and the matcher. -/
theorem Settles.judgement_still {j : Line × Option Mark × Option Event} (h : Settles (s.judgedTo n j) t) :
    t.lines.get n = j.1 ∧ t.power = s.power ∧ t.watches = s.watches ∧ t.ports = s.ports ∧ ImagesSettled s t ∧ UplinkSettled s t := by
  obtain ⟨h1, h2, h3, h4, h5, -⟩ := judgedTo_still s n j
  have still := h.delivers.still_eq
  refine ⟨(h.delivers.line_eq n).trans (judgedTo_line s n j), ?_, ?_, ?_, (ImagesSettled.of_eq h4).trans h.delivers.images,
    (UplinkGrows.of_eq h5).settled.trans h.delivers.uplink⟩
  · exact (congrArg State.power still :).trans h1
  · exact (congrArg State.watches still :).trans h2
  · exact (congrArg State.ports still :).trans h3

/-- What a settled judgement makes of the stream and the matcher. -/
theorem Settles.judgement_some {j : Line × Option Mark × Option Event} {m : Mark} (h : Settles (s.judgedTo n j) t)
    (hm : j.2.1 = some m) : StreamSettled (((s.putLine n j.1).withEntry n (.mark m)).streams.get n) (t.streams.get n) ∧
      t.matcher = s.matcherOffered n (.mark m) := by
  obtain ⟨l, _, ev⟩ := j
  cases hm
  cases ev <;> exact ⟨h.delivers.streams n, h.delivers.matcher_eq⟩

theorem Settles.judgement_none {j : Line × Option Mark × Option Event} (h : Settles (s.judgedTo n j) t) (hm : j.2.1 = none) :
    StreamSettled (s.streams.get n) (t.streams.get n) ∧ t.matcher = s.matcher := by
  obtain ⟨l, _, ev⟩ := j
  cases hm
  cases ev <;> exact ⟨h.delivers.streams n, h.delivers.matcher_eq⟩

theorem Settles.judgement_notices {l : Line} {m : Option Mark} {ev : Option Event} (h : Settles (s.judgedTo n (l, m, ev)) t) :
    NoticesSettled (s.raises n ev) t := by
  have hn : (s.judgedTo n (l, m, ev)).notices = (s.raises n ev).notices := by cases ev <;> cases m <;> rfl
  refine .trans (b := s.judgedTo n (l, m, ev)) ?_ ?_ h.delivers.kept (.of_eq hn) h.delivers.notices
  · cases ev <;> cases m <;> rfl
  · cases ev <;> cases m <;> rfl

/-! ## The patterns a character completes (R77) -/

theorem indices_ascend (k : Nat) : (indices k).Pairwise (· < ·) := List.pairwise_lt_finRange k

theorem Matcher.completed_ascend (m : Matcher) (n : NodeId) (e : Entry) : (m.completed n e).Pairwise (· < ·) := by
  rw [Matcher.completed]
  split
  · split
    · exact .nil
    · exact (indices_ascend 32).filter _
  · exact .nil
  · exact .nil

theorem completionsOf_ascend (s : State) (n : NodeId) (k : EntryKind) : (s.completionsOf n k).Pairwise (· < ·) := by
  rw [State.completionsOf]
  split
  · exact s.matcher.completed_ascend n _
  · exact .nil

theorem mem_completionsOf {k : EntryKind} {i : PatternIx} : i ∈ s.completionsOf n k ↔
    (s.streams.get n).ring.length < 1024 ∧ i ∈ s.matcher.completed n ⟨k, (s.streams.get n).overrun⟩ := by
  rw [State.completionsOf]
  split
  · next h => exact ⟨fun hi => ⟨h, hi⟩, And.right⟩
  · next h => exact ⟨fun hi => (List.not_mem_nil hi).elim, fun hi => absurd hi.1 h⟩

theorem offerMatched_table (s : State) (n : NodeId) (k : EntryKind) : (s.offerMatched n k).matcher.table = s.matcher.table := by
  obtain ⟨-, -, -, -, -, -, -, -, -, h, -⟩ := (offerMatched_node s (n := n) k).elsewhere
  exact h

/-- A character that completes patterns, handed on: its actions, then the judgement. -/
theorem handChar_matched (s : State) {k : EntryKind} {x : Line} (hx : s.lines.get n = x) (hd : x.discard = 0) :
    NodeWork n (s.offerChar n k) (s.handChar n k) ∧
      Settles ((s.offerChar n k).judgedTo n (((s.offerChar n k).lines.get n).judged x.settings.rates k.flawed)) (s.handChar n k) := by
  subst hx
  have hl : ((s.offerChar n k).lines.get n).settings = (s.lines.get n).settings :=
    (patternActions_lineSettings _ n _ _).trans
      (congrArg Line.settings ((offerMatched_settles s n k).delivers.line_eq n))
  rw [handChar_judges hd]
  exact ⟨judge_node _ _, judge_settles (congrArg LineSettings.rates hl) _⟩

section
variable {c : Instr} {k : EntryKind} {x : Line} {f : State → State}

/-- The end of a step that hands on a character. -/
theorem handChar_ends (hc : exec c s = s.whenRunning f) (hf : f s = (s.putLine n x).handChar n k) (hp : s.porn = true)
    (hd : x.discard = 0) : let a := (s.putLine n x).offerChar n k
    ∃ t, exec c s = .next t ∧ ElsewhereKept n s t ∧ UplinkSettled s t ∧ ElsewhereKept n a t ∧
      Settles (a.judgedTo n ((a.lines.get n).judged x.settings.rates k.flawed)) t := by
  intro a
  obtain ⟨t, ht, hs⟩ := exec_settles hc hp
  obtain ⟨hn, hj⟩ := handChar_matched (s.putLine n x) (k := k) (Tab.get_put_same _ _ _) hd
  have hw : NodeWork n s (f s) := hf ▸ (putLine_node s x).trans (handChar_node _ k)
  exact ⟨t, ht, hw.elsewhere.trans hs.delivers.elsewhere, hw.uplink.settled.trans hs.delivers.uplink,
    hn.elsewhere.trans (hf ▸ hs.delivers.elsewhere), hj.trans (hf ▸ hs)⟩

end

/-! ## The stop sample (R29, R30) -/

theorem stopSample_elsewhere (data : Byte) (parity stop : Bool) (h : ∀ d, (s.lines.get n).receiver ≠ .character d) :
    s.stopSample n data parity stop = s := by
  rw [State.stopSample]
  cases hr : (s.lines.get n).receiver with
  | character x => exact absurd hr (h x)
  | quiet _ | ready | lowHold _ | brk => rfl

theorem lowRise_elsewhere (h : ∀ d, (s.lines.get n).receiver ≠ .lowHold d) : s.lowRise n = s := by
  rw [State.lowRise]
  cases hr : (s.lines.get n).receiver with
  | lowHold x => exact absurd hr (h x)
  | quiet _ | ready | character _ | brk => rfl

theorem breakCandidate_iff {l : Line} {data : Byte} {parity stop : Bool} : l.breakCandidate data parity stop = true ↔
    lowBits l.settings.framing.dataBits data = 0 ∧ (l.settings.framing.parity = .none ∨ parity = false) ∧ stop = false := by
  simp [Line.breakCandidate, and_assoc]

theorem lowBits_zero (k : Nat) : lowBits k 0 = 0 := by
  show BitVec.ofNat 8 (0 % 2 ^ k) = 0
  rw [Nat.zero_mod]
  rfl

/-- Settles O44. -/
theorem framedCharactersAreHandedOnAndJudged : Obligations.FramedCharactersAreHandedOnAndJudged := by
  intro s n data parity stop d hp l f rates value odd bad one judged effect handed
  have frame (v : Byte) (p q : Bool) : l.frame v p q = .char (lowBits f.dataBits v) (bad (lowBits f.dataBits v) p) (!q) l.hunting := by
    have hodd (v : Byte) : decide (ones v % 2 = 0) = !odd v := by
      show decide (ones v % 2 = 0) = !decide (ones v % 2 = 1)
      rcases Nat.mod_two_eq_zero_or_one (ones v) with h | h <;> rw [h] <;> rfl
    have hbad : (match parityBit f.parity (lowBits f.dataBits v) with
        | some b => b != p
        | none => false) = bad (lowBits f.dataBits v) p := by
      show _ = (match f.parity with
        | .none => false
        | .even => odd (lowBits f.dataBits v) != p
        | .odd => odd (lowBits f.dataBits v) == p)
      cases f.parity with
      | none => rfl
      | even => rfl
      | odd =>
        show (decide (ones _ % 2 = 0) != p) = (odd _ == p)
        rw [hodd]
        cases odd (lowBits f.dataBits v) <;> cases p <;> rfl
    exact congrArg (EntryKind.char (lowBits f.dataBits v) · (!q) l.hunting) hbad
  have hands {c : Instr} {g : State → State} {level : Bool} {k : EntryKind} {flawed : Bool} (hc : exec c s = s.whenRunning g)
      (hg : g s = (s.putLine n (one level)).handChar n k) (hk : k.flawed = flawed) : handed c level k flawed := by
    subst hk
    have hl : (s.putLine n (one level)).lines.get n = one level := Tab.get_put_same _ _ _
    refine ⟨fun h => ?_, fun h he => ⟨?_, fun hr => ?_⟩, fun h he => ?_⟩
    · exact completes_of_eq hc hp (hg.trans ((handChar_discards (by rw [hl]; exact h)).trans
        ((congrArg (fun y : Line => (s.putLine n (one level)).putLine n { y with discard := y.discard - 1 }) hl).trans
          (putLine_putLine s n _ _))))
    · obtain ⟨t, ht, h1, h2, -, hs⟩ := handChar_ends hc hg hp h
      have ha : ((s.putLine n (one level)).offerChar n k).lines.get n = one level := by
        rw [offerChar_plain (s := s.putLine n (one level)) he]
        exact ((offerMatched_settles _ n k).delivers.line_eq n).trans hl
      rw [ha] at hs
      exact ⟨t, ht, hs.judgement_still.1, h1, h2⟩
    · exact completes_of hc hp (hg ▸ handChar_plain hl h he hr)
    · obtain ⟨t, ht, -, -, h3, hs⟩ := handChar_ends hc hg hp h
      have hacted : (s.putLine n (one level)).offerChar n k = (s.completionsOf n k).foldl (fun a i => match s.matcher.table.get i with
          | some p => a.patternAction n (s.streams.get n).offset p.action i
          | none => a) ((s.putLine n (one level)).offerMatched n k) := by
        rw [State.offerChar, State.patternActions, offerMatched_table]
        rfl
      rw [hacted] at h3 hs
      obtain ⟨h4, h5, h6, h7, h8, h9⟩ := hs.judgement_still
      refine ⟨(offerMatched_settles _ n k).trans (finish_settles _), completionsOf_ascend s n k, fun i => mem_completionsOf,
        t, ht, h4, h5, h6, h7, h3, h8, h9, ?_, ?_, hs.judgement_notices⟩
      · split
        · next m hm => exact (hs.judgement_some hm).1
        · next hm => exact (hs.judgement_none hm).1
      · split
        · next m hm => exact (hs.judgement_some hm).2
        · next hm => exact (hs.judgement_none hm).2
  refine ⟨fun hr => ?_, fun hr => ?_, fun hr => ?_, fun hr => ?_⟩
  · have hs : s.stopSample n data parity stop = if l.breakCandidate data parity stop
        then s.putLine n { l with rxd := stop, receiver := .lowHold d }
        else (s.putLine n (one stop)).handChar n (l.frame data parity stop) := by
      rw [State.stopSample, show (s.lines.get n).receiver = .character d from hr]
    by_cases hb : l.breakCandidate data parity stop = true
    · have hv : value = 0 ∧ (f.parity = .none ∨ parity = false) ∧ stop = false := breakCandidate_iff.mp hb
      rw [if_pos hv]
      exact completes_of_eq (f := (·.stopSample n data parity stop)) rfl hp (hs.trans (if_pos hb))
    · have hv : ¬(value = 0 ∧ (f.parity = .none ∨ parity = false) ∧ stop = false) := mt breakCandidate_iff.mpr hb
      rw [if_neg hv]
      exact hands (g := (·.stopSample n data parity stop)) rfl (hs.trans ((if_neg hb).trans (congrArg _ (frame data parity stop)))) rfl
  · have hs : s.lowRise n = (s.putLine n (one true)).handChar n (l.frame 0 false false) := by
      rw [State.lowRise, show (s.lines.get n).receiver = .lowHold d from hr]
    exact hands (g := (·.lowRise n)) rfl (hs.trans (by rw [frame, lowBits_zero]; rfl)) (Bool.or_true _)
  · exact completes_of_eq (f := (·.stopSample n data parity stop)) rfl hp (stopSample_elsewhere data parity stop hr)
  · exact completes_of_eq (f := (·.lowRise n)) rfl hp (lowRise_elsewhere hr)

end Sys2Proof.Machine
end

section
/-! PROOFS. The obligations about history, the history limits and the frames that carry entries (chapters 3 and 9). -/
namespace Sys2Proof.Machine

-- Side by side, the proofs of this text would need more thread stacks than the check's memory limit holds.
set_option Elab.async false

variable {s : State} {n : NodeId}

/-! ## A chain takes an entry (R52) -/

theorem Stream.append_chain {t : Stream} {c : HistCell} {front : List HistCell} (h : t.chain = front ++ [c]) (e : Entry) :
    (t.append e).chain = front ++ [{ c with entries := c.entries ++ [e] }] := by
  rw [Stream.append, h, List.getLast?_concat, List.dropLast_concat]

theorem Stream.append_oldest (t : Stream) (e : Entry) : (t.append e).oldest = t.oldest := by
  obtain ⟨c, h⟩ := t.append_eq e
  rw [h]
  rfl

theorem flatMap_entries_concat (front : List HistCell) (c : HistCell) (e : Entry) :
    (front ++ [{ c with entries := c.entries ++ [e] }]).flatMap HistCell.entries = (front ++ [c]).flatMap HistCell.entries ++ [e] := by
  simp

theorem pass_stream (s : State) (n : NodeId) (o : Offset) (e : Entry) : (s.pass n o e).streams.get n =
    ({ s.makeRoom n with oldest := if (s.streams.get n).chain = [] then o else (s.makeRoom n).oldest } : Stream).append e :=
  Tab.get_put_same _ _ _

/-- What an entry makes of a chain made ready for it. -/
theorem pass_history (s : State) (n : NodeId) (o : Offset) (e : Entry) {c : HistCell} {front : List HistCell}
    (h : (s.makeRoom n).chain = front ++ [c]) : ((s.pass n o e).streams.get n).history = (front ++ [c]).flatMap HistCell.entries ++ [e] ∧
      ((s.pass n o e).streams.get n).chain.length = front.length + 1 ∧
      ((s.pass n o e).streams.get n).oldest = if (s.streams.get n).chain = [] then o else (s.makeRoom n).oldest := by
  have hc : ((s.pass n o e).streams.get n).chain = front ++ [{ c with entries := c.entries ++ [e] }] := by
    rw [pass_stream, Stream.append_chain (front := front) (c := c)]
    exact h
  refine ⟨?_, ?_, ?_⟩
  · rw [Stream.history, hc, flatMap_entries_concat]
  · rw [hc, List.length_append]
    rfl
  · rw [pass_stream, Stream.append_oldest]

theorem Stream.newestHasRoom_chain {t : Stream} (h : t.newestHasRoom = true) : ∃ front c, t.chain = front ++ [c] := by
  rw [Stream.newestHasRoom] at h
  cases hc : t.chain.getLast? with
  | none => rw [hc] at h; cases h
  | some c => exact ⟨t.chain.dropLast, c, (List.dropLast_append_getLast? c hc).symm⟩

theorem makeRoom_room (h : (s.streams.get n).newestHasRoom = true) : s.makeRoom n = s.streams.get n := by
  rw [State.makeRoom]
  exact if_pos h

theorem makeRoom_granted (h : (s.streams.get n).newestHasRoom = false) {c : Nat} (hg : s.grant n = some c) :
    s.makeRoom n = { s.streams.get n with chain := (s.streams.get n).chain ++ [⟨c, []⟩] } := by
  rw [State.makeRoom, if_neg (by rw [h]; nofun), hg]

theorem makeRoom_refused (h : (s.streams.get n).newestHasRoom = false) (hg : s.grant n = none) :
    s.makeRoom n = (s.streams.get n).recycle := by
  rw [State.makeRoom, if_neg (by rw [h]; nofun), hg]

theorem Stream.recycle_chain {t : Stream} {x : HistCell} {rest : List HistCell} (h : t.chain = x :: rest) :
    t.recycle.chain = rest ++ [{ x with entries := [] }] ∧ t.recycle.oldest = t.oldest + 256 := by
  rw [Stream.recycle, h]
  obtain ⟨r, hr⟩ := Stream.adjustReplay_eq { t with chain := rest ++ [{ x with entries := [] }], oldest := t.oldest + 256 }
  exact ⟨congrArg Stream.chain hr, congrArg Stream.oldest hr⟩

/-! ## The pool's grant (R164, R165) -/

/-- A free cell is found where one is left. -/
theorem fresh_isSome {owned : List Nat} (h : owned.length < 1024) : (freshCells owned 1024 0 1).head?.isSome := by
  have taken : ((List.range' 0 1024).filter (fun x => owned.contains x)).length ≤ owned.length := by
    refine (List.Nodup.subperm (List.Nodup.filter _ List.nodup_range') fun x hx => ?_).length_le
    simpa using (List.mem_filter.mp hx).2
  have both := (List.filter_append_perm (fun x => owned.contains x) (List.range' 0 1024)).length_eq
  simp only [List.length_append, List.length_range'] at both
  have length := length_freshCells owned 1024 0 1
  cases hf : freshCells owned 1024 0 1 with
  | cons x xs => rfl
  | nil => rw [hf] at length; simp only [List.length_nil] at length; omega

theorem ownedCells_length (h : CellLaw s) : s.ownedCells.length + s.freeCells = 1024 := by
  have fit := cellLaw_iff.mp h
  obtain ⟨-, -, -, total, -⟩ := h
  rw [ownedCells_eq, List.length_append, length_flatMap_cellsOf, length_poolCells fit.eight, total]

theorem le_reservation (s : State) (n : NodeId) : s.histMin n - s.heldCells n ≤ s.reservation :=
  List.single_le_sum (fun _ _ => Nat.zero_le _) _ (List.mem_map.mpr ⟨n, mem_allNodes n, rfl⟩)

/-- Whom the pool grants a cell (R165). -/
theorem grant_isSome (h : CellLaw s) : (s.grant n).isSome ↔ s.heldCells n < s.histMin n ∨
    (s.heldCells n < s.histMax n ∧ s.reservation + 1 ≤ s.freeCells) := by
  have owned := ownedCells_length h
  obtain ⟨-, -, -, -, covered, -⟩ := h
  have least := le_reservation s n
  have hs : 1 ≤ s.slack ↔ s.reservation + 1 ≤ s.freeCells := by
    rw [State.slack]
    omega
  rw [← hs, State.grant]
  split
  · next hg => exact ⟨fun _ => hg, fun _ => fresh_isSome (by omega)⟩
  · next hg => exact ⟨nofun, fun hx => absurd hx hg⟩

theorem pass_console (s : State) (n : NodeId) (o : Offset) (e : Entry) :
    ((s.pass n o e).streams.get n).ring = (s.streams.get n).ring ∧ ((s.pass n o e).streams.get n).offset = (s.streams.get n).offset ∧
      ((s.pass n o e).streams.get n).atts = (s.streams.get n).atts ∧
      ((s.pass n o e).streams.get n).settings = (s.streams.get n).settings ∧
      ∀ m, m ≠ n → (s.pass n o e).streams.get m = s.streams.get m := by
  obtain ⟨c, a, r, h⟩ := s.pass_eq n o e
  rw [h, State.putStream_streams, Tab.get_put_same]
  exact ⟨rfl, rfl, rfl, rfl, fun m hm => Tab.get_put_ne _ _ hm⟩

/-- A batch's frames join the queue and its entries leave the ring (R51). -/
theorem formBatch_carries (s : State) (n : NodeId) : (s.formBatch n).up.queue = s.up.queue ++ (s.streams.get n).atts.map (fun a =>
      consoleFrame (s.addressOf a.station) n
        (encodeOutput (s.streams.get n).ringStart ((s.streams.get n).ring.take 512) false false false)) ∧
    ((s.formBatch n).streams.get n).ring = (s.streams.get n).ring.drop 512 := by
  rw [State.formBatch]
  obtain ⟨c, a, r, h⟩ := State.passAll_eq ((s.enqueueAll ((s.streams.get n).atts.map (fun a => consoleFrame (s.addressOf a.station) n
    (encodeOutput (s.streams.get n).ringStart ((s.streams.get n).ring.take 512) false false false)))).putStream n
      { s.streams.get n with
        ring := (s.streams.get n).ring.drop 512
        batchDue := (s.streams.get n).batchDue && !((s.streams.get n).ring.drop 512).isEmpty }) n (s.streams.get n).ringStart
    ((s.streams.get n).ring.take 512)
  rw [h]
  refine ⟨rfl, ?_⟩
  rw [State.putStream_streams, Tab.get_put_same, Stream.withHistory_ring, State.putStream_streams, Tab.get_put_same]

/-- The flags of a replay frame (R59). -/
theorem replayFlags (gap last : Bool) : BitVec.ofNat 8 ((if true then 1 else 0) + (if gap then 2 else 0) + (if last then 4 else 0)) =
    (1 : Byte) + (if gap then 2 else 0) + (if last then 4 else 0) := by
  cases gap <;> cases last <;> rfl

theorem replayFrame_carries {r : Replay} (hr : (s.streams.get n).replay = some r) (he : r.ending = false) {done : Bool}
    (hd : done = decide ((r.last - r.cursor).toNat < ((s.streams.get n).replayEntries r).length)) : s.replayFrame n =
    (s.enqueue (consoleFrame (s.addressOf r.requester) n
        (encodeOutput r.cursor ((s.streams.get n).replayEntries r) true r.gap done))).putStream n
      { s.streams.get n with
        replay := if done then none
          else some { r with cursor := r.cursor + BitVec.ofNat 32 ((s.streams.get n).replayEntries r).length, gap := false } } := by
  rw [State.replayFrame, hr, hd]
  exact if_neg (by rw [he]; nofun)

theorem replayFrame_ends {r : Replay} (hr : (s.streams.get n).replay = some r) (he : r.ending = true) : s.replayFrame n =
    (s.enqueue (consoleFrame (s.addressOf r.requester) n (encodeOutput (s.streams.get n).oldest [] true true true))).putStream n
      { s.streams.get n with replay := none } := by
  rw [State.replayFrame, hr]
  exact if_pos he

/-- Settles O27: the chain made ready for an entry by its three cases, then the frames as they are formed. -/
theorem historyAndFramesCarryTheEntries : Obligations.HistoryAndFramesCarryTheEntries := by
  refine ⟨fun s n o e x rest => ?_, fun s n r => ?_⟩
  · obtain ⟨h1, h2, h3, h4, h5⟩ := pass_console s n o e
    refine ⟨fun h => ?_, fun h hg => ?_, fun h hg hx => ?_, grant_isSome, h1, h2, h3, h4, h5⟩
    · obtain ⟨front, c, hc⟩ := Stream.newestHasRoom_chain h
      obtain ⟨p1, p2, p3⟩ := pass_history s n o e ((congrArg Stream.chain (makeRoom_room h)).trans hc)
      rw [makeRoom_room h, if_neg (by rw [hc]; simp)] at p3
      refine ⟨?_, p3, ?_⟩
      · rw [p1, ← hc]
        rfl
      · rw [p2, hc, List.length_append]
        rfl
    · obtain ⟨c, hg⟩ := Option.isSome_iff_exists.mp hg
      obtain ⟨p1, p2, p3⟩ := pass_history s n o e (congrArg Stream.chain (makeRoom_granted h hg))
      rw [makeRoom_granted h hg] at p3
      refine ⟨?_, p2, p3⟩
      rw [p1, List.flatMap_append]
      simp [Stream.history]
    · obtain ⟨c1, c2⟩ := Stream.recycle_chain hx
      obtain ⟨p1, p2, p3⟩ := pass_history s n o e ((congrArg Stream.chain (makeRoom_refused h hg)).trans c1)
      rw [makeRoom_refused h hg, c2, if_neg (by rw [hx]; nofun)] at p3
      refine ⟨?_, p3, ?_⟩
      · rw [p1]
        simp
      · rw [p2, hx]
        rfl
  · obtain ⟨b1, b2⟩ := formBatch_carries s n
    intro t batch frame
    refine ⟨b1, b2, fun hr he => ?_, fun hr he => ?_⟩
    · intro left es last
      have hf := replayFrame_carries (done := last) hr he rfl
      rw [hf]
      refine ⟨?_, congrArg Stream.replay (Tab.get_put_same _ _ _)⟩
      show s.up.queue ++ [consoleFrame _ n (encodeOutput r.cursor es true r.gap last)] = _
      rw [encodeOutput, replayFlags]
      rfl
    · rw [replayFrame_ends hr he]
      exact ⟨rfl, congrArg Stream.replay (Tab.get_put_same _ _ _)⟩

/-! ## The history maximum is kept (R165, R175) -/

/-- The settings of node `n`'s stream stand, and its history stays within limits of which the minimum is not above the maximum. -/
def HistoryWithin (n : NodeId) (s t : State) : Prop :=
  (t.streams.get n).settings = (s.streams.get n).settings ∧
    (s.histMin n ≤ s.histMax n → s.heldCells n ≤ s.histMax n → t.heldCells n ≤ s.histMax n)

theorem HistoryWithin.of_eq {t : State} (h : t.streams.get n = s.streams.get n) : HistoryWithin n s t :=
  ⟨congrArg Stream.settings h, fun _ hs => by rw [State.heldCells, h]; exact hs⟩

theorem HistoryWithin.refl (n : NodeId) (s : State) : HistoryWithin n s s := .of_eq rfl

theorem HistoryWithin.trans {t u : State} (h : HistoryWithin n s t) (k : HistoryWithin n t u) : HistoryWithin n s u := by
  have hmin : t.histMin n = s.histMin n := congrArg StreamSettings.histMin h.1
  have hmax : t.histMax n = s.histMax n := congrArg StreamSettings.histMax h.1
  have k2 := k.2
  rw [hmin, hmax] at k2
  exact ⟨k.1.trans h.1, fun hl hs => k2 hl (h.2 hl hs)⟩

/-- A stream put whose chain is no longer. -/
theorem HistoryWithin.putStream {m : NodeId} {x : Stream} (hs : x.settings = (s.streams.get m).settings)
    (hc : x.chain.length ≤ (s.streams.get m).chain.length) : HistoryWithin n s (s.putStream m x) := by
  by_cases hm : n = m
  · subst hm
    refine ⟨?_, fun _ h => ?_⟩
    · rw [State.putStream_streams, Tab.get_put_same, hs]
    · rw [State.heldCells, State.putStream_streams, Tab.get_put_same]
      exact hc.trans h
  · exact .of_eq (Tab.get_put_ne _ _ hm)

theorem makeRoom_within (h : s.histMin n ≤ s.histMax n) (hs : s.heldCells n ≤ s.histMax n) :
    (s.makeRoom n).chain.length ≤ s.histMax n := by
  cases hr : (s.streams.get n).newestHasRoom with
  | true => rw [makeRoom_room hr]; exact hs
  | false =>
    cases hg : s.grant n with
    | some c =>
      have room : s.heldCells n < s.histMin n ∨ (s.heldCells n < s.histMax n ∧ 1 ≤ s.slack) := by
        by_contra hx
        rw [State.grant, if_neg hx] at hg
        cases hg
      rw [makeRoom_granted hr hg, List.length_append]
      show s.heldCells n + 1 ≤ _
      omega
    | none =>
      have hl := (cells_recycle (s.streams.get n)).length_eq
      rw [List.length_map, List.length_map] at hl
      rw [makeRoom_refused hr hg, hl]
      exact hs

theorem pass_within (s : State) (n m : NodeId) (o : Offset) (e : Entry) : HistoryWithin n s (s.pass m o e) := by
  by_cases hm : n = m
  · subst hm
    obtain ⟨-, -, -, hset, -⟩ := pass_console s n o e
    refine ⟨hset, fun h hs => ?_⟩
    have hl := congrArg List.length (cells_append ({ s.makeRoom n with
      oldest := if (s.streams.get n).chain = [] then o else (s.makeRoom n).oldest } : Stream) e)
    rw [List.length_map, List.length_map] at hl
    rw [State.heldCells, pass_stream, hl]
    exact makeRoom_within h hs
  · exact .of_eq ((pass_console s m o e).2.2.2.2 n hm)

theorem passAll_within (s : State) (n m : NodeId) (o : Offset) (es : List Entry) : HistoryWithin n s (s.passAll m o es) := by
  induction es generalizing s o with
  | nil => exact .refl n s
  | cons e es ih => exact (pass_within s n m o e).trans (ih _ _)

theorem formBatch_within (s : State) (n m : NodeId) : HistoryWithin n s (s.formBatch m) := by
  rw [State.formBatch]
  refine .trans ?_ (passAll_within _ n m _ _)
  exact HistoryWithin.putStream (s := s.enqueueAll _) rfl (Nat.le_refl _)

theorem testBatch_within (s : State) (n m : NodeId) : HistoryWithin n s (s.testBatch m) := by
  have loop (k : Nat) (a : State) : HistoryWithin n a (State.formBatches m k a) := by
    induction k generalizing a with
    | zero => exact .refl n a
    | succ k ih =>
      rw [State.formBatches]
      split
      · exact (formBatch_within a n m).trans (ih _)
      · exact .refl n a
  exact loop 1024 s

theorem serve_within (s : State) (n : NodeId) (b : Bool) {p : Producer} (hp : p ≠ .needs) : HistoryWithin n s (s.serve b p).1 := by
  cases p with
  | batch m => exact formBatch_within s n m
  | replay m =>
    simp only [State.serve, State.replayFrame]
    split
    · exact .refl n s
    · split
      · exact HistoryWithin.putStream (s := s.enqueue _) rfl (Nat.le_refl _)
      · exact HistoryWithin.putStream (s := s.enqueue _) rfl (Nat.le_refl _)
  | needs => exact absurd rfl hp
  | imageOpen _ | refetch _ | rewrite _ | notice => exact .of_eq (congrArg (Tab.get · n) (serve_streams s b hp nofun nofun))

theorem finish_within (s : State) (n : NodeId) : HistoryWithin n s s.finish :=
  finish_preserves (R := HistoryWithin n) (.refl n) .trans (fun _ _ => .of_eq rfl) (fun a b _ hp => serve_within a n b hp)
    (fun _ => .of_eq rfl) s

/-! The need list is tried: an allocation reclaims cells and grants none (R173). -/

theorem dropOldest_within (s : State) (n m : NodeId) : HistoryWithin n s (s.putStream m (s.streams.get m).dropOldest) := by
  obtain ⟨r, h⟩ := Stream.dropOldest_eq (s.streams.get m)
  rw [h]
  exact HistoryWithin.putStream rfl (by rw [Stream.withHistory_chain, List.length_drop]; omega)

theorem obtain_within (s : State) (n : NodeId) (k : Nat) : HistoryWithin n s (State.obtain k s) := by
  induction k generalizing s with
  | zero => exact .refl n s
  | succ k ih =>
    rw [State.obtain]
    split
    · exact .refl n s
    · split
      · exact .trans (t := s.putPool _) (.of_eq rfl) (ih _)
      · split
        · next m _ => exact (dropOldest_within s n m).trans (.trans (t := s.reclaim m) (.of_eq rfl) (ih _))
        · exact .refl n s

theorem allocate_within (s : State) (n : NodeId) (k : ExtentKey) : HistoryWithin n s (s.allocate k).1 := by
  have h := obtain_within s n 1200
  rw [State.allocate]
  generalize State.obtain 1200 s = a at h ⊢
  split
  · exact .of_eq rfl
  · split
    · exact h.trans (.of_eq rfl)
    · exact .of_eq rfl

theorem tryOne_within (s : State) (n : NodeId) : HistoryWithin n s s.tryOne.1 := by
  rw [State.tryOne]
  split
  · exact .refl n s
  · next x _ =>
    split
    · next r f _ _ =>
      have h := allocate_within s n (r.key x.extent)
      split
      · split
        · next hq => rw [hq] at h; exact h.trans (.of_eq rfl)
        · next hq => rw [hq] at h; exact h
      · exact .refl n s
    · exact .refl n s

theorem tryNeeds_within (s : State) (n : NodeId) : HistoryWithin n s s.tryNeeds := by
  have loop (k : Nat) (a : State) : HistoryWithin n a (State.tryLoop k a) := by
    induction k generalizing a with
    | zero => exact .refl n a
    | succ k ih =>
      rw [State.tryLoop]
      split
      · exact (tryOne_within a n).trans (ih _)
      · exact tryOne_within a n
  exact loop 64 s

theorem reportLimits_within (s before : State) (n m : NodeId) : HistoryWithin n s (s.reportLimits before m) := by
  rw [State.reportLimits]
  split
  · rw [State.report]
    split
    · exact .trans (t := s.putPool _) (.of_eq rfl) (tryNeeds_within _ n)
    · exact .refl n s
  · exact .refl n s

/-! ## NODE_STREAM (R66, R175) -/

theorem evictableCount_eq (p : Pool) {f : ExtentIx → Bool} (hf : ∀ i, f i = (p.extents.get i).any Extent.evictable) :
    p.evictableCount = ((indices 128).filter f).length := by
  rw [Pool.evictableCount, Pool.used, List.filter_filterMap, List.length_filterMap_eq_countP, ← List.countP_eq_length_filter]
  refine List.countP_congr fun i _ => ?_
  rw [hf]
  cases hi : p.extents.get i with
  | none => exact Iff.rfl
  | some e =>
    show ((some (i, e)).filter _).isSome = true ↔ e.evictable = true
    rw [Option.filter_some]
    cases e.evictable <;> exact Iff.rfl

/-- A transmitter left IDLE by items it was given was given none (R40). -/
theorem Line.inBounds.given_idle {l : Line} (hl : l.inBounds) (now : Nat) (xs : List TxItem)
    (h : (l.given now xs).transmitter = .idle) : (l.given now xs).txQueue = [] := by
  cases xs with
  | nil => rw [Line.given_nil] at h ⊢; exact hl.queue.2 h
  | cons x xs =>
    by_cases hb : l.transmitter = .idle
    · rw [Line.given_cons hb] at h
      exact absurd h (Line.begin_ne_idle _ _ x)
    · rw [Line.given_of_busy hb] at h
      exact absurd h hb

/-- Escape bytes released one after the other: as many as the transmit queue has room for (R63, R66). -/
theorem releaseByte_foldl {b : Byte} (hl : (s.lines.get n).inBounds) {j : Nat} (hj : j ≤ (s.lines.get n).room) (k : Nat) :
    (List.replicate k b).foldl (fun x b => x.releaseByte n b)
        (s.putLine n ((s.lines.get n).given s.now (List.replicate j (.byte b)))) =
      s.putLine n ((s.lines.get n).given s.now (List.replicate (min (j + k) (s.lines.get n).room) (.byte b))) := by
  induction k generalizing j with
  | zero => rw [Nat.add_zero, Nat.min_eq_left hj]; rfl
  | succ k ih =>
    let a := s.putLine n ((s.lines.get n).given s.now (List.replicate j (.byte b)))
    have hline : a.lines.get n = (s.lines.get n).given s.now (List.replicate j (.byte b)) := Tab.get_put_same _ _ _
    have hroom := Line.given_room hl s.now 1 (List.replicate j (.byte b)) (Nat.le_refl 1) (by decide)
    rw [List.length_replicate] at hroom
    have hfold : (List.replicate (k + 1) b).foldl (fun x b => x.releaseByte n b) a =
        (List.replicate k b).foldl (fun x b => x.releaseByte n b) (a.releaseByte n b) := rfl
    rw [hfold]
    by_cases hr : j + 1 ≤ (s.lines.get n).room
    · have : a.releaseByte n b =
          s.putLine n ((s.lines.get n).given s.now (List.replicate (j + 1) (.byte b))) := by
        rw [State.releaseByte, State.txRoom, hline, txSize, if_pos (decide_eq_true (hroom.mpr hr)), sendItems_eq_given, hline]
        · show (s.putLine n _).putLine n (Line.given _ s.now [TxItem.byte b]) = _
          rw [putLine_putLine, Line.given_given, List.replicate_succ']
        · rw [hline]
          exact hl.given_idle s.now _
      rw [this, ih hr, show j + 1 + k = j + (k + 1) by omega]
    · have : a.releaseByte n b = a := by
        rw [State.releaseByte, State.txRoom, hline]
        exact if_neg fun h => hr (hroom.mp (of_decide_eq_true h))
      rw [this, ih hj, show min (j + k) (s.lines.get n).room = min (j + (k + 1)) (s.lines.get n).room by omega]

theorem applyLimits_node (s : State) (n : NodeId) (x : StreamSettings) : NodeWork n s (s.applyLimits n x) := by
  obtain ⟨c, a, r, p, h⟩ := applyLimits_eq s n x
  rw [h]
  exact (putStream_node s _).trans ((putPool_work _ p).media (ns := (· = n))).node

theorem reportLimits_work (s before : State) (n : NodeId) : PoolWork s (s.reportLimits before n) := by
  rw [State.reportLimits]
  split
  · exact report_work s
  · exact .refl s

/-- The cells a node holds after the limits apply (R175). -/
theorem applyLimits_held (h : CellLaw s) (n : NodeId) (x : StreamSettings) : (s.applyLimits n x).heldCells n ≤ x.histMax := by
  have total := (cellLaw_iff.mp h).toCellsOwned.total
  have hn := historyCells_eq s n
  let a := s.putStream n { s.streams.get n with settings := x }
  have ha : a.heldCells n = s.heldCells n := by
    rw [State.heldCells, State.putStream_streams, Tab.get_put_same]
    rfl
  obtain ⟨-, -, -, held⟩ := dropTo_spec a n x.histMax 1024 (by omega)
  obtain ⟨p, hp⟩ := evictToReserve_eq (State.dropTo n x.histMax 1024 a) 128
  have hk := held n
  rw [if_pos rfl] at hk
  rw [State.applyLimits, hp]
  show (State.dropTo n x.histMax 1024 a).heldCells n ≤ _
  omega

/-- A stream's attachments once the escape byte changed from `old` to `b`: those that held it are IDLE (R66). -/
def Stream.released (t : Stream) (old b : Byte) : List Attachment :=
  if b = old then t.atts else t.atts.map (fun a => { a with escape := none })

/-- A line once the escape byte changed: it is given the bytes held, as many as fit (R63, R66). -/
def Line.released (l : Line) (now held : Nat) (old b : Byte) : Line :=
  if b = old then l else l.given now (List.replicate (min held l.room) (.byte old))

/-- Node `n` under new stream settings `x`, with attachments `atts` and line `l`, from `s` to `t`. -/
structure StreamSet (n : NodeId) (x : StreamSettings) (atts : List Attachment) (l : Line) (s t : State) : Prop where
  node : NodeWork n s t
  settings : (t.streams.get n).settings = x
  held : t.heldCells n ≤ x.histMax
  offset : (t.streams.get n).offset = (s.streams.get n).offset
  atts : (t.streams.get n).atts = atts
  line : t.lines.get n = l
  pw : t.pw n = s.pw n
  wt : t.wt n = s.wt n
  port : t.port n = s.port n

section
variable {x : StreamSettings} {atts : List Attachment} {l : Line} {t : State}

/-- The limits applied and reported. -/
theorem limits_streamSet (h : CellLaw s) (hx : x.histMin ≤ x.histMax) :
    StreamSet n x (s.streams.get n).atts (s.lines.get n) s ((s.applyLimits n x).reportLimits s n) := by
  have held := applyLimits_held h n x
  have node := applyLimits_node s n x
  obtain ⟨c, a, r, p, hp⟩ := applyLimits_eq s n x
  have work := reportLimits_work (s.applyLimits n x) s n
  obtain ⟨hset, hw⟩ := reportLimits_within (s.applyLimits n x) s n n
  have hst : (s.applyLimits n x).streams.get n = ({ s.streams.get n with settings := x } : Stream).withHistory c a r := by
    rw [hp]
    exact Tab.get_put_same _ _ _
  have hs : ((s.applyLimits n x).streams.get n).settings = x := by rw [hst]; rfl
  have hmin : (s.applyLimits n x).histMin n = x.histMin := congrArg StreamSettings.histMin hs
  have hmax : (s.applyLimits n x).histMax n = x.histMax := congrArg StreamSettings.histMax hs
  rw [hmin, hmax] at hw
  have settled := work.delivers
  obtain ⟨hoff, -, -, -, hatts, -⟩ := settled.streams n
  refine ⟨node.trans (work.media (ns := (· = n))).node, hset.trans hs, hw hx held, ?_, ?_, ?_, ?_, ?_, ?_⟩
  · rw [hoff, hst]; rfl
  · rw [hatts, hst]; rfl
  · rw [settled.line_eq, hp]; rfl
  · rw [settled.pw_eq, hp]; rfl
  · rw [settled.wt_eq, hp]; rfl
  · rw [settled.port_eq, hp]; rfl

theorem StreamSet.released (h : StreamSet n x atts l s t) (hl : l.inBounds) (old : Byte) :
    StreamSet n x (atts.map (fun a => { a with escape := none }))
      (l.given s.now (List.replicate (min (atts.filter (fun a => a.escape.isSome)).length l.room) (.byte old))) s
      (t.releaseEscapes n old) := by
  obtain ⟨node, settings, held, offset, hatts, line, pw, wt, port⟩ := h
  let u : State := t.putStream n { t.streams.get n with atts := (t.streams.get n).atts.map (fun x => { x with escape := none }) }
  have hu : u.lines.get n = l := line
  have hnow : u.now = s.now := node.elsewhere.1
  have hself : u.putLine n ((u.lines.get n).given u.now (List.replicate 0 (.byte old))) = u := by
    rw [List.replicate_zero, Line.given_nil, State.putLine_self]
  have hfold := releaseByte_foldl (s := u) (n := n) (b := old) (hu ▸ hl) (Nat.zero_le _) (t.streams.get n).heldEscapes
  rw [hself, Nat.zero_add] at hfold
  have he : (t.streams.get n).heldEscapes = (atts.filter (fun a => a.escape.isSome)).length := by rw [Stream.heldEscapes, hatts]
  have hr : t.releaseEscapes n old = u.putLine n
      (l.given s.now (List.replicate (min (atts.filter (fun a => a.escape.isSome)).length l.room) (.byte old))) := by
    rw [State.releaseEscapes, hfold, hu, hnow, he]
  have hst : u.streams.get n = { t.streams.get n with atts := (t.streams.get n).atts.map (fun x => { x with escape := none }) } :=
    Tab.get_put_same _ _ _
  have node' := node.trans (releaseEscapes_node t n old)
  rw [hr] at node' ⊢
  refine ⟨node', ?_, ?_, ?_, ?_, Tab.get_put_same _ _ _, pw, wt, port⟩
  · exact (congrArg Stream.settings hst).trans settings
  · rw [State.heldCells, show (u.putLine n _).streams.get n = _ from hst]
    exact held
  · exact (congrArg Stream.offset hst).trans offset
  · exact (congrArg Stream.atts hst).trans (congrArg (List.map _) hatts)

theorem StreamSet.tested (h : StreamSet n x atts l s t) (hx : x.histMin ≤ x.histMax) : StreamSet n x atts l s (t.testBatch n) := by
  obtain ⟨node, settings, held, offset, hatts, line, pw, wt, port⟩ := h
  obtain ⟨hset, hw⟩ := testBatch_within t n n
  have hmin : t.histMin n = x.histMin := congrArg StreamSettings.histMin settings
  have hmax : t.histMax n = x.histMax := congrArg StreamSettings.histMax settings
  rw [hmin, hmax] at hw
  have settled := (testBatch_settles t n).delivers
  obtain ⟨hoff, -, -, -, ha, -⟩ := settled.streams n
  exact ⟨node.trans (testBatch_node t), hset.trans settings, hw hx held, hoff.trans offset, ha.trans hatts,
    (settled.line_eq n).trans line, (settled.pw_eq n).trans pw, (settled.wt_eq n).trans wt, (settled.port_eq n).trans port⟩

end

/-- What new stream settings make of a node but for the pool (R66). -/
theorem setStream_streamSet (h : CellLaw s) (hl : (s.lines.get n).inBounds) {x : StreamSettings} (hx : x.histMin ≤ x.histMax) :
    StreamSet n x ((s.streams.get n).released (s.streams.get n).settings.escapeByte x.escapeByte)
      ((s.lines.get n).released s.now (s.streams.get n).heldEscapes (s.streams.get n).settings.escapeByte x.escapeByte) s
      (s.setStream n x) := by
  have limits := limits_streamSet (n := n) h hx
  rw [State.setStream, Stream.released, Line.released]
  by_cases he : x.escapeByte = (s.streams.get n).settings.escapeByte
  · rw [if_pos he, if_pos he, if_pos he]
    exact limits.tested hx
  · rw [if_neg he, if_neg he, if_neg he]
    exact (limits.released hl _).tested hx

theorem clamp_bounds {lo hi : Nat} (h : lo ≤ hi) (x : Nat) : lo ≤ clamp lo hi x ∧ clamp lo hi x ≤ hi := by
  rw [clamp]
  split
  · exact ⟨Nat.le_refl _, h⟩
  · split <;> omega

theorem clampStream_limits (u : StreamSettings) : (clampStream u).histMin ≤ (clampStream u).histMax :=
  (clamp_bounds ((clamp_bounds (by decide) u.histMin).2.trans (by decide)) u.histMax).1

theorem writeStream_refused {b : List Byte} (hs : s.saving = false) (hb : b.head? = some (nodeByte n)) (hd : decodeStream b = none) :
    s.writeStream (nodeByte n) b = s.refuse .badRequest := by
  rw [State.writeStream, if_neg (not_saving hs), bodyNode_of_head hb, hd]

theorem writeStream_decided {b : List Byte} {u : StreamSettings} (hs : s.saving = false) (hb : b.head? = some (nodeByte n))
    (hd : decodeStream b = some u) : s.writeStream (nodeByte n) b =
    if s.limitsCovered n (clampStream u).histMin (clampStream u).histMax then
      ⟨s.setStream n (clampStream u), okOrAdjusted (clampStream u ≠ u), encodeStream n (clampStream u)⟩
    else s.refuse .full := by
  rw [State.writeStream, if_neg (not_saving hs), bodyNode_of_head hb, hd]

/-- The state an owned request ends in, whole. -/
theorem Owned.exec_decided {c : Instr} {h : Head} {kind : Byte} {body : List Byte} {i : StationIx} {k : RequestKind} {p : SetId}
    (ha : Owned s c h kind body i k p) {t : State} {r : Result} {b : List Byte} (hd : s.promise.owner i k p h.node body = ⟨t, r, b⟩) :
    exec c s = .next (t.answer h kind r b).finish := by
  rw [ha.exec_eq, hd]
  rfl

/-- What the end of the step that answers a NODE_STREAM write leaves of the stream settings taken (R66). -/
theorem StreamSet.ends {x : StreamSettings} {atts : List Attachment} {l : Line} {t u : State}
    (hset : StreamSet n x atts l s.promise t) (hx : x.histMin ≤ x.histMax) (h : Head) (k : Byte) (r : Result) (b : List Byte)
    (hu : (t.answer h k r b).finish = u) : ElsewhereKept n s u ∧ UplinkSettled (s.withAnswer h k r b) u ∧
      (u.streams.get n).settings = x ∧ u.heldCells n ≤ x.histMax ∧ (u.streams.get n).offset = (s.streams.get n).offset ∧
      (u.streams.get n).atts = atts ∧ u.lines.get n = l ∧ u.pw n = s.pw n ∧ u.wt n = s.wt n ∧ u.port n = s.port n := by
  obtain ⟨node, settings, held, offset, hatts, line, pw, wt, port⟩ := hset
  have settled := (finish_settles (t.answer h k r b)).delivers
  obtain ⟨hset, hw⟩ := finish_within (t.answer h k r b) n
  have hmin : t.histMin n = x.histMin := congrArg StreamSettings.histMin settings
  have hmax : t.histMax n = x.histMax := congrArg StreamSettings.histMax settings
  have hw' : t.histMin n ≤ t.histMax n → t.heldCells n ≤ t.histMax n → (t.answer h k r b).finish.heldCells n ≤ t.histMax n := hw
  rw [hmin, hmax] at hw'
  obtain ⟨hoff, -, -, -, ha, -⟩ := settled.streams n
  subst hu
  exact ⟨(node.elsewhere.answered h k r b).trans settled.elsewhere, (node.uplink.settled.answer h k r b).trans settled.uplink,
    hset.trans settings, hw' hx held, hoff.trans offset, ha.trans hatts, (settled.line_eq n).trans line,
    (settled.pw_eq n).trans pw, (settled.wt_eq n).trans wt, (settled.port_eq n).trans port⟩

/-- Settles O25. -/
theorem streamWriteAppliesTheLimits : Obligations.StreamWriteAppliesTheLimits := by
  intro s h bytes b i n u c ho hs hb law lines
  refine ⟨fun hd => ho.refused ?_, fun hd => ?_⟩
  · exact (ho.decided_node (c := .nodeStream)).trans (writeStream_refused (s := s.promise) hs hb hd)
  · intro stored r l held reserved spare covered old escapes sent
    have hspare : spare = s.pool.evictableCount := by
      refine (evictableCount_eq s.pool fun q => ?_).symm
      cases hq : s.pool.extents.get q with
      | none => rfl
      | some e => exact congrArg (e.valid && ·) (beq_eq_decide e.pins 0).symm
    have hcov : covered ↔ s.promise.limitsCovered n stored.histMin stored.histMax = true := by
      show _ ≤ _ + _ + 8 * spare ↔ _
      rw [hspare]
      exact decide_eq_true_iff.symm
    have hd' := (ho.decided_node (c := .nodeStream)).trans (writeStream_decided (s := s.promise) hs hb hd)
    refine ⟨fun hc => ho.refused (hd'.trans (if_neg (mt hcov.mpr hc))), fun hc => ?_⟩
    have hx : stored.histMin ≤ stored.histMax := clampStream_limits u
    have hset := setStream_streamSet (s := s.promise) (n := n) law (lineLaw_iff.mp lines n).1 hx
    rw [if_pos (hcov.mp hc), okOrAdjusted_eq] at hd'
    have hex := ho.exec_decided hd'
    obtain ⟨t, ht, laws⟩ := exec_laws s c
    obtain ⟨-, -, -, -, reserved, -⟩ := laws.laws.cell law
    obtain ⟨h1, h2, h3, h4, h5, h6, h7, h8, h9, h10⟩ := hset.ends (s := s) hx h 0x02 (if stored ≠ u then .adjusted else .ok)
      (encodeStream n stored) (Host.Outcome.next.inj (hex.symm.trans ht))
    exact ⟨t, ht, h1, h2, h3, h4, reserved, h5, h6, h7, h8, h9, h10⟩

end Sys2Proof.Machine
end

section
/-! PROOFS. Rules about the Media Ports' and the Image Fetch Unit's operations: what a record that is left, a request that ends and a
medium that leaves make of the state, but for the pool's work (chapters 7 to 9). -/
namespace Sys2Proof.Machine

-- Side by side, the proofs of this text would need more thread stacks than the check's memory limit holds.
set_option Elab.async false

variable {s e t u : State} {n : NodeId}

/-! ## Bytes that name an index (R183) -/

theorem first_byte {b : List Byte} (h : b ≠ []) : (b.getD 0 0xFF).toNat = byteAt b 0 := by
  cases b with
  | nil => exact absurd rfl h
  | cons x xs => rfl

theorem indexOfByte_eq {x : Byte} {f : Fin 32} : indexOfByte x = some f ↔ x.toNat = f.val := by
  rw [indexOfByte]
  split
  · exact ⟨fun h => congrArg Fin.val (Option.some.inj h), fun h => congrArg some (Fin.ext h)⟩
  · next hx => exact ⟨nofun, fun h => absurd (h ▸ f.isLt) hx⟩

theorem nodeOfByte_eq {x : Byte} {n : NodeId} : nodeOfByte x = some n ↔ x.toNat = n.val := by
  rw [nodeOfByte]
  split
  · exact ⟨fun h => congrArg Fin.val (Option.some.inj h), fun h => congrArg some (Fin.ext h)⟩
  · next hx => exact ⟨nofun, fun h => absurd (h ▸ n.isLt) hx⟩

/-! ## The pool's work beside other changes -/

theorem PoolWork.putImage (h : PoolWork e t) (r : ImageIx) (x : Option ImageRec) : PoolWork (e.putImage r x) (t.putImage r x) := by
  obtain ⟨st, p, nd, fs, q, rfl, hst⟩ := h
  exact ⟨st, p, nd, fs, q, rfl, hst⟩

theorem PoolWork.putWrite (h : PoolWork e t) (n : NodeId) (x : WriteEntry) : PoolWork (e.putWrite n x) (t.putWrite n x) := by
  obtain ⟨st, p, nd, fs, q, rfl, hst⟩ := h
  exact ⟨st, p, nd, fs, q, rfl, hst⟩

theorem PoolWork.raise (h : PoolWork e t) (id : SetId) (ev : Event) : PoolWork (e.raise id ev) (t.raise id ev) := by
  obtain ⟨st, p, nd, fs, q, rfl, hst⟩ := h
  cases id <;> exact ⟨st, p, nd, fs, q, rfl, hst⟩

theorem PoolWork.outstanding_eq (h : PoolWork s t) (n : NodeId) : t.outstanding n = s.outstanding n := by
  rw [State.outstanding, State.outstanding, h.writes_eq]

theorem PoolWork.unsentClose_eq (h : PoolWork s t) : t.images.unsentClose = s.images.unsentClose := by
  obtain ⟨st, p, nd, fs, q, rfl, hst⟩ := h
  rfl

theorem PoolWork.closeFrame_eq (h : PoolWork s t) (x : ImageRec) : t.closeFrame x = s.closeFrame x := by
  obtain ⟨st, p, nd, fs, q, rfl, hst⟩ := h
  rfl

theorem PoolWork.frames (h : PoolWork s t) {f : TxFrame} (hf : f ∈ s.up.frames) : f ∈ t.up.frames := h.uplink.mem f hf

/-! ## A record is left (R123, R145) -/

/-- The state with record `r`, which was `x`, left to the users `left`: removed where none is left. -/
def State.released (s : State) (r : ImageIx) (x : ImageRec) (left : BitVec 8) : State :=
  if left = 0 then (s.closeRecord x).putImage r none else s.putImage r (some { x with users := left })

theorem putImage_putImage (s : State) (r : ImageIx) (x y : Option ImageRec) : (s.putImage r x).putImage r y = s.putImage r y := by
  simp only [State.putImage, State.putImages, Tab.put_put]

theorem image_putImage (s : State) (r q : ImageIx) (x : Option ImageRec) :
    (s.putImage r x).image q = if q = r then x else s.image q := Tab.get_put _ _ _ _

/-- A close does not look at the record's users or place in the table. -/
theorem closeRecord_putImage (s : State) (r : ImageIx) (x : ImageRec) (y : Option ImageRec) (m : BitVec 8) :
    (s.putImage r y).closeRecord { x with users := m } = (s.closeRecord x).putImage r y := by
  rw [State.closeRecord, State.closeRecord]
  show (if x.isOpening then _ else _) = _
  split
  · rfl
  · show (if 1 ≤ s.up.outside then _ else _) = _
    split <;> rfl

/-- A record removed: its IMAGE_CLOSE, its place FREE, and the pool's work. -/
theorem removeRecord_works {r : ImageIx} {x : ImageRec} (h : s.image r = some x) :
    PoolWork ((s.closeRecord x).putImage r none) (s.removeRecord r) := by
  have drops : PoolWork (s.closeRecord x) ((s.fetchesOf r).foldl State.dropFetch (s.closeRecord x)) := foldl_dropFetch_work _ _
  have needs := drops.trans (putNeeds_work _ (((s.fetchesOf r).foldl State.dropFetch (s.closeRecord x)).images.needs.filter
    (fun y => y.image ≠ r)))
  have owned := (needs.trans (putPool_work _ (((s.fetchesOf r).foldl State.dropFetch (s.closeRecord x)).pool.setOwned
    x.server x.image false))).putImage r none
  rw [State.removeRecord, h]
  dsimp only
  split
  · exact owned
  · exact (owned.trans (putPool_work _ _)).trans (tryNeeds_work _)

theorem leaveRecord_works {r : ImageIx} {x : ImageRec} (h : s.image r = some x) :
    PoolWork (s.released r x (withoutNode x.users n)) (s.leaveRecord n r) := by
  rw [State.leaveRecord, h, State.released]
  dsimp only
  split
  · have hx : (s.putImage r (some { x with users := withoutNode x.users n })).image r = some { x with users := withoutNode x.users n } := by
      rw [image_putImage, if_pos rfl]
    have hw := removeRecord_works hx
    rwa [closeRecord_putImage, putImage_putImage] at hw
  · exact .refl _

theorem leaveRecord_none {r : ImageIx} (h : s.image r = none) : s.leaveRecord n r = s := by
  rw [State.leaveRecord, h]

/-- Node `n` out of the record that medium reference `m` names. -/
def State.leaving (s : State) (n : NodeId) (m : Option MediumRef) : State :=
  match m.bind (fun m => (s.image m.image).map (fun x => (m.image, x))) with
  | some (r, x) => s.released r x (withoutNode x.users n)
  | none => s

theorem leaving_none : s.leaving n none = s := rfl

theorem leaving_gone {m : MediumRef} (h : s.image m.image = none) : s.leaving n (some m) = s := by
  rw [State.leaving, Option.bind_some, h]
  rfl

theorem leaving_some {m : MediumRef} {x : ImageRec} (h : s.image m.image = some x) :
    s.leaving n (some m) = s.released m.image x (withoutNode x.users n) := by
  rw [State.leaving, Option.bind_some, h]
  rfl

theorem released_putPort (r : ImageIx) (x : ImageRec) (m : BitVec 8) (k : NodeId) (q : MediaPort) :
    (s.putPort k q).released r x m = (s.released r x m).putPort k q := by
  rw [State.released, State.released]
  split
  · rw [State.closeRecord, State.closeRecord]
    split
    · rfl
    · show (if 1 ≤ s.up.outside then _ else _ : State).putImage r none = _
      split <;> rfl
  · rfl

/-- A port whose medium entered EMPTY (R123). -/
def MediaPort.emptied (p : MediaPort) (lock changed : Bool) : MediaPort :=
  { p with medium := .empty, lock := lock, changed := changed, bootFirst := false, grantBoot := false }

/-- A medium emptied (R123). -/
theorem emptyMedium_works (s : State) (n : NodeId) (lock changed : Bool) :
    PoolWork ((s.putPort n ((s.port n).emptied lock changed)).leaving n (s.port n).medium.ref?) (s.emptyMedium n lock changed) := by
  cases hm : (s.port n).medium.ref? with
  | none =>
    have he : s.emptyMedium n lock changed = s.putPort n ((s.port n).emptied lock changed) := by
      simp only [State.emptyMedium, hm]
      rfl
    rw [he]
    exact .refl _
  | some m =>
    have he : s.emptyMedium n lock changed = (s.putPort n ((s.port n).emptied lock changed)).leaveRecord n m.image := by
      simp only [State.emptyMedium, hm]
      rfl
    rw [he]
    generalize s.putPort n ((s.port n).emptied lock changed) = a
    cases hx : a.image m.image with
    | none => rw [leaving_gone hx, leaveRecord_none hx]; exact .refl a
    | some x => rw [leaving_some hx]; exact leaveRecord_works hx

/-! ## What a record that is left leaves -/

theorem closeRecord_still (s : State) (x : ImageRec) : (s.closeRecord x).ports = s.ports ∧ (s.closeRecord x).notices = s.notices ∧
    (s.closeRecord x).images.writes = s.images.writes ∧ (s.closeRecord x).images.images = s.images.images := by
  rw [State.closeRecord]
  split
  · exact ⟨rfl, rfl, rfl, rfl⟩
  · split <;> exact ⟨rfl, rfl, rfl, rfl⟩

/-- A closed record's IMAGE_CLOSE is queued or counted unsent (R145). -/
theorem closeRecord_closed (s : State) (x : ImageRec) : Closed x s (s.closeRecord x) := by
  rw [Closed, State.closeRecord]
  by_cases ho : x.isOpening = true
  · rw [if_pos ho, if_pos ho]
  · rw [if_neg ho, if_neg ho]
    split
    · refine .inl ?_
      rw [frames_enqueue]
      exact List.mem_append_right _ (List.mem_singleton.mpr rfl)
    · exact .inr rfl

theorem MediaOnly.refl (s : State) : MediaOnly s s :=
  ⟨rfl, rfl, rfl, rfl, rfl, rfl, rfl, rfl, rfl, rfl, rfl, rfl, rfl, fun _ => .refl _, .refl s, rfl, rfl, rfl, rfl⟩

theorem MediaOnly.trans (h : MediaOnly s t) (k : MediaOnly t u) : MediaOnly s u := by
  obtain ⟨a1, a2, a3, a4, a5, a6, a7, a8, a9, a10, a11, a12, a13, a14, a15, a16, a17, a18, a19⟩ := h
  obtain ⟨b1, b2, b3, b4, b5, b6, b7, b8, b9, b10, b11, b12, b13, b14, b15, b16, b17, b18, b19⟩ := k
  exact ⟨b1.trans a1, b2.trans a2, b3.trans a3, b4.trans a4, b5.trans a5, b6.trans a6, b7.trans a7, b8.trans a8, b9.trans a9,
    b10.trans a10, b11.trans a11, b12.trans a12, b13.trans a13, fun n => (a14 n).trans (b14 n), a15.trans b15, b16.trans a16,
    b17.trans a17, b18.trans a18, b19.trans a19⟩

theorem Delivers.mediaOnly (h : Delivers s t) : MediaOnly s t := by
  obtain ⟨h1, h2, h3, h4, h5, h6, h7, h8, h9, h10, h11, h12, h13, h14, hs, hu, hi, hn⟩ := h
  obtain ⟨-, -, i3, i4, i5, -, i7⟩ := hi
  exact ⟨h1, h2, h3, h4, h5, h6, h7, h8, h9, h11, h12, h13, h14, hs, hu, i3, i4, i5, i7⟩

theorem PoolWork.mediaOnly (h : PoolWork s t) : MediaOnly s t := h.delivers.mediaOnly

theorem putPort_mediaOnly (s : State) (n : NodeId) (q : MediaPort) : MediaOnly s (s.putPort n q) := .refl s

theorem closeRecord_mediaOnly (s : State) (x : ImageRec) : MediaOnly s (s.closeRecord x) := by
  rw [State.closeRecord]
  split
  · exact .refl s
  · split
    · exact (enqueue_settles s _).delivers.mediaOnly
    · exact .refl s

theorem released_mediaOnly (s : State) (r : ImageIx) (x : ImageRec) (m : BitVec 8) : MediaOnly s (s.released r x m) := by
  rw [State.released]
  split
  · exact closeRecord_mediaOnly s x
  · exact .refl s

theorem released_image_ne {r q : ImageIx} (h : q ≠ r) (x : ImageRec) (m : BitVec 8) : (s.released r x m).image q = s.image q := by
  obtain ⟨-, -, -, hi⟩ := closeRecord_still s x
  rw [State.released]
  split
  · rw [image_putImage, if_neg h]
    exact congrArg (Tab.get · q) hi
  · rw [image_putImage, if_neg h]

theorem released_image (s : State) (r : ImageIx) (x : ImageRec) (m : BitVec 8) :
    (s.released r x m).image r = if m = 0 then none else some { x with users := m } := by
  rw [State.released]
  split
  · rw [image_putImage, if_pos rfl]
  · rw [image_putImage, if_pos rfl]

theorem released_closed (s : State) (r : ImageIx) (x : ImageRec) : Closed x s (s.released r x 0) := closeRecord_closed s x

theorem released_still (s : State) (r : ImageIx) (x : ImageRec) (m : BitVec 8) : (s.released r x m).ports = s.ports ∧
    (s.released r x m).notices = s.notices ∧ (s.released r x m).images.writes = s.images.writes := by
  obtain ⟨h1, h2, h3, -⟩ := closeRecord_still s x
  rw [State.released]
  split
  · exact ⟨h1, h2, h3⟩
  · exact ⟨rfl, rfl, rfl⟩

theorem leaving_still (s : State) (n : NodeId) (m : Option MediumRef) : (s.leaving n m).ports = s.ports ∧
    (s.leaving n m).notices = s.notices ∧ (s.leaving n m).images.writes = s.images.writes ∧ MediaOnly s (s.leaving n m) := by
  rw [State.leaving]
  split
  · next r x _ =>
    obtain ⟨h1, h2, h3⟩ := released_still s r x (withoutNode x.users n)
    exact ⟨h1, h2, h3, released_mediaOnly s r x _⟩
  · exact ⟨rfl, rfl, rfl, .refl s⟩

/-! ## `Released` (R145) -/

/-- `Released` looks at the medium's reference, the records and what a close needs. -/
theorem Released.of_same {a : State} (h : Released n a t) (hm : (a.port n).medium.ref? = (s.port n).medium.ref?)
    (hi : ∀ r, a.image r = s.image r) (hc : ∀ x, a.closeFrame x = s.closeFrame x)
    (hu : a.images.unsentClose = s.images.unsentClose) : Released n s t := by
  unfold Released at h ⊢
  rw [hm] at h
  cases hr : (s.port n).medium.ref? with
  | none => trivial
  | some m =>
    rw [hr] at h
    simp only [hi, hc, hu] at h
    exact h

theorem ImagesSettled.image_none (h : ImagesSettled s t) {r : ImageIx} (hr : s.image r = none) : t.image r = none := by
  have := h.1 r
  rw [hr] at this
  exact Option.map_eq_none_iff.mp this

/-- What free descriptors do leaves a released record released. -/
theorem Released.delivers (h : Released n s t) (hd : Delivers t u) : Released n s u := by
  have hi := hd.images
  unfold Released at h ⊢
  cases hr : (s.port n).medium.ref? with
  | none => trivial
  | some m =>
    rw [hr] at h
    obtain ⟨ho, h⟩ := h
    refine ⟨fun r hr => (hi.1 r).trans (ho r hr), ?_⟩
    cases hx : s.image m.image with
    | none => trivial
    | some x =>
      rw [hx] at h
      dsimp only at h ⊢
      split
      · next hl =>
        rw [if_pos hl] at h
        exact ⟨hi.image_none h.1, fun hp => (h.2 hp).imp (hd.kept.mem _) hi.2.2.2.2.2.1.trans⟩
      · next hl =>
        rw [if_neg hl] at h
        exact (hi.1 _).trans h

theorem leaving_released (hs : t.su = s.su) (hi : t.images = s.images) :
    Released n s (t.leaving n (s.port n).medium.ref?) := by
  have image (r : ImageIx) : t.image r = s.image r := by rw [State.image, hi, State.image]
  unfold Released
  cases hm : (s.port n).medium.ref? with
  | none => trivial
  | some m =>
    dsimp only
    cases hx : s.image m.image with
    | none =>
      rw [leaving_gone ((image _).trans hx)]
      exact ⟨fun r _ => by rw [image], trivial⟩
    | some x =>
      rw [leaving_some ((image _).trans hx)]
      refine ⟨fun r hr => by rw [released_image_ne hr, image], ?_⟩
      dsimp only
      split
      · next hl =>
        have hw : withoutNode x.users n = 0 := hl
        rw [released_image, if_pos hw, hw]
        refine ⟨rfl, fun ho => ?_⟩
        have := released_closed t m.image x
        rw [Closed, if_neg (by rw [ho]; nofun), hi] at this
        have hc : t.closeFrame x = s.closeFrame x := by simp only [State.closeFrame, State.addressOf, State.station, hs]
        rwa [hc] at this
      · next hl =>
        have hw : withoutNode x.users n ≠ 0 := hl
        rw [released_image, if_neg hw]
        rfl

/-! ## A request ends (R121) -/

theorem endRequest_works (h : (s.port n).active.isSome) (k : SenseKey) (i : Option (BitVec 32)) :
    PoolWork (s.putPort n { (s.port n).dropped (s.outstanding n) with sense := ⟨k, i⟩, usb := .status k }) (s.endRequest n k i) := by
  have hx := dropActive_putPort s n { (s.port n).dropped (s.outstanding n) with sense := ⟨k, i⟩, usb := .status k }
  have hp : (s.dropActive n).port n = (s.port n).dropped (s.outstanding n) := by
    rw [port_dropActive, if_pos h]
    exact State.port_putPort_same _ _ _
  rw [State.endRequest, State.status, State.putSense, State.give, hp, State.port_putPort_same, putPort_putPort]
  exact hx

theorem endNotReady_works (s : State) (n : NodeId) :
    PoolWork (s.putPort n ((s.port n).endedNotReady (s.outstanding n))) (s.endNotReady n) := by
  rw [State.endNotReady, MediaPort.endedNotReady]
  by_cases h : (s.port n).active.isSome = true
  · rw [if_pos h, if_pos h]
    exact endRequest_works h _ _
  · rw [if_neg h, if_neg h]
    rw [putPort_self]
    exact .refl s

theorem endedNotReady_medium (p : MediaPort) (o : Bool) : (p.endedNotReady o).medium = p.medium := by
  rw [MediaPort.endedNotReady]
  split <;> rfl

/-! ## A medium leaves its port (R123, R136) -/

/-- A medium emptied after the pool's work of a port's change. -/
theorem PoolWork.emptyMedium {q : MediaPort} (h : PoolWork (s.putPort n q) t) (hq : q.medium = (s.port n).medium) (lock changed : Bool) :
    (t.emptyMedium n lock changed).port n = q.emptied lock changed ∧ Released n s (t.emptyMedium n lock changed) ∧
      (t.emptyMedium n lock changed).notices = s.notices ∧ (t.emptyMedium n lock changed).images.writes = s.images.writes := by
  have ht : t.port n = q := (h.port_eq n).trans (State.port_putPort_same _ _ _)
  have hw := emptyMedium_works t n lock changed
  obtain ⟨l1, l2, l3, -⟩ := leaving_still (t.putPort n ((t.port n).emptied lock changed)) n (t.port n).medium.ref?
  have hr : Released n t ((t.putPort n ((t.port n).emptied lock changed)).leaving n (t.port n).medium.ref?) :=
    leaving_released (t := t.putPort n ((t.port n).emptied lock changed)) rfl rfl
  refine ⟨?_, ?_, ?_, ?_⟩
  · rw [hw.port_eq, State.port, l1, ← ht]
    exact Tab.get_put_same _ _ _
  · refine (hr.delivers hw.delivers).of_same ?_ (fun r => h.image_eq r) h.closeFrame_eq h.unsentClose_eq
    rw [ht, hq]
  · exact hw.notices_eq.trans (l2.trans h.notices_eq)
  · exact hw.writes_eq.trans (l3.trans h.writes_eq)

/-- A medium that is LOADING or PRESENT. -/
def Medium.inUse (m : Medium) : Prop := (∃ r, m = .loading r) ∨ ∃ r b, m = .present r b

theorem eject_emptied {c : EjectCause} (hm : (s.port n).medium.inUse) (ho : (s.port n).medium.isPresent = false ∨ s.outstanding n = false) :
    s.eject n c = (s.endNotReady n).finishEject n c := by
  have hp : ((s.endNotReady n).port n).medium = (s.port n).medium := medium_endNotReady s n
  have hout : (s.endNotReady n).outstanding n = s.outstanding n := (endNotReady_works s n).outstanding_eq n
  rw [State.eject]
  rcases hm with ⟨r, hr⟩ | ⟨r, b, hr⟩
  · simp only [hp, hr]
  · rw [hr] at ho
    simp only [hp, hr, hout, ho.resolve_left nofun, Bool.false_eq_true, if_false]

theorem eject_ejecting {c : EjectCause} {r : MediumRef} {b : Nat} (hm : (s.port n).medium = .present r b) (ho : s.outstanding n = true) :
    s.eject n c = (s.endNotReady n).putPort n
      { (s.endNotReady n).port n with medium := .ejecting r b c, bootFirst := false, grantBoot := false } := by
  have hp : ((s.endNotReady n).port n).medium = (s.port n).medium := medium_endNotReady s n
  have hout : (s.endNotReady n).outstanding n = s.outstanding n := (endNotReady_works s n).outstanding_eq n
  rw [State.eject]
  simp only [hp, hm, hout, ho, if_true]

/-- A taken eject (R136). -/
theorem eject_ejected (hm : (s.port n).medium.inUse) (c : EjectCause) : Ejected n c id s (s.eject n c) := by
  have media := eject_media (ns := (· = n)) s rfl c
  have hw := endNotReady_works s n
  have hq : ((s.port n).endedNotReady (s.outstanding n)).medium = (s.port n).medium := endedNotReady_medium _ _
  refine ⟨media.pw_eq n, media.wt_eq n, media.console, media.node.elsewhere, ?_⟩
  have emptied (ho : (s.port n).medium.isPresent = false ∨ s.outstanding n = false) :
      (s.eject n c).port n = id (((s.port n).endedNotReady (s.outstanding n)).emptied false true) ∧ Released n s (s.eject n c) ∧
        NoticesSettled (s.raise (some n) (.mediumEjected c)) (s.eject n c) := by
    obtain ⟨h1, h2, h3, -⟩ := hw.emptyMedium hq false true
    rw [eject_emptied hm ho]
    refine ⟨h1, h2, .of_eq ?_⟩
    simp only [State.finishEject, State.raise, State.putSet, State.pendingSet, h3]
  split
  · next m b hmed ho =>
    rw [eject_ejecting hmed ho]
    refine ⟨?_, ?_, .of_eq hw.notices_eq⟩
    · rw [State.port_putPort_same, (hw.port_eq n).trans (State.port_putPort_same _ _ _)]
      rfl
    · exact hw.delivers.images
  · next hne =>
    refine emptied ?_
    rcases hm with ⟨r, hr⟩ | ⟨r, b, hr⟩
    · exact .inl (by rw [hr]; rfl)
    · exact .inr (Bool.eq_false_iff.mpr fun ho => hne r b hr ho)

/-- What free descriptors do leaves an eject as it is. -/
theorem Ejected.delivers {c : EjectCause} {g : MediaPort → MediaPort} (h : Ejected n c g s t) (hd : Delivers t u) : Ejected n c g s u := by
  obtain ⟨h1, h2, h3, h4, h5⟩ := h
  have hnow : t.now = s.now := h4.1
  have hsu : t.su = s.su := h4.2.2.2.1
  refine ⟨(hd.pw_eq n).trans h1, (hd.wt_eq n).trans h2, h3.trans hd.console, h4.trans hd.elsewhere, ?_⟩
  split
  · next m b hm ho =>
    simp only [hm, ho] at h5 ⊢
    obtain ⟨p1, p2, p3⟩ := h5
    exact ⟨(hd.port_eq n).trans p1, p2.trans hd.images, hd.notices_trans p3 hsu hnow⟩
  · next hne =>
    split at h5
    · next m b hm ho => exact (hne m b hm ho).elim
    · obtain ⟨p1, p2, p3⟩ := h5
      exact ⟨(hd.port_eq n).trans p1, p2.delivers hd, hd.notices_trans p3 hsu hnow⟩

/-- An eject and what else the command does to the port. -/
theorem Ejected.putPort {c : EjectCause} (h : Ejected n c id s t) (g : MediaPort → MediaPort) :
    Ejected n c g s (t.putPort n (g (t.port n))) := by
  obtain ⟨h1, h2, h3, h4, h5⟩ := h
  refine ⟨h1, h2, h3, h4.trans (putPort_node t _).elsewhere, ?_⟩
  split
  · next m b hm ho =>
    simp only [hm, ho] at h5 ⊢
    obtain ⟨p1, p2, p3⟩ := h5
    exact ⟨(State.port_putPort_same _ _ _).trans (congrArg g p1), p2, p3⟩
  · next hne =>
    split at h5
    · next m b hm ho => exact (hne m b hm ho).elim
    · obtain ⟨p1, p2, p3⟩ := h5
      exact ⟨(State.port_putPort_same _ _ _).trans (congrArg g p1), p2, p3⟩

theorem Released.putUp {x : Uplink} (h : Released n s t) (hk : FramesKept t (t.putUp x)) : Released n s (t.putUp x) := by
  unfold Released at h ⊢
  cases hr : (s.port n).medium.ref? with
  | none => trivial
  | some m =>
    rw [hr] at h
    obtain ⟨ho, h⟩ := h
    refine ⟨ho, ?_⟩
    cases hx : s.image m.image with
    | none => trivial
    | some y =>
      rw [hx] at h
      dsimp only at h ⊢
      split
      · next hl =>
        rw [if_pos hl] at h
        exact ⟨h.1, fun hp => (h.2 hp).imp_left (hk.mem _)⟩
      · next hl =>
        rw [if_neg hl] at h
        exact h

/-- Frames that join the queue leave an eject as it is. -/
theorem Ejected.putUp {c : EjectCause} {g : MediaPort → MediaPort} {x : Uplink} (h : Ejected n c g s t)
    (hk : FramesKept t (t.putUp x)) : Ejected n c g s (t.putUp x) := by
  obtain ⟨h1, h2, h3, h4, h5⟩ := h
  have hnow : t.now = s.now := h4.1
  have hsu : t.su = s.su := h4.2.2.2.1
  have notices {a : State} (ha : a.su = s.su) (hb : a.now = s.now) (hn : NoticesSettled a t) : NoticesSettled a (t.putUp x) :=
    .trans (hsu.trans ha.symm) (hnow.trans hb.symm) hk hn (.of_eq rfl)
  refine ⟨h1, h2, h3, h4, ?_⟩
  split
  · next m b hm ho =>
    simp only [hm, ho] at h5 ⊢
    obtain ⟨p1, p2, p3⟩ := h5
    exact ⟨p1, p2, notices rfl rfl p3⟩
  · next hne =>
    split at h5
    · next m b hm ho => exact (hne m b hm ho).elim
    · obtain ⟨p1, p2, p3⟩ := h5
      exact ⟨p1, p2.putUp hk, notices rfl rfl p3⟩

end Sys2Proof.Machine
end

section
/-! PROOFS. The obligations about virtual media at the node: ejects, inserts, reads and writes (chapter 7). -/
namespace Sys2Proof.Machine

-- Side by side, the proofs of this text would need more thread stacks than the check's memory limit holds.
set_option Elab.async false

variable {s e t u : State} {n : NodeId}

/-! ## Ejects (R136, R137) -/

theorem Medium.inUse_iff {m : Medium} : m.inUse ↔ ¬(m = .empty ∨ m.code = 3) := by
  cases m with
  | empty => exact iff_of_false (by rintro (⟨r, h⟩ | ⟨r, b, h⟩) <;> cases h) (fun h => h (.inl rfl))
  | loading r => exact iff_of_true (.inl ⟨r, rfl⟩) (fun h => h.elim nofun nofun)
  | present r b => exact iff_of_true (.inr ⟨r, b, rfl⟩) (fun h => h.elim nofun nofun)
  | ejecting r b c => exact iff_of_false (by rintro (⟨r, h⟩ | ⟨r, b, h⟩) <;> cases h) (fun h => h (.inr rfl))

section
variable {i : StationIx} {f : Bool}

theorem stationEject_gone (h : ¬(s.port n).medium.inUse) : s.stationEject n i f = (s, .noEffect) := by
  rw [State.stationEject]
  cases hm : (s.port n).medium with
  | empty => rfl
  | ejecting r b c => rfl
  | loading r => exact absurd (.inl ⟨r, hm⟩) h
  | present r b => exact absurd (.inr ⟨r, b, hm⟩) h

theorem stationEject_locked (h : (s.port n).medium.inUse) (hl : (s.port n).lock = true) (hf : f = false) :
    s.stationEject n i f = (s, .locked) := by
  rw [State.stationEject]
  rcases h with ⟨r, h⟩ | ⟨r, b, h⟩ <;> simp only [h, hl, hf, Bool.not_false, Bool.and_true, if_true]

theorem stationEject_taken (h : (s.port n).medium.inUse) (hl : (s.port n).lock = false ∨ f = true) :
    s.stationEject n i f = (s.eject n (.station i f), .ok) := by
  have hc : ((s.port n).lock && !f) = false := by
    rcases hl with hl | hl <;> rw [hl]
    · rfl
    · exact Bool.and_false _
  rw [State.stationEject]
  rcases h with ⟨r, h⟩ | ⟨r, b, h⟩ <;> simp only [h, hc, Bool.false_eq_true, if_false]

end

theorem nodeEject_taken (h : (s.port n).medium.inUse) : s.nodeEject n = (s.eject n .node).status n .none none := by
  rw [State.nodeEject]
  rcases h with ⟨r, h⟩ | ⟨r, b, h⟩ <;> rw [h]

/-- An eject and its answer. -/
theorem Ejected.answered {c : EjectCause} (h : Ejected n c id s.promise t) (hu : UplinkGrows s.promise t) {hd : Head} {k : Byte} {r : Result}
    {b : List Byte} (hv : Settles (t.answer hd k r b) u) :
    Ejected n c id s u ∧ UplinkSettled (s.withAnswer hd k r b) u := by
  refine ⟨Ejected.delivers (t := t.answer hd k r b) ?_ hv.delivers, (hu.settled.answer hd k r b).trans hv.delivers.uplink⟩
  exact (show Ejected n c id s t from h).putUp (framesKept_append t [answerFrame hd k r b])

/-- Settles O53. -/
theorem ejectsEmptyTheMedium : Obligations.EjectsEmptyTheMedium := by
  intro s h bytes body i n flags p gone ended
  have inUse (hg : ¬gone) : (s.port n).medium.inUse := Medium.inUse_iff.mpr hg
  have notInUse (hg : gone) : ¬(s.port n).medium.inUse := fun hm => Medium.inUse_iff.mp hm hg
  refine ⟨fun ho => ?_, fun hp => ?_⟩
  · have decided (hb : body = [flags]) : s.promise.owner i .mediaEject (some n) h.node body =
        ⟨(s.promise.stationEject n i (flags.getLsbD 0)).1, (s.promise.stationEject n i (flags.getLsbD 0)).2, []⟩ := by
      rw [hb]
      rfl
    refine ⟨fun hb => ho.refused ?_, fun hb hg => ho.refused ?_, fun hb hg hl hf => ho.refused ?_, fun hb hg hl => ?_⟩
    · show s.promise.takeEject i n body = _
      rw [State.takeEject.eq_def]
      split
      · exact absurd rfl hb
      · rfl
    · rw [decided hb, stationEject_gone (s := s.promise) (notInUse hg)]
      rfl
    · rw [decided hb, stationEject_locked (s := s.promise) (inUse hg) hl hf]
      rfl
    · have hd := decided hb
      rw [stationEject_taken (s := s.promise) (inUse hg) hl] at hd
      obtain ⟨v, hv, hs⟩ := ho.ends hd
      obtain ⟨h1, h2⟩ := (eject_ejected (s := s.promise) (inUse hg) (.station i (flags.getLsbD 0))).answered
        (eject_media (ns := (· = n)) s.promise rfl _).uplink hs
      exact ⟨v, hv, h1, h2⟩
  · have run {e : State} {c : Instr} (hc : c = .ejectByNode n) (he : s.offerRequest n (·.nodeEject n) = e) : Completes c s e :=
      completes_of_eq (f := (·.offerRequest n (·.nodeEject n))) (hc ▸ rfl) hp he
    refine ⟨fun hx => run rfl (offerRequest_refused hx _), fun ha hn => ⟨fun hm => ?_, fun hm => ?_, fun hg => ?_⟩⟩
    · refine run rfl ((offerRequest_taken ha hn _).trans ?_)
      show s.nodeEject n = _
      rw [State.nodeEject, show (s.port n).medium = .empty from hm]
      exact status_eq s n _ _
    · refine run rfl ((offerRequest_taken ha hn _).trans ?_)
      show s.nodeEject n = _
      rw [State.nodeEject]
      cases hx : (s.port n).medium with
      | ejecting _ _ _ => exact status_eq s n _ _
      | empty | loading _ | present _ _ => rw [show p.medium = _ from hx] at hm; cases hm
    · obtain ⟨t, ht, hs⟩ := exec_settles (c := .ejectByNode n) (f := (·.offerRequest n (·.nodeEject n))) rfl hp
      rw [offerRequest_taken ha hn, nodeEject_taken (inUse hg), status_eq] at hs
      exact ⟨t, ht, ((eject_ejected (inUse hg) .node).putPort (ended .none)).delivers hs.delivers,
        (eject_media (ns := (· = n)) s rfl .node).uplink.settled.trans hs.delivers.uplink⟩

/-! ## Inserts (R134, R135) -/

section
variable {b : List Byte} {srv : StationIx} {img : BitVec 32} {size : BlockSize} {writable : Bool}

theorem blockSizeOf_none {k : Nat} (h : k ≠ 512 ∧ k ≠ 2048) : blockSizeOf k = none := by
  rw [blockSizeOf, if_neg h.1, if_neg h.2]

theorem blockSizeOf_bytes (z : BlockSize) : blockSizeOf z.bytes = some z := by cases z <;> rfl

theorem bitCode_none {k : Nat} (h : 1 < k) : bitCode k = none := by
  rw [bitCode, if_neg (by omega), if_neg (by omega)]

theorem takeInsert_malformed (h : b.length ≠ 8 ∨ 31 < byteAt b 0 ∨ (field b 5 2 ≠ 512 ∧ field b 5 2 ≠ 2048) ∨ 1 < byteAt b 7 ∨
    (field b 5 2 = 2048 ∧ byteAt b 7 = 1)) : s.takeInsert n b = s.refuse .badRequest := by
  rw [State.takeInsert]
  split
  · next v z w hv hz hw =>
    refine if_pos ?_
    by_contra hx
    obtain ⟨hl, hwz⟩ := not_or.mp hx
    have hl8 : b.length = 8 := not_not.mp hl
    have hv31 : ¬31 < byteAt b 0 := by
      have hb : b ≠ [] := fun hb => by rw [hb] at hl8; cases hl8
      have := indexOfByte_eq.mp hv
      rw [first_byte hb] at this
      omega
    rcases h with h | h | h | h | ⟨h1, h2⟩
    · exact h hl8
    · exact hv31 h
    · rw [blockSizeOf_none h] at hz; cases hz
    · rw [bitCode_none h] at hw; cases hw
    · rw [h1] at hz
      rw [h2] at hw
      cases hz
      cases hw
      exact hwz ⟨rfl, rfl⟩
  · rfl

/-- The body of a MEDIA_INSERT (R134, R183). -/
def insertBody (srv : StationIx) (img : BitVec 32) (size : BlockSize) (writable : Bool) : List Byte :=
  be 1 srv.val ++ be 4 img.toNat ++ be 2 size.bytes ++ [if writable then 1 else 0]

theorem takeInsert_body (h : writable = true → size = .b512) : s.takeInsert n (insertBody srv img size writable) =
    ⟨(s.insert n srv img size writable).1, (s.insert n srv img size writable).2, []⟩ := by
  have h1 : indexOfByte ((insertBody srv img size writable).getD 0 0xFF) = some srv := by
    rw [indexOfByte_eq]
    show (BitVec.ofNat 8 (srv.val / 1)).toNat = srv.val
    rw [BitVec.toNat_ofNat]
    omega
  have h2 : blockSizeOf (field (insertBody srv img size writable) 5 2) = some size := by
    have hf : ((insertBody srv img size writable).drop 5).take 2 = be 2 size.bytes := by
      simp only [insertBody, be, List.cons_append, List.nil_append, List.drop_succ_cons, List.drop_zero, List.take_succ_cons,
        List.take_zero]
    have hz : ofBe (be 2 size.bytes) = size.bytes := by cases size <;> decide
    rw [field, hf, hz, blockSizeOf_bytes]
  have h3 : bitCode (byteAt (insertBody srv img size writable) 7) = some writable := by cases writable <;> rfl
  have h4 : BitVec.ofNat 32 (field (insertBody srv img size writable) 1 4) = img := by
    have hf : ((insertBody srv img size writable).drop 1).take 4 = be 4 img.toNat := by
      simp only [insertBody, be, List.cons_append, List.nil_append, List.drop_succ_cons, List.drop_zero, List.take_succ_cons,
        List.take_zero]
    rw [field, hf, ofBe_be_offset]
  have h5 : (insertBody srv img size writable).length = 8 := rfl
  rw [State.takeInsert]
  simp only [h1, h2, h3, h4, h5]
  refine if_neg ?_
  rintro (hx | ⟨hx, hz⟩)
  · exact hx rfl
  · rw [h hx] at hz
    cases hz

end

section
variable {srv : StationIx} {img : BitVec 32} {size : BlockSize} {writable : Bool} {r : ImageIx} {x : ImageRec}

theorem insert_wrongState (h : (s.port n).medium ≠ .empty) : s.insert n srv img size writable = (s, .wrongState) := by
  rw [State.insert]
  exact if_pos h

theorem insert_notPermitted (h : (s.port n).medium = .empty) (hs : s.mayServe srv n = false) :
    s.insert n srv img size writable = (s, .notPermitted) := by
  rw [State.insert, if_neg (not_not.mpr h)]
  exact if_pos (by rw [hs]; rfl)

/-- The record of a server and an image id is found (R143). -/
theorem findImage_eq (law : ImageLaw s) (hx : s.image r = some x) (h1 : x.server = srv) (h2 : x.image = img) :
    s.findImage srv img = some r := by
  obtain ⟨-, -, unique, -⟩ := law
  cases hf : s.findImage srv img with
  | none => exact absurd ⟨h1, h2⟩ (findImage_none s hf hx)
  | some q =>
    obtain ⟨y, hy, h3, h4⟩ := findImage_some s hf
    rw [unique q r y x hy hx (h3.trans h1.symm) (h4.trans h2.symm)]

variable (he : (s.port n).medium = .empty) (hs : s.mayServe srv n = true)
include he hs

section
variable (hf : s.findImage srv img = some r) (hx : s.image r = some x)
include hf hx

theorem insert_inUse (hw : x.writable = true ∨ writable = true) : s.insert n srv img size writable = (s, .inUse) := by
  rw [State.insert, if_neg (not_not.mpr he), if_neg (by rw [hs]; nofun)]
  simp only [hf, hx]
  exact if_pos (by rcases hw with hw | hw <;> simp [hw])

theorem insert_shares (h1 : x.writable = false) (h2 : writable = false) : s.insert n srv img size writable =
    if (!x.isOpening && decide (maxBlocks < blockCount x.length size)) = true then (s, .tooLarge)
    else if x.isOpening = true then (s.joinRecord n r x (.loading ⟨r, size, writable⟩), .ok)
    else ((s.joinRecord n r x (.loading ⟨r, size, writable⟩)).present n ⟨r, size, writable⟩ x.length, .ok) := by
  rw [State.insert, if_neg (not_not.mpr he), if_neg (by rw [hs]; nofun)]
  simp only [hf, hx]
  rw [if_neg (by rw [h1, h2]; nofun)]

end

section
variable (hf : s.findImage srv img = none)
include hf

theorem insert_full (h : s.freeImage = none) : s.insert n srv img size writable = (s, .full) := by
  rw [State.insert, if_neg (not_not.mpr he), if_neg (by rw [hs]; nofun)]
  simp only [hf, h]

/-- The record of an image newly inserted (R134, R143). -/
def newRecord (s : State) (srv : StationIx) (img : BitVec 32) (writable : Bool) : ImageRec :=
  ⟨srv, img, writable, 0, 0, .opening (s.ms + 2000) false⟩

theorem insert_creates (h : s.freeImage = some r) : s.insert n srv img size writable =
    let a := s.joinRecord n r (newRecord s srv img writable) (.loading ⟨r, size, writable⟩)
    let b := a.putPool (a.pool.setOwned srv img true)
    (if b.openReady r then b.sendOpen r else b, .ok) := by
  rw [State.insert, if_neg (not_not.mpr he), if_neg (by rw [hs]; nofun)]
  simp only [hf, h]
  rfl

end

end

/-! ### The IMAGE_OPEN of a new record (R144) -/

/-- An IMAGE_OPEN marked as sent holds a descriptor. -/
def OpenQueued (r : ImageIx) (s : State) : Prop :=
  ∀ x d, s.image r = some x → x.phase = .opening d true → s.openFrame x ∈ s.up.frames

theorem OpenQueued.of_same {r : ImageIx} (h : OpenQueued r s) (hs : t.su = s.su) (hi : t.image r = s.image r)
    (hm : ∀ f ∈ s.up.frames, f ∈ t.up.frames) : OpenQueued r t := fun x d hx hp => by
  have hf : t.openFrame x = s.openFrame x := by simp only [State.openFrame, State.addressOf, State.station, hs]
  rw [hf]
  exact hm _ (h x d (hi ▸ hx) hp)

theorem sendOpen_sends {q : ImageIx} {x : ImageRec} {d : Nat} {sent : Bool} (hx : s.image q = some x) (hp : x.phase = .opening d sent) :
    s.sendOpen q = (s.enqueue (s.openFrame x)).putImage q (some { x with phase := .opening d true }) := by
  simp only [State.sendOpen, hx, hp]

theorem sendOpen_queued {r : ImageIx} (q : ImageIx) (h : OpenQueued r s) : OpenQueued r (s.sendOpen q) := by
  cases hx : s.image q with
  | none => simpa only [State.sendOpen, hx] using h
  | some x =>
    cases hp : x.phase with
    | opened _ _ => simpa only [State.sendOpen, hx, hp] using h
    | opening d sent =>
      have joined (f : TxFrame) (hf : f ∈ s.up.frames ++ [s.openFrame x]) :
          f ∈ ((s.enqueue (s.openFrame x)).putImage q (some { x with phase := .opening d true })).up.frames :=
        (frames_enqueue (s := s) (s.openFrame x)).symm ▸ hf
      rw [sendOpen_sends hx hp]
      by_cases hr : r = q
      · subst hr
        intro y d' hy _
        rw [image_putImage, if_pos rfl] at hy
        cases hy
        exact joined _ (List.mem_append_right _ (List.mem_singleton.mpr rfl))
      · exact h.of_same rfl ((image_putImage _ _ _ _).trans (if_neg hr)) fun f hf => joined f (List.mem_append_left _ hf)

/-- Of the image records, only an IMAGE_OPEN touches one. -/
theorem serve_image (s : State) (b : Bool) {p : Producer} (hp : p ≠ .needs) (ho : ∀ q, p ≠ .imageOpen q) (r : ImageIx) :
    (s.serve b p).1.image r = s.image r := by
  cases p with
  | batch m =>
    obtain ⟨fs, d, c, a, y, h⟩ := s.formBatch_eq m
    show (s.formBatch m).image r = _
    rw [h]
    rfl
  | replay m =>
    simp only [State.serve, State.replayFrame]
    split
    · rfl
    · split <;> rfl
  | needs => exact absurd rfl hp
  | imageOpen q => exact absurd rfl (ho q)
  | refetch f =>
    simp only [State.serve, State.refetch]
    split
    · split <;> rfl
    · rfl
  | rewrite m =>
    simp only [State.serve, State.sendWrite]
    split
    · split <;> rfl
    · rfl
  | notice =>
    simp only [State.serve, State.sendNotice]
    split
    · next id _ => cases id <;> rfl
    · rfl

theorem serve_queued {r : ImageIx} (b : Bool) {p : Producer} (hp : p ≠ .needs) (h : OpenQueued r s) : OpenQueued r (s.serve b p).1 := by
  have same (ho : ∀ q, p ≠ .imageOpen q) : OpenQueued r (s.serve b p).1 :=
    h.of_same (serve_su s b p) (serve_image s b hp ho r) (serve_uplink s b p).mem
  cases p with
  | imageOpen q => exact sendOpen_queued q h
  | needs => exact absurd rfl hp
  | batch _ | replay _ | refetch _ | rewrite _ | notice => exact same nofun

theorem finish_queued {r : ImageIx} (h : OpenQueued r s) : OpenQueued r s.finish :=
  finish_preserves (R := fun a b => OpenQueued r a → OpenQueued r b) (fun _ => id) (fun f g => g ∘ f) (fun _ _ => id)
    (fun _ b _ hp => serve_queued b hp)
    (fun a h => h.of_same rfl rfl fun _ hf => (takeNext_frames a.up).mem_iff.mpr hf) s h

theorem freeImage_none (h : ∀ q, (s.image q).isSome) : s.freeImage = none := by
  rw [State.freeImage, List.find?_eq_none]
  intro q _ hq
  rw [Option.isNone_iff_eq_none] at hq
  have := h q
  rw [hq] at this
  cases this

theorem freeImage_lowest {r : ImageIx} (h : s.image r = none) (hl : ∀ q : ImageIx, q.val < r.val → (s.image q).isSome) :
    s.freeImage = some r := by
  have place (k : Nat) (hk : k < allNodes.length) : (allNodes[k]).val = k := by
    have : k < 8 := hk
    interval_cases k <;> rfl
  rw [State.freeImage, List.find?_eq_some_iff_getElem]
  refine ⟨by rw [h]; rfl, r.val, r.isLt, Fin.ext (place _ _), fun k hk => ?_⟩
  have hk8 : k < allNodes.length := Nat.lt_trans hk r.isLt
  have := hl allNodes[k] (lt_of_eq_of_lt (place k hk8) hk)
  rw [← Option.not_isSome, this]
  rfl

theorem findImage_eq_none {srv : StationIx} {img : BitVec 32} (h : ∀ q y, s.image q = some y → y.server = srv → y.image ≠ img) :
    s.findImage srv img = none := by
  cases hf : s.findImage srv img with
  | none => rfl
  | some q =>
    obtain ⟨y, hy, h1, h2⟩ := findImage_some s hf
    exact absurd h2 (h q y hy h1)

theorem unsent_still {x y : ImageRec} (h : x.unsent = y.unsent) : x.server = y.server ∧ x.image = y.image ∧ x.writable = y.writable := by
  have still (z : ImageRec) : z.unsent.server = z.server ∧ z.unsent.image = z.image ∧ z.unsent.writable = z.writable := by
    rw [ImageRec.unsent]
    split <;> exact ⟨rfl, rfl, rfl⟩
  obtain ⟨a1, a2, a3⟩ := still x
  obtain ⟨b1, b2, b3⟩ := still y
  rw [← a1, ← a2, ← a3, h]
  exact ⟨b1, b2, b3⟩

/-- The state after a taken insert of an image that no record stands for, but for its IMAGE_OPEN. -/
def State.created (s : State) (n : NodeId) (r : ImageIx) (srv : StationIx) (img : BitVec 32) (size : BlockSize) (writable : Bool) :
    State :=
  ((s.putImage r (some ⟨srv, img, writable, 1#8 <<< n.val, 0, .opening (s.now / 1000 + 2000) false⟩)).putPort n
    { s.port n with medium := .loading ⟨r, size, writable⟩ }).putPool (s.pool.setOwned srv img true)

section
variable {srv : StationIx} {img : BitVec 32} {size : BlockSize} {writable : Bool} {r : ImageIx}

theorem joinRecord_created : (s.joinRecord n r (newRecord s srv img writable) (.loading ⟨r, size, writable⟩)).putPool
    (s.pool.setOwned srv img true) = s.created n r srv img size writable := by
  have h0 : withNode 0 n = 1#8 <<< n.val := BitVec.zero_or
  rw [State.joinRecord, newRecord, h0]
  rfl

theorem created_queued : OpenQueued r (s.created n r srv img size writable) := fun x d hx hp => by
  rw [State.created] at hx
  have := (image_putImage s r r _).symm.trans hx
  rw [if_pos rfl] at this
  cases this
  cases hp

/-- The IMAGE_OPEN of a new record is sent where a descriptor is free. -/
theorem created_sent {v : State} (hv : v = s.created n r srv img size writable ∨ v = (s.created n r srv img size writable).sendOpen r) :
    Settles (s.created n r srv img size writable) v ∧ OpenQueued r v := by
  rcases hv with rfl | rfl
  · exact ⟨.refl _, created_queued⟩
  · exact ⟨sendOpen_settles _ r, sendOpen_queued r created_queued⟩

theorem created_opens {c : Instr} {h : Head} {t : State} (hc : Answers c s h 0x0C (s.created n r srv img size writable) .ok [])
    (hq : OpenQueued r t) (ht : exec c s = .next t) :
    match (t.image r).map ImageRec.phase with
    | some (.opening _ true) => serverFrame (s.addressOf srv) 0xA2 (be 4 img.toNat ++ flagByte writable) ∈ t.up.frames
    | _ => True := by
  obtain ⟨t', ht', hs⟩ := hc
  cases ht.symm.trans ht'
  split
  · next d hp =>
    obtain ⟨y, hy, hd⟩ := Option.map_eq_some_iff.mp hp
    have hu := hs.delivers.images.1 r
    rw [hy, show ((s.created n r srv img size writable).withAnswer h 0x0C .ok []).image r = _ from
      (image_putImage s r r _).trans (if_pos rfl)] at hu
    obtain ⟨h1, h2, h3⟩ := unsent_still (Option.some.inj hu)
    have hsu : t.su = s.su := hs.delivers.su_eq
    have hf := hq y d hy hd
    rw [State.openFrame, h1, h2, h3] at hf
    simpa only [State.addressOf, State.station, hsu] using hf
  · trivial

end

/-- Settles O52. -/
theorem insertsLoadOrShareAnImage : Obligations.InsertsLoadOrShareAnImage := by
  intro s h bytes body i srv n img size writable r x len handle c p refused medium blocks joined created ho
  refine ⟨fun hb => ho.refused (takeInsert_malformed (s := s.promise) hb), fun hb hw => ?_⟩
  have decided : s.promise.owner i .mediaInsert (some n) h.node body =
      ⟨(s.promise.insert n srv img size writable).1, (s.promise.insert n srv img size writable).2, []⟩ := by
    rw [hb]
    exact takeInsert_body (s := s.promise) hw
  have refuses {z : Result} (hz : s.promise.insert n srv img size writable = (s.promise, z)) : refused z :=
    ho.refused (decided.trans (by rw [hz]; rfl))
  have takes {v e : State} (hz : s.promise.insert n srv img size writable = (v, .ok)) (he : Settles e.promise v) :
      Answers c s h 0x0C e .ok [] := ho.answers (decided.trans (by rw [hz])) he
  refine ⟨fun hm => refuses (insert_wrongState (s := s.promise) hm),
    fun hm hs => refuses (insert_notPermitted (s := s.promise) hm hs), fun hm hs law => ⟨fun hx h1 h2 => ?_, fun hnew => ?_⟩⟩
  · have hf : s.promise.findImage srv img = some r := findImage_eq law hx h1 h2
    refine ⟨fun hw => refuses (insert_inUse (s := s.promise) hm hs hf hx hw), fun hw1 hw2 => ?_⟩
    have shares := insert_shares (s := s.promise) (size := size) hm hs hf hx hw1 hw2
    have length (hp : x.phase = .opened handle len) : x.isOpening = false ∧ x.length = len := by
      rw [ImageRec.isOpening, ImageRec.length, hp]
      exact ⟨rfl, rfl⟩
    refine ⟨fun hp hl => refuses (shares.trans ?_), fun hp hl => takes (shares.trans ?_) (.refl _), fun ho => takes (shares.trans ?_) (.refl _)⟩
    · obtain ⟨k1, k2⟩ := length hp
      rw [k1, k2]
      exact if_pos (decide_eq_true hl)
    · obtain ⟨k1, k2⟩ := length hp
      have fits : ¬(!false && decide (maxBlocks < blockCount len size)) = true := by
        have hd : decide (maxBlocks < blockCount len size) = false := decide_eq_false (Nat.not_lt.mpr hl)
        rw [hd]
        nofun
      rw [k1, k2, if_neg fits, if_neg nofun, State.present, State.joinRecord,
        putPort_putPort, State.port_putPort_same]
      rfl
    · rw [ho]
      rfl
  · have hf : s.promise.findImage srv img = none := findImage_eq_none (s := s.promise) hnew
    refine ⟨fun hfull => refuses (insert_full (s := s.promise) hm hs hf (freeImage_none hfull)), fun hr hl => ?_⟩
    have creates := insert_creates (s := s.promise) (size := size) (writable := writable) hm hs hf (freeImage_lowest hr hl)
    have hv : ∃ v, (v = s.promise.created n r srv img size writable ∨ v = (s.promise.created n r srv img size writable).sendOpen r) ∧
        s.promise.insert n srv img size writable = (v, .ok) := by
      rw [creates, ← joinRecord_created]
      dsimp only
      split
      · exact ⟨_, .inr rfl, rfl⟩
      · exact ⟨_, .inl rfl, rfl⟩
    obtain ⟨v, hv, hz⟩ := hv
    obtain ⟨settles, queued⟩ := created_sent hv
    have answers : Answers c s h 0x0C (s.created n r srv img size writable) .ok [] := takes hz settles
    refine ⟨answers, fun t ht => created_opens answers ?_ ht⟩
    have hx := ho.exec_decided (decided.trans (by rw [hz]))
    cases ht.symm.trans hx
    exact finish_queued (queued.of_same rfl rfl fun f hf => by
      rw [State.answer, frames_enqueue]
      exact List.mem_append_left _ hf)

end Sys2Proof.Machine
end

section
/-! PROOFS. The obligations about the replies of image servers and the timers of the Image Fetch Unit (chapter 8). -/
namespace Sys2Proof.Machine

-- Side by side, the proofs of this text would need more thread stacks than the check's memory limit holds.
set_option Elab.async false

variable {s e t : State}

/-! ## Replies taken (R146, R186) -/

/-- A promise released joins an effect and what settles of it alike. -/
theorem UplinkSettled.release (h : UplinkSettled e.promise t) : UplinkSettled e t.release := by
  rw [uplinkSettled_iff] at *
  exact ⟨congrArg (fun u : Uplink => { u with promised := u.promised - 1 }) h.1, h.2⟩

theorem Settles.release (h : Settles e.promise t) : Settles e t.release := by
  obtain ⟨hdel, hpool, hfetch⟩ := h
  rw [delivers_iff] at hdel
  obtain ⟨h1, h2, h3, h4, h5⟩ := hdel
  exact ⟨delivers_iff.mpr ⟨h1, h2, h3.release, h4, h5⟩, hpool, hfetch⟩

section
variable {c : Instr} {h : Head} {kind : Byte} {body : List Byte} {i : StationIx} {k : ReplyKind}

/-- A reply whose decision settles an effect completes so. -/
theorem Takes.replies (ha : Takes s c h kind body i) (hk : kindClass kind = .reply k)
    (he : Settles e.promise (s.promise.takeReply i k body)) : Completes c s e :=
  ⟨_, ha.exec_reply hk, he.release.trans (finish_settles _)⟩

theorem Takes.replies_eq (ha : Takes s c h kind body i) (hk : kindClass kind = .reply k)
    (he : s.promise.takeReply i k body = e.promise) : Completes c s e := ha.replies hk (he ▸ .refl _)

end

section
variable {i : StationIx} {k : ReplyKind} {b : List Byte}

theorem serves_iff : s.serves i = true ↔ ∃ r y, s.image r = some y ∧ y.server = i := by
  rw [State.serves, List.any_eq_true]
  constructor
  · rintro ⟨r, -, h⟩
    cases hx : s.image r with
    | none => rw [hx] at h; cases h
    | some y => rw [hx] at h; exact ⟨r, y, hx, beq_iff_eq.mp h⟩
  · rintro ⟨r, y, hx, hy⟩
    refine ⟨r, mem_allNodes r, ?_⟩
    rw [hx]
    exact beq_iff_eq.mpr hy

theorem takeReply_malformed (h : malformed k b = true) : s.takeReply i k b = s.countMalformed := by
  unfold State.takeReply
  exact if_pos h

theorem takeReply_foreign (h : malformed k b = false) (hs : s.serves i = false) : s.takeReply i k b = s.countForeign := by
  unfold State.takeReply
  rw [if_neg (by rw [h]; nofun)]
  exact if_pos (by rw [hs]; rfl)

theorem takeReply_open (h : malformed .openReply b = false) (hs : s.serves i = true) :
    s.takeReply i .openReply b = s.replyOpen i b := by
  rw [State.takeReply, if_neg (by rw [h]; nofun), if_neg (by rw [hs]; nofun)]

theorem takeReply_extent (h : malformed .extentData b = false) (hs : s.serves i = true) :
    s.takeReply i .extentData b = s.replyExtent i b := by
  rw [State.takeReply, if_neg (by rw [h]; nofun), if_neg (by rw [hs]; nofun)]

theorem takeReply_write (h : malformed .writeReply b = false) (hs : s.serves i = true) :
    s.takeReply i .writeReply b = s.replyWrite i b := by
  rw [State.takeReply, if_neg (by rw [h]; nofun), if_neg (by rw [hs]; nofun)]

theorem malformed_open : malformed .openReply b = true ↔ b.length < 14 := decide_eq_true_iff

theorem malformed_extent : malformed .extentData b = true ↔
    b.length < 6 ∨ 3 < byteAt b 2 ∨ 1024 < field b 4 2 ∨ b.length < 6 + field b 4 2 := by
  simp only [malformed, Bool.or_eq_true, decide_eq_true_eq]
  omega

theorem malformed_write : malformed .writeReply b = true ↔ b.length < 3 ∨ 1 < byteAt b 2 := by
  simp only [malformed, Bool.or_eq_true, decide_eq_true_eq]

/-! ### OPEN_REPLY (R144) -/

theorem awaiting_sent {g : BitVec 32} {r : ImageIx} {x : ImageRec} (h : s.awaiting i g = some (r, x)) :
    s.image r = some x ∧ x.server = i ∧ x.image = g ∧ ∃ d, x.phase = .opening d true := by
  have hx := List.find?_some h
  refine ⟨awaiting_spec s h, ?_⟩
  simp only [Bool.and_eq_true, beq_iff_eq] at hx
  obtain ⟨⟨h1, h2⟩, h3⟩ := hx
  refine ⟨h1, h2, ?_⟩
  cases hp : x.phase with
  | opening d sent => rw [hp] at h3; exact ⟨d, congrArg _ h3⟩
  | opened _ _ => rw [hp] at h3; cases h3

theorem replyOpen_late (h : field b 8 6 = 0 ∨ 2 ^ 41 ≤ field b 8 6 ∨
    ∀ r y, s.image r = some y → y.server = i → y.image = BitVec.ofNat 32 (field b 0 4) → y.isOpening = true →
      ∃ d, y.phase = .opening d false) : s.replyOpen i b = s.countLate := by
  rw [State.replyOpen]
  cases ha : s.awaiting i (BitVec.ofNat 32 (field b 0 4)) with
  | none => rfl
  | some rx =>
    obtain ⟨r, x⟩ := rx
    obtain ⟨h1, h2, h3, d, h4⟩ := awaiting_sent ha
    refine if_pos (h.imp_right fun h => h.elim (fun h => ?_) fun h => ?_)
    · show maxLength < _
      rw [maxLength]
      omega
    · obtain ⟨d', h5⟩ := h r x h1 h2 h3 (by rw [ImageRec.isOpening, h4])
      cases h4.symm.trans h5

/-! ### EXTENT_DATA (R151) -/

theorem replyExtent_none (h : indexOfByte (b.getD 0 0xFF) = none) : s.replyExtent i b = s.countLate := by
  rw [State.replyExtent, h]

section
variable {f : FetchIx} (h : indexOfByte (b.getD 0 0xFF) = some f)
include h

theorem replyExtent_late (hl : (s.images.fetches.get f).live = none ∨ (s.images.fetches.get f).generation.toNat ≠ byteAt b 1) :
    s.replyExtent i b = s.countLate := by
  rw [State.replyExtent, h]
  cases hf : (s.images.fetches.get f).live with
  | none => simp only [hf]
  | some l =>
    simp only [hf]
    exact if_pos (hl.resolve_left (by rw [hf]; nofun))

variable {l : Fetch} {x : ImageRec} (hl : (s.images.fetches.get f).live = some l)
  (hg : (s.images.fetches.get f).generation.toNat = byteAt b 1) (hx : s.image l.image = some x)
include hl hg hx

theorem replyExtent_foreign (hs : x.server ≠ i) : s.replyExtent i b = s.countForeign := by
  simp only [State.replyExtent, h, hl, hg, hx, ne_eq, not_true, if_false, if_pos hs]

theorem replyExtent_unneeded (hs : x.server = i) (hn : l.needed ≤ byteAt b 2) : s.replyExtent i b = s.countMalformed := by
  simp only [State.replyExtent, h, hl, hg, hx, hs, ne_eq, not_true, if_false, if_pos hn]

theorem replyExtent_taken (hs : x.server = i) (hn : byteAt b 2 < l.needed) :
    s.replyExtent i b = s.takeFragment f l x (byteAt b 2) ((b.drop 6).take (field b 4 2)) := by
  simp only [State.replyExtent, h, hl, hg, hx, hs, ne_eq, not_true, if_false, if_neg (Nat.not_le.mpr hn)]

end

/-! ### WRITE_REPLY (R156) -/

theorem replyWrite_none (h : nodeOfByte (b.getD 0 0xFF) = none) : s.replyWrite i b = s.countLate := by
  rw [State.replyWrite, h]

section
variable {n : NodeId} (h : nodeOfByte (b.getD 0 0xFF) = some n)
include h

theorem replyWrite_unmatched (hl : (s.images.writes.get n).live = none ∨ (s.images.writes.get n).generation.toNat ≠ byteAt b 1) :
    s.replyWrite i b = s.countLate := by
  rw [State.replyWrite, h]
  cases hf : (s.images.writes.get n).live with
  | none => simp only [hf]
  | some l =>
    simp only [hf]
    exact if_pos (.inr (hl.resolve_left (by rw [hf]; nofun)))

variable {w : WriteOp} {x : ImageRec} (hl : (s.images.writes.get n).live = some w)
include hl

theorem replyWrite_unsent (hw : w.phase = .sending) : s.replyWrite i b = s.countLate := by
  rw [State.replyWrite, h]
  simp only [hl]
  exact if_pos (.inl hw)

variable (hw : w.phase ≠ .sending) (hg : (s.images.writes.get n).generation.toNat = byteAt b 1) (hx : s.image w.image = some x)
include hw hg hx

theorem replyWrite_foreign (hs : x.server ≠ i) : s.replyWrite i b = s.countForeign := by
  simp only [State.replyWrite, h, hl, hg, hx, hw, ne_eq, not_true, or_self, if_false, if_pos hs]

theorem replyWrite_taken (hs : x.server = i) : s.replyWrite i b = s.endWrite n w (byteAt b 2 = 0) := by
  simp only [State.replyWrite, h, hl, hg, hx, hw, hs, ne_eq, not_true, or_self, if_false]

end

end

/-- Settles O54: the replies' cases in the order of R146. -/
theorem serverRepliesAreScreened : Obligations.ServerRepliesAreScreened := by
  intro s h bytes body i f l n w x serves late foreign malf length count
  have hserves (hs : serves) : s.promise.serves i = true := serves_iff.mpr hs
  have hnot (hs : ¬serves) : s.promise.serves i = false := Bool.eq_false_iff.mpr fun h => hs (serves_iff.mp h)
  refine ⟨fun ha => ?_, ?_, ?_⟩
  · have ok (hb : 14 ≤ body.length) : malformed .openReply body = false :=
      Bool.eq_false_iff.mpr fun h => Nat.not_lt.mpr hb (malformed_open.mp h)
    refine ⟨fun hb => ha.replies_eq rfl (takeReply_malformed (malformed_open.mpr hb)),
      fun hb hs => ha.replies_eq rfl (takeReply_foreign (ok hb) (hnot hs)), fun hb hs hl => ha.replies_eq rfl ?_⟩
    rw [takeReply_open (ok hb) (hserves hs), replyOpen_late (s := s.promise) hl]
    rfl
  · intro c bad entry ha
    have ok (hb : ¬bad) : malformed .extentData body = false := Bool.eq_false_iff.mpr fun h => hb (malformed_extent.mp h)
    have first (hb : ¬bad) : (body.getD 0 0xFF).toNat = byteAt body 0 :=
      first_byte fun h => hb (.inl (by rw [h]; decide))
    have taken (hb : ¬bad) (hs : serves) {e : State} (he : s.promise.replyExtent i body = e.promise) :
        Completes (.extentData h bytes) s e := ha.replies_eq rfl ((takeReply_extent (ok hb) (hserves hs)).trans he)
    refine ⟨fun hb => ha.replies_eq rfl (takeReply_malformed (malformed_extent.mpr hb)),
      fun hb hs => ha.replies_eq rfl (takeReply_foreign (ok hb) (hnot hs)),
      fun hb hs hx => taken hb hs (replyExtent_none (dif_neg (by rw [first hb]; exact Nat.not_lt.mpr hx))), fun hb hs hx => ?_⟩
    have hf : indexOfByte (body.getD 0 0xFF) = some f := indexOfByte_eq.mpr ((first hb).trans hx)
    refine ⟨fun hl => taken hb hs (replyExtent_late (s := s.promise) hf hl), fun hl hg hi => ⟨fun hn => ?_, fun hn hm => ?_⟩⟩
    · exact taken hb hs (replyExtent_foreign (s := s.promise) hf hl hg hi hn)
    · exact taken hb hs (replyExtent_unneeded (s := s.promise) hf hl hg hi hn hm)
  · intro c bad entry ha
    have ok (hb : ¬bad) : malformed .writeReply body = false := Bool.eq_false_iff.mpr fun h => hb (malformed_write.mp h)
    have first (hb : ¬bad) : (body.getD 0 0xFF).toNat = byteAt body 0 :=
      first_byte fun h => hb (.inl (by rw [h]; decide))
    have taken (hb : ¬bad) (hs : serves) {e : State} (he : s.promise.replyWrite i body = e.promise) :
        Completes (.writeReply h bytes) s e := ha.replies_eq rfl ((takeReply_write (ok hb) (hserves hs)).trans he)
    refine ⟨fun hb => ha.replies_eq rfl (takeReply_malformed (malformed_write.mpr hb)),
      fun hb hs => ha.replies_eq rfl (takeReply_foreign (ok hb) (hnot hs)),
      fun hb hs hx => taken hb hs (replyWrite_none (dif_neg (by rw [first hb]; exact Nat.not_lt.mpr hx))), fun hb hs hx => ?_⟩
    have hf : nodeOfByte (body.getD 0 0xFF) = some n := nodeOfByte_eq.mpr ((first hb).trans hx)
    exact ⟨fun hl => taken hb hs (replyWrite_unmatched (s := s.promise) hf hl),
      fun hl hw => taken hb hs (replyWrite_unsent (s := s.promise) hf hl hw),
      fun hl hw hg hi hn => taken hb hs (replyWrite_foreign (s := s.promise) hf hl hw hg hi hn)⟩

end Sys2Proof.Machine
end

section
/-! PROOFS. What tries of the need list and the pool's allocations make of needs, fetches and extents, said once by one relation
(R148 to R150, R168 to R174). -/
namespace Sys2Proof.Machine

-- Side by side, the proofs of this text would need more thread stacks than the check's memory limit holds.
set_option Elab.async false

variable {s e t u : State} {n : NodeId}

/-- The extent at a place of the table. -/
def State.extent (s : State) (i : ExtentIx) : Option Extent := s.pool.extents.get i

/-- The live fetch of an entry of the fetch table. -/
def State.fetching (s : State) (f : FetchIx) : Option Fetch := (s.images.fetches.get f).live

/-- An item of the need list stands for the extent `e` of record `r`. -/
def State.needs (s : State) (r : ImageIx) (e : BitVec 32) : Prop := ∃ y ∈ s.images.needs, y.image = r ∧ y.extent = e

/-- A live fetch brings the extent `e` of record `r`. -/
def State.fetches (s : State) (r : ImageIx) (e : BitVec 32) : Prop := ∃ f l, s.fetching f = some l ∧ l.image = r ∧ l.extent = e

/-- What tries of the need list do: items leave it for fetches on FREE entries, whose targets are new; unpinned VALID extents may
be evicted. -/
structure Tried (s t : State) : Prop where
  /-- A live fetch goes on. -/
  kept : ∀ f l, s.fetching f = some l → t.images.fetches.get f = s.images.fetches.get f
  /-- A FREE entry stays, or takes an item of the list. -/
  fresh : ∀ f, s.fetching f = none → t.images.fetches.get f = s.images.fetches.get f ∨
    (t.images.fetches.get f).generation = (s.images.fetches.get f).generation + 1 ∧
      ∃ l, t.fetching f = some l ∧ s.needs l.image l.extent
  /-- No item joins the list. -/
  fewer : ∀ y ∈ t.images.needs, y ∈ s.images.needs
  /-- An item stays or is fetched. -/
  asked : ∀ y ∈ s.images.needs, y ∈ t.images.needs ∨ t.fetches y.image y.extent
  /-- The first item for an extent stays the first, or the extent is fetched. -/
  first : ∀ r x, t.images.needs.find? (·.sameKey r x) = s.images.needs.find? (·.sameKey r x) ∨ t.fetches r x
  /-- An extent stood before, or is the target of a fetch. -/
  filling : ∀ i e, t.extent i = some e → s.extent i = some e ∨
    (e.valid = false ∧ ∃ f l, t.fetching f = some l ∧ l.target = i ∧ l.extent = e.key.extent)
  /-- The records stand. -/
  record : ∀ q, t.image q = s.image q
  /-- An extent stood before, or is of a record's server. -/
  placed : ∀ i e, t.extent i = some e → s.extent i = some e ∨ ∃ q x, s.image q = some x ∧ e.key.server = x.server
  /-- What may not be evicted stays. -/
  pinned : ∀ i e, s.extent i = some e → e.evictable = false → t.extent i = some e

theorem Tried.of_evicts (hi : t.images = s.images)
    (hx : ∀ i, t.extent i = s.extent i ∨ t.extent i = none ∧ ∃ e, s.extent i = some e ∧ e.evictable = true) : Tried s t where
  kept f _ _ := by rw [hi]
  fresh f _ := .inl (by rw [hi])
  fewer y hy := hi ▸ hy
  asked y hy := .inl (hi.symm ▸ hy)
  first r x := .inl (by rw [hi])
  filling i e he := by
    rcases hx i with h | ⟨h, -⟩
    · exact .inl (h ▸ he)
    · rw [h] at he; cases he
  record q := by rw [State.image, hi]; rfl
  placed i e he := by
    rcases hx i with h | ⟨h, -⟩
    · exact .inl (h ▸ he)
    · rw [h] at he; cases he
  pinned i e he hv := by
    rcases hx i with h | ⟨-, x, hx, hev⟩
    · exact h.trans he
    · rw [he] at hx
      cases hx
      rw [hv] at hev
      cases hev

theorem Tried.of_same (hi : t.images = s.images) (hp : t.pool.extents = s.pool.extents) : Tried s t :=
  .of_evicts hi fun i => .inl (congrArg (Tab.get · i) hp)

theorem Tried.refl (s : State) : Tried s s := .of_same rfl rfl

theorem Tried.fetching_eq (h : Tried s t) {f : FetchIx} {l : Fetch} (hl : s.fetching f = some l) : t.fetching f = some l :=
  (congrArg FetchEntry.live (h.kept f l hl)).trans hl

theorem Tried.needs (h : Tried s t) {r : ImageIx} {x : BitVec 32} : t.needs r x → s.needs r x := fun ⟨y, hy, k⟩ =>
  ⟨y, h.fewer y hy, k⟩

theorem Tried.fetches (h : Tried s t) {r : ImageIx} {x : BitVec 32} : s.fetches r x → t.fetches r x := fun ⟨f, l, hl, k⟩ =>
  ⟨f, l, h.fetching_eq hl, k⟩

theorem Tried.trans (h : Tried s t) (k : Tried t u) : Tried s u where
  kept f l hl := (k.kept f l (h.fetching_eq hl)).trans (h.kept f l hl)
  fresh f hf := by
    rcases h.fresh f hf with same | ⟨gen, l, hl, hn⟩
    · have hf' : t.fetching f = none := (congrArg FetchEntry.live same).trans hf
      rcases k.fresh f hf' with same' | ⟨gen, l, hl, hn⟩
      · exact .inl (same'.trans same)
      · exact .inr ⟨by rw [gen, same], l, hl, h.needs hn⟩
    · exact .inr ⟨by rw [k.kept f l hl, gen], l, k.fetching_eq hl, hn⟩
  fewer y hy := h.fewer y (k.fewer y hy)
  asked y hy := by
    rcases h.asked y hy with hy | hy
    · exact k.asked y hy
    · exact .inr (k.fetches hy)
  first r x := by
    rcases k.first r x with hk | hk
    · rcases h.first r x with hh | hh
      · exact .inl (hk.trans hh)
      · exact .inr (k.fetches hh)
    · exact .inr hk
  filling i e he := by
    rcases k.filling i e he with he | he
    · rcases h.filling i e he with he | ⟨hv, f, l, hl, hx⟩
      · exact .inl he
      · exact .inr ⟨hv, f, l, k.fetching_eq hl, hx⟩
    · exact .inr he
  record q := (k.record q).trans (h.record q)
  placed i e he := by
    rcases k.placed i e he with he | ⟨q, x, hx, hs⟩
    · exact h.placed i e he
    · exact .inr ⟨q, x, (h.record q).symm.trans hx, hs⟩
  pinned i e he hv := k.pinned i e (h.pinned i e he hv) hv

/-! ## An item issued (R149, R172, R173) -/

theorem tried_evict {i : ExtentIx} (h : s.pool.victim = some i) : Tried s (s.putPool (s.pool.evict i)) := by
  obtain ⟨e, he, hv⟩ := victim_spec h
  refine .of_evicts rfl fun j => ?_
  by_cases hj : j = i
  · subst hj
    exact .inr ⟨Tab.get_put_same _ _ _, e, he, hv⟩
  · exact .inl (Tab.get_put_ne _ _ hj)

theorem tried_obtain (s : State) (k : Nat) : Tried s (State.obtain k s) ∧ (State.obtain k s).images = s.images := by
  induction k generalizing s with
  | zero => exact ⟨.refl s, rfl⟩
  | succ k ih =>
    unfold State.obtain
    split
    · exact ⟨.refl s, rfl⟩
    · split
      · next i hi =>
        obtain ⟨h1, h2⟩ := ih (s.putPool (s.pool.evict i))
        exact ⟨(tried_evict hi).trans h1, h2⟩
      · split
        · next m _ =>
          obtain ⟨h1, h2⟩ := ih (s.reclaim m)
          exact ⟨(Tried.of_same (s := s) (t := s.reclaim m) rfl rfl).trans h1, h2⟩
        · exact ⟨.refl s, rfl⟩

theorem unusedPlace_none {p : Pool} {i : ExtentIx} (h : p.unusedPlace = some i) : p.extents.get i = none :=
  Option.isNone_iff_eq_none.mp (List.find?_some (p := fun i => (p.extents.get i).isNone) h)

/-- An allocation is refused, or places a new entry where cells were obtained. -/
theorem allocate_cases (s : State) (k : ExtentKey) :
    (s.allocate k = (s.putPool { s.pool with waiting := true }, none)) ∨
      ∃ b i, s.allocate k = (b.placeExtent k i, some i) ∧ Tried s b ∧ b.images = s.images ∧ b.extent i = none := by
  obtain ⟨h1, h2⟩ := tried_obtain s 1200
  rw [State.allocate]
  split
  · exact .inl rfl
  · split
    · next i hi => exact .inr ⟨_, i, rfl, h1, h2, unusedPlace_none hi⟩
    · exact .inl rfl

theorem freeFetches_head {f : FetchIx} (h : s.freeFetches.head? = some f) : s.fetching f = none := by
  have := List.mem_of_mem_head? h
  simpa [State.freeFetches, State.fetching] using this

theorem tried_issue {b : State} {x : Need} {r : ImageRec} {f : FetchIx} {i : ExtentIx} (hx : x ∈ b.images.needs)
    (hr : b.image x.image = some r) (hf : b.fetching f = none) (hi : b.extent i = none) : Tried b ((b.placeExtent (r.key x.extent) i).issue x r f i) := by
  have other {g : FetchIx} (hg : g ≠ f) : ((b.placeExtent (r.key x.extent) i).issue x r f i).images.fetches.get g =
      b.images.fetches.get g := Tab.get_put_ne _ _ hg
  have own : ((b.placeExtent (r.key x.extent) i).issue x r f i).fetching f =
      some ⟨x.image, x.extent, fragmentsNeeded r.length x.extent.toNat, 0, i, false, some b.fetchDeadline⟩ :=
    congrArg FetchEntry.live (Tab.get_put_same _ _ _)
  have stays {y : Need} : y ∈ ((b.placeExtent (r.key x.extent) i).issue x r f i).images.needs ↔
      y ∈ b.images.needs ∧ ¬(y.image = x.image ∧ y.extent = x.extent) := by
    show y ∈ b.images.needs.filter _ ↔ _
    rw [List.mem_filter, decide_eq_true_iff]
  constructor
  case kept =>
    intro g l hl
    exact other fun hg => by rw [hg, hf] at hl; cases hl
  case fresh =>
    intro g _
    by_cases hg : g = f
    · subst hg
      exact .inr ⟨congrArg FetchEntry.generation (Tab.get_put_same _ _ _), _, own, x, hx, rfl, rfl⟩
    · exact .inl (other hg)
  case fewer => exact fun y hy => (stays.mp hy).1
  case asked =>
    intro y hy
    by_cases hk : y.image = x.image ∧ y.extent = x.extent
    · exact .inr ⟨f, _, own, hk.1.symm, hk.2.symm⟩
    · exact .inl (stays.mpr ⟨hy, hk⟩)
  case first =>
    intro q v
    by_cases hk : q = x.image ∧ v = x.extent
    · exact .inr ⟨f, _, own, hk.1.symm, hk.2.symm⟩
    · left
      show (b.images.needs.filter _).find? _ = _
      rw [List.find?_filter]
      congr 1
      funext y
      cases hy : y.sameKey q v with
      | false => exact decide_eq_false (fun h => nomatch h.2)
      | true =>
        have same : y.image = q ∧ y.extent = v := by simpa [Need.sameKey] using hy
        exact decide_eq_true ⟨decide_eq_true (by rw [same.1, same.2]; exact hk), rfl⟩
  case filling =>
    intro j e he
    by_cases hj : j = i
    · subst hj
      rw [show ((b.placeExtent (r.key x.extent) j).issue x r f j).extent j = _ from Tab.get_put_same _ _ _] at he
      cases he
      exact .inr ⟨rfl, f, _, own, rfl, rfl⟩
    · exact .inl ((Tab.get_put_ne _ _ hj).symm.trans he)
  case record => exact fun _ => rfl
  case placed =>
    intro j e he
    by_cases hj : j = i
    · subst hj
      rw [show ((b.placeExtent (r.key x.extent) j).issue x r f j).extent j = _ from Tab.get_put_same _ _ _] at he
      cases he
      exact .inr ⟨x.image, r, hr, rfl⟩
    · exact .inl ((Tab.get_put_ne _ _ hj).symm.trans he)
  case pinned =>
    intro j e he _
    by_cases hj : j = i
    · subst hj
      rw [hi] at he
      cases he
    · exact (Tab.get_put_ne _ _ hj).trans he

theorem nextNeed_mem {ns : List Need} {x : Need} (h : nextNeed ns = some x) : x ∈ ns := by
  rw [nextNeed] at h
  cases hn : ns.find? (fun x => x.kind = .node) with
  | some y =>
    rw [hn] at h
    cases h
    exact List.mem_of_find?_eq_some hn
  | none =>
    rw [hn] at h
    exact List.mem_of_mem_head? h

theorem tryOne_tried (s : State) : Tried s s.tryOne.1 := by
  unfold State.tryOne
  split
  · exact .refl s
  · next x hx =>
    split
    · next r f hr hf =>
      split
      · rcases allocate_cases s (r.key x.extent) with h | ⟨b, i, h, h1, h2, h3⟩
        · rw [h]
          exact .of_same rfl rfl
        · rw [h]
          refine h1.trans (tried_issue (h2 ▸ nextNeed_mem hx) ((h1.record _).trans hr) ?_ h3)
          rw [State.fetching, h2]
          exact freeFetches_head hf
      · exact .refl s
    · exact .refl s

theorem tryNeeds_tried (s : State) : Tried s s.tryNeeds := by
  have loop (k : Nat) (a : State) : Tried a (State.tryLoop k a) := by
    induction k generalizing a with
    | zero => exact .refl a
    | succ k ih =>
      rw [State.tryLoop]
      split
      · exact (tryOne_tried a).trans (ih _)
      · exact tryOne_tried a
  exact loop 64 s

theorem tryNeeds_none (h : s.images.needs = []) : s.tryNeeds = s := by
  have one : s.tryOne = (s, false) := by
    rw [State.tryOne, h]
    rfl
  rw [State.tryNeeds, State.tryLoop, one]
  rfl

theorem report_tried (s : State) : Tried s s.report := by
  rw [State.report]
  split
  · exact (Tried.of_same (s := s) (t := s.putPool { s.pool with waiting := false }) rfl rfl).trans (tryNeeds_tried _)
  · exact .refl s

/-- What free descriptors do to needs and fetches starts timers alone. -/
theorem Settles.fetching (h : Settles s t) (f : FetchIx) : (t.fetching f).map Fetch.unsent = (s.fetching f).map Fetch.unsent :=
  (h.2.2.2 f).2

theorem Settles.fetches (h : Settles s t) {r : ImageIx} {x : BitVec 32} (hf : s.fetches r x) : t.fetches r x := by
  obtain ⟨f, l, hl, h1, h2⟩ := hf
  have := h.fetching f
  rw [hl] at this
  obtain ⟨q, hq, hu⟩ := Option.map_eq_some_iff.mp this
  exact ⟨f, q, hq, (congrArg Fetch.image hu).trans h1, (congrArg Fetch.extent hu).trans h2⟩

/-! ## A READ turns to an extent (R129, R148) -/

/-- Node `n` waits with an item for the extent `x` of record `r`, or a fetch brings it. -/
def State.awaited (s : State) (n : NodeId) (r : ImageIx) (x : BitVec 32) : Prop :=
  (∃ y ∈ s.images.needs, y.image = r ∧ y.extent = x ∧ y.waiting.getLsbD n.val = true) ∨ s.fetches r x

theorem Tried.awaited (h : Tried s t) {r : ImageIx} {x : BitVec 32} (ha : s.awaited n r x) : t.awaited n r x := by
  rcases ha with ⟨y, hy, h1, h2, h3⟩ | hf
  · rcases h.asked y hy with hy | hy
    · exact .inl ⟨y, hy, h1, h2, h3⟩
    · exact .inr (h1 ▸ h2 ▸ hy)
  · exact .inr (h.fetches hf)

theorem Settles.awaited (h : Settles s t) {r : ImageIx} {x : BitVec 32} (ha : s.awaited n r x) : t.awaited n r x := by
  rcases ha with ⟨y, hy, hk⟩ | hf
  · exact .inl ⟨y, h.2.2.1.symm ▸ hy, hk⟩
  · exact .inr (h.fetches hf)

theorem needFromNode_waits (ns : List Need) (n : NodeId) (r : ImageIx) (x : BitVec 32) :
    ∃ y ∈ needFromNode ns n r x, y.image = r ∧ y.extent = x ∧ y.waiting.getLsbD n.val = true := by
  have waits (m : BitVec 8) : (withNode m n).getLsbD n.val = true := by simp [getLsbD_withNode]
  rw [needFromNode]
  split
  · exact ⟨_, List.mem_append_right _ (List.mem_singleton.mpr rfl), rfl, rfl, waits _⟩
  · next y hy =>
    have key : y.sameKey r x = true := List.find?_some (p := fun y : Need => y.sameKey r x) hy
    have same : y.image = r ∧ y.extent = x := by simpa [Need.sameKey] using key
    split
    · exact ⟨_, List.mem_map_of_mem (List.mem_of_find?_eq_some hy), by simp [key, same.1], by simp [key, same.2], by simp [key, waits]⟩
    · exact ⟨_, List.mem_append_right _ (List.mem_singleton.mpr rfl), same.1, same.2, waits _⟩

theorem handNeed_works (s : State) (n : NodeId) (r : ImageIx) (x : BitVec 32) : PoolWork s (s.handNeed n r x) := by
  rw [State.handNeed]
  split
  · exact putNeeds_work s _
  · exact (putNeeds_work s _).trans (tryNeeds_work _)

theorem handNeed_awaited (s : State) (n : NodeId) (r : ImageIx) (x : BitVec 32) : (s.handNeed n r x).awaited n r x := by
  have listed : (s.putNeeds (needFromNode s.images.needs n r x)).awaited n r x := .inl (needFromNode_waits _ _ _ _)
  rw [State.handNeed]
  split
  · exact listed
  · exact (tryNeeds_tried _).awaited listed

theorem lookup_some {p : Pool} {k : ExtentKey} {i : ExtentIx} {x : Extent} (h : p.lookup k = some (i, x)) :
    p.extents.get i = some x ∧ x.key = k :=
  ⟨mem_used.mp (List.mem_of_find?_eq_some h), of_decide_eq_true (List.find?_some (p := fun x : ExtentIx × Extent => x.2.key = k) h)⟩

theorem lookup_none {p : Pool} {k : ExtentKey} {i : ExtentIx} {x : Extent} (h : p.lookup k = none) (hi : p.extents.get i = some x) :
    x.key ≠ k := fun hk => by
  have := List.find?_eq_none.mp h (i, x) (mem_used.mpr hi)
  exact this (decide_eq_true hk)

section
variable {l c d : Nat} {ph : ReadPhase} {m : MediumRef}

theorem advanceRead_done (ha : (s.port n).active = some (.read l c d ph)) (hm : (s.port n).medium.ref? = some m)
    (hd : c * m.size.bytes ≤ d) : s.advanceRead n = s.putPort n { s.port n with active := none, sense := ⟨.none, none⟩ } := by
  rw [State.advanceRead, ha, hm]
  simp only [if_pos hd, State.putSense, putPort_putPort, State.port_putPort_same]

variable {x : ImageRec} {i : ExtentIx} {y : Extent} (ha : (s.port n).active = some (.read l c d ph))
  (hm : (s.port n).medium.ref? = some m) (hd : d < c * m.size.bytes)
include ha hm hd

theorem advanceRead_gone (hx : s.image m.image = none) : s.advanceRead n = s := by
  have key : s.readKey m l d = none := by rw [State.readKey, hx]; rfl
  rw [State.advanceRead, ha, hm]
  simp only [if_neg (Nat.not_le.mpr hd), key]

variable (hx : s.image m.image = some x)
include hx

theorem advanceRead_valid (hl : s.pool.lookup (x.key (BitVec.ofNat 32 (readExtent m.size l d))) = some (i, y)) (hv : y.valid = true) :
    s.advanceRead n = (s.putRead n l c d (.delivering i)).putPool ((s.pool.putExtent i { y with pins := y.pins + 1 }).touch i) := by
  have key : s.readKey m l d = some (x.key (BitVec.ofNat 32 (readExtent m.size l d))) := by rw [State.readKey, hx]; rfl
  have pin : (s.putRead n l c d (.delivering i)).pin i = (s.putRead n l c d (.delivering i)).putPool
      ((s.pool.putExtent i { y with pins := y.pins + 1 }).touch i) := by
    have he : (s.putRead n l c d (.delivering i)).pool.extents.get i = some y := (lookup_some hl).1
    rw [State.pin, he]
    rfl
  rw [State.advanceRead, ha, hm]
  simp only [if_neg (Nat.not_le.mpr hd), key, hl, hv, if_true, pin]

theorem advanceRead_filling (hl : s.pool.lookup (x.key (BitVec.ofNat 32 (readExtent m.size l d))) = some (i, y)) (hv : y.valid = false) :
    s.advanceRead n = s.putRead n l c d .waiting := by
  have key : s.readKey m l d = some (x.key (BitVec.ofNat 32 (readExtent m.size l d))) := by rw [State.readKey, hx]; rfl
  rw [State.advanceRead, ha, hm]
  simp only [if_neg (Nat.not_le.mpr hd), key, hl, hv, Bool.false_eq_true, if_false]

theorem advanceRead_absent (hl : s.pool.lookup (x.key (BitVec.ofNat 32 (readExtent m.size l d))) = none) :
    s.advanceRead n = (s.putRead n l c d .waiting).handNeed n m.image (BitVec.ofNat 32 (readExtent m.size l d)) := by
  have key : s.readKey m l d = some (x.key (BitVec.ofNat 32 (readExtent m.size l d))) := by rw [State.readKey, hx]; rfl
  rw [State.advanceRead, ha, hm]
  simp only [if_neg (Nat.not_le.mpr hd), key, hl]
  rfl

end

/-- A READ that goes on changes its phase alone at the port. -/
theorem advanceRead_port {l c d : Nat} {ph : ReadPhase} {m : MediumRef} (ha : (s.port n).active = some (.read l c d ph))
    (hm : (s.port n).medium.ref? = some m) (hd : d < c * m.size.bytes) :
    ∃ ph', (s.advanceRead n).port n = { s.port n with active := some (.read l c d ph') } := by
  have own {t : State} {q : MediaPort} (h : PoolWork (s.putPort n q) t) : t.port n = q :=
    (h.port_eq n).trans (State.port_putPort_same _ _ _)
  cases hx : s.image m.image with
  | none =>
    rw [advanceRead_gone ha hm hd hx]
    exact ⟨ph, by rw [← ha]⟩
  | some x =>
    cases hl : s.pool.lookup (x.key (BitVec.ofNat 32 (readExtent m.size l d))) with
    | none =>
      rw [advanceRead_absent ha hm hd hx hl]
      exact ⟨_, own (handNeed_works _ _ _ _)⟩
    | some iy =>
      obtain ⟨i, y⟩ := iy
      cases hv : y.valid with
      | true =>
        rw [advanceRead_valid ha hm hd hx hl hv]
        exact ⟨_, own (putPool_work _ _)⟩
      | false =>
        rw [advanceRead_filling ha hm hd hx hl hv]
        exact ⟨_, own (.refl _)⟩

/-! ## Stale marks (R170) -/

/-- An extent VALID now was VALID before. -/
def ValidKept (s t : State) : Prop := ∀ i e, t.extent i = some e → e.valid = true → s.extent i = some e

/-- No VALID extent whose key satisfies `p` is at place `i`. -/
def Cleared (p : ExtentKey → Bool) (i : ExtentIx) (s : State) : Prop :=
  ∀ e, s.extent i = some e → p e.key = true → e.valid = false

theorem ValidKept.refl (s : State) : ValidKept s s := fun _ _ h _ => h

theorem ValidKept.trans (h : ValidKept s t) (k : ValidKept t u) : ValidKept s u := fun i e he hv => h i e (k i e he hv) hv

theorem Tried.validKept (h : Tried s t) : ValidKept s t := fun i e he hv => (h.filling i e he).resolve_right fun ⟨hx, _⟩ => by
  rw [hv] at hx
  cases hx

theorem Cleared.kept {p : ExtentKey → Bool} {i : ExtentIx} (h : Cleared p i s) (k : ValidKept s t) : Cleared p i t := fun e he hp =>
  Bool.eq_false_iff.mpr fun hv => by
    have := h e (k i e he hv) hp
    rw [hv] at this
    cases this

theorem freeExtent_clears (s : State) (i : ExtentIx) :
    ValidKept s (s.freeExtent i) ∧ ∀ e, (s.freeExtent i).extent i = some e → e.valid = false := by
  have tried := (report_tried (s.putPool (s.pool.free i))).validKept
  have gone : (s.putPool (s.pool.free i)).extent i = none := Tab.get_put_same _ _ _
  refine ⟨fun j e he hv => ?_, fun e he => Bool.eq_false_iff.mpr fun hv => ?_⟩
  · have hj := tried j e he hv
    by_cases h : j = i
    · rw [h, gone] at hj
      cases hj
    · exact (Tab.get_put_ne _ _ h).symm.trans hj
  · have := tried i e he hv
    rw [gone] at this
    cases this

theorem markStaleIf_clears (p : ExtentKey → Bool) (s : State) (i : ExtentIx) :
    ValidKept s (s.markStaleIf p i) ∧ Cleared p i (s.markStaleIf p i) := by
  cases hx : s.pool.extents.get i with
  | none =>
    have same : s.markStaleIf p i = s := by rw [State.markStaleIf, hx]
    rw [same]
    exact ⟨.refl s, fun e he => by rw [State.extent, hx] at he; cases he⟩
  | some x =>
    cases hp : p x.key with
    | false =>
      have same : s.markStaleIf p i = s := by simp only [State.markStaleIf, hx, hp, Bool.false_eq_true, if_false]
      rw [same]
      refine ⟨.refl s, fun e he h => ?_⟩
      rw [State.extent, hx] at he
      cases he
      rw [hp] at h
      cases h
    | true =>
      cases hv : x.valid with
      | true =>
        have frees : s.markStaleIf p i = s.freeExtent i := by simp only [State.markStaleIf, State.markStale, hx, hp, hv, if_true]
        rw [frees]
        obtain ⟨h1, h2⟩ := freeExtent_clears s i
        exact ⟨h1, fun e he _ => h2 e he⟩
      | false =>
        have flags : s.markStaleIf p i = s.putPool (s.pool.putExtent i { x with stale := true }) := by
          simp only [State.markStaleIf, State.markStale, hx, hp, hv, if_true, Bool.false_eq_true, if_false]
        have own : (s.markStaleIf p i).extent i = some { x with stale := true } := by
          rw [flags]
          exact Tab.get_put_same _ _ _
        refine ⟨fun j e he hev => ?_, fun e he _ => ?_⟩
        · by_cases h : j = i
          · rw [h, own] at he
            cases he
            exact absurd hev (by rw [hv]; nofun)
          · rw [flags] at he
            exact (Tab.get_put_ne _ _ h).symm.trans he
        · rw [own] at he
          cases he
          exact hv

/-- Every entry whose key satisfies `p` is marked: no VALID one is left. -/
theorem staleWhere_clears (s : State) (p : ExtentKey → Bool) : ValidKept s (s.staleWhere p) ∧ ∀ i, Cleared p i (s.staleWhere p) := by
  have fold (is : List ExtentIx) (a : State) :
      ValidKept a (is.foldl (State.markStaleIf p) a) ∧ ∀ i ∈ is, Cleared p i (is.foldl (State.markStaleIf p) a) := by
    induction is generalizing a with
    | nil => exact ⟨.refl a, nofun⟩
    | cons i is ih =>
      obtain ⟨h1, h2⟩ := markStaleIf_clears p a i
      obtain ⟨h3, h4⟩ := ih (a.markStaleIf p i)
      refine ⟨h1.trans h3, fun j hj => ?_⟩
      rcases List.mem_cons.mp hj with rfl | hj
      · exact h2.kept h3
      · exact h4 j hj
  obtain ⟨h1, h2⟩ := fold ((s.pool.used.filter (fun x => p x.2.key)).map Prod.fst) s
  refine ⟨h1, fun i e he hp => Bool.eq_false_iff.mpr fun hv => ?_⟩
  have member : i ∈ (s.pool.used.filter (fun x => p x.2.key)).map Prod.fst :=
    List.mem_map.mpr ⟨(i, e), List.mem_filter.mpr ⟨mem_used.mpr (h1 i e he hv), hp⟩, rfl⟩
  have := h2 i member e he hp
  rw [hv] at this
  cases this

end Sys2Proof.Machine
end

section
/-! PROOFS. The obligations about READ and WRITE at the Media Ports (chapter 7). -/
namespace Sys2Proof.Machine

-- Side by side, the proofs of this text would need more thread stacks than the check's memory limit holds.
set_option Elab.async false

variable {s e t u : State} {n : NodeId}

/-! ## READ is decided (R128) -/

theorem isPresent_false {m : Medium} (h : m.isPresent = false) : m = .empty ∨ (∃ r, m = .loading r) ∨ ∃ r b c, m = .ejecting r b c := by
  cases m with
  | empty => exact .inl rfl
  | loading r => exact .inr (.inl ⟨r, rfl⟩)
  | present r b => cases h
  | ejecting r b c => exact .inr (.inr ⟨r, b, c, rfl⟩)

theorem decideRead_notReady (h : (s.port n).medium.isPresent = false) (l c : Nat) :
    s.decideRead n l c = s.putPort n { s.port n with sense := ⟨.notReady, none⟩, usb := .status .notReady } := by
  rw [State.decideRead]
  rcases isPresent_false h with h | ⟨r, h⟩ | ⟨r, b, x, h⟩ <;> simp only [h, status_eq]

section
variable {m : MediumRef} {blocks l c : Nat} (hm : (s.port n).medium = .present m blocks)
include hm

theorem decideRead_none (hc : c = 0) :
    s.decideRead n l c = s.putPort n { s.port n with sense := ⟨.none, none⟩, usb := .status .none } := by
  rw [State.decideRead]
  simp only [hm, hc, if_true, status_eq]

theorem decideRead_past (hc : c ≠ 0) (hb : blocks < l + c) : s.decideRead n l c =
    s.putPort n { s.port n with sense := ⟨.outOfRange, some (BitVec.ofNat 32 l)⟩, usb := .status .outOfRange } := by
  rw [State.decideRead]
  simp only [hm, if_neg hc, if_pos hb, status_eq]

/-- A READ accepted, before it turns to its first extent. -/
def State.readBegun (s : State) (n : NodeId) (l c : Nat) (u : UsbReply) : State :=
  s.putPort n { s.port n with active := some (.read l c 0 .waiting), usb := u }

theorem decideRead_turns (hc : c ≠ 0) (hb : l + c ≤ blocks) : s.decideRead n l c =
    (s.readBegun n l c (if ((s.readKey m l 0).bind s.pool.lookup).any (·.2.valid) then .accept else .notYet)).advanceRead n := by
  have begun : (s.putRead n l c 0 .waiting).give n .notYet = s.readBegun n l c .notYet := by
    simp only [State.putRead, State.give, State.readBegun, putPort_putPort, State.port_putPort_same]
  have accepted : (s.readBegun n l c .notYet).give n .accept = s.readBegun n l c .accept := by
    simp only [State.give, State.readBegun, putPort_putPort, State.port_putPort_same]
  rw [State.decideRead]
  simp only [hm, if_neg hc, if_neg (Nat.not_lt.mpr hb), begun, accepted]
  change (match (s.readKey m l 0).bind s.pool.lookup with
    | some (_, e) => _
    | none => _) = _
  cases (s.readKey m l 0).bind s.pool.lookup with
  | none => rfl
  | some iy => cases hv : iy.2.valid <;> simp only [Option.any_some, hv, if_true, Bool.false_eq_true, if_false]

end

theorem readBegun_active (s : State) (n : NodeId) (l c : Nat) (u : UsbReply) :
    ((s.readBegun n l c u).port n).active = some (.read l c 0 .waiting) := congrArg MediaPort.active (State.port_putPort_same _ _ _)

theorem readBegun_medium (s : State) (n : NodeId) (l c : Nat) (u : UsbReply) :
    ((s.readBegun n l c u).port n).medium = (s.port n).medium := by
  rw [State.readBegun, State.port_putPort_same]

theorem readBegun_putRead (s : State) (n : NodeId) (l c : Nat) (u : UsbReply) (ph : ReadPhase) :
    (s.readBegun n l c u).putRead n l c 0 ph = s.putPort n { s.port n with active := some (.read l c 0 ph), usb := u } := by
  simp only [State.readBegun, State.putRead, putPort_putPort, State.port_putPort_same]

/-! ## The first extent (R129) -/

section
variable {m : MediumRef} {blocks l c : Nat} {x : ImageRec} {i : ExtentIx} {y : Extent}

theorem read_key (hx : s.image m.image = some x) : s.readKey m l 0 = some (x.key (BitVec.ofNat 32 (l * m.size.bytes / 4096))) := by
  rw [State.readKey, hx]
  rfl

theorem readBegun_goes (hm : (s.port n).medium = .present m blocks) (hc : c ≠ 0) (u : UsbReply) : ((s.readBegun n l c u).port n).medium.ref? = some m ∧ 0 < c * m.size.bytes := by
  have : 0 < m.size.bytes := by cases m.size <;> decide
  refine ⟨?_, Nat.mul_pos (Nat.pos_of_ne_zero hc) this⟩
  rw [readBegun_medium, hm]
  rfl

variable (hm : (s.port n).medium = .present m blocks) (hc : c ≠ 0) (hb : l + c ≤ blocks) (hx : s.image m.image = some x)
include hm hc hb hx

theorem decideRead_valid (hl : s.pool.lookup (x.key (BitVec.ofNat 32 (l * m.size.bytes / 4096))) = some (i, y)) (hv : y.valid = true) :
    s.decideRead n l c = (s.putPort n { s.port n with active := some (.read l c 0 (.delivering i)), usb := .accept }).putPool
      ((s.pool.putExtent i { y with pins := y.pins + 1 }).touch i) := by
  obtain ⟨hr, hd⟩ := readBegun_goes (l := l) hm hc .accept
  rw [decideRead_turns hm hc hb, read_key hx, Option.bind_some, hl]
  rw [Option.any_some, if_pos hv, advanceRead_valid (readBegun_active _ _ _ _ _) hr hd hx hl hv, readBegun_putRead]
  rfl

theorem decideRead_filling (hl : s.pool.lookup (x.key (BitVec.ofNat 32 (l * m.size.bytes / 4096))) = some (i, y))
    (hv : y.valid = false) : s.decideRead n l c = s.readBegun n l c .notYet := by
  obtain ⟨hr, hd⟩ := readBegun_goes (l := l) hm hc .notYet
  rw [decideRead_turns hm hc hb, read_key hx, Option.bind_some, hl]
  rw [Option.any_some, if_neg (by rw [hv]; nofun), advanceRead_filling (readBegun_active _ _ _ _ _) hr hd hx hl hv, readBegun_putRead]
  rfl

theorem decideRead_absent (hl : s.pool.lookup (x.key (BitVec.ofNat 32 (l * m.size.bytes / 4096))) = none) :
    s.decideRead n l c = (s.readBegun n l c .notYet).handNeed n m.image (BitVec.ofNat 32 (l * m.size.bytes / 4096)) := by
  obtain ⟨hr, hd⟩ := readBegun_goes (l := l) hm hc .notYet
  rw [decideRead_turns hm hc hb, read_key hx, Option.bind_some, hl]
  rw [Option.any_none, if_neg nofun, advanceRead_absent (readBegun_active _ _ _ _ _) hr hd hx hl, readBegun_putRead]
  rfl

end

/-! ## The data phase of a READ (R122, R129) -/

theorem poll_idle (h : (s.port n).active = none) (room : Nat) : s.poll n room = s := by
  rw [State.poll, h]

theorem poll_waiting {a k d : Nat} (h : (s.port n).active = some (.read a k d .waiting)) (hm : (s.port n).medium.ref?.isSome)
    (room : Nat) : s.poll n room = s.putPort n { s.port n with usb := .notYet } := by
  obtain ⟨m, hm⟩ := Option.isSome_iff_exists.mp hm
  rw [State.poll, h, hm]
  rfl

section
variable {a k d : Nat} {i : ExtentIx} {m : MediumRef} {y : Extent}

/-- The port after the bytes a poll took. -/
def MediaPort.polled (p : MediaPort) (a k d : Nat) (i : ExtentIx) (data : List Byte) (done : Bool) : MediaPort :=
  { p with active := some (.read a k d (.delivering i)), usb := .data data done }

theorem poll_delivering (ha : (s.port n).active = some (.read a k d (.delivering i))) (hm : (s.port n).medium.ref? = some m)
    (hy : s.pool.extents.get i = some y) (room : Nat) : s.poll n room = s.pollRead n m a k d room i y := by
  rw [State.poll, ha, hm]
  simp only [hy]

theorem pollRead_eq (s : State) (n : NodeId) (m : MediumRef) (a k d room : Nat) (i : ExtentIx) (y : Extent) :
    s.pollRead n m a k d room i y =
      let taken := pollSize m.size a k d room
      let pos := readPos m.size a d
      let done := decide (k * m.size.bytes ≤ d + taken)
      let b := s.putPort n ((s.port n).polled a k (d + taken) i (y.bytes (pos % 4096) taken) done)
      if (pos + taken) % 4096 = 0 ∧ 0 < taken then ((b.unpin i).readAhead n m.image (pos / 4096)).advanceRead n
      else if done then (b.unpin i).advanceRead n
      else b := by
  simp only [State.pollRead, State.putRead, State.give, MediaPort.polled, putPort_putPort, State.port_putPort_same]

/-- A poll that takes the last byte the request uses of the extent turns to the next one, after the pool's work. -/
theorem pollRead_turns (room : Nat)
    (h : (readPos m.size a d + pollSize m.size a k d room) % 4096 = 0 ∧ 0 < pollSize m.size a k d room ∨
      k * m.size.bytes ≤ d + pollSize m.size a k d room) :
    ∃ v, PoolWork (s.putPort n ((s.port n).polled a k (d + pollSize m.size a k d room) i
        (y.bytes (readPos m.size a d % 4096) (pollSize m.size a k d room))
        (decide (k * m.size.bytes ≤ d + pollSize m.size a k d room)))) v ∧
      s.pollRead n m a k d room i y = v.advanceRead n := by
  rw [pollRead_eq]
  dsimp only
  split
  · exact ⟨_, (unpin_work _ _).trans (readAhead_work _ _ _ _), rfl⟩
  · next hp =>
    rw [if_pos (decide_eq_true (h.resolve_left hp))]
    exact ⟨_, unpin_work _ _, rfl⟩

theorem pollRead_stays (room : Nat)
    (h1 : ¬((readPos m.size a d + pollSize m.size a k d room) % 4096 = 0 ∧ 0 < pollSize m.size a k d room))
    (h2 : decide (k * m.size.bytes ≤ d + pollSize m.size a k d room) = false) :
    s.pollRead n m a k d room i y = s.putPort n ((s.port n).polled a k (d + pollSize m.size a k d room) i
      (y.bytes (readPos m.size a d % 4096) (pollSize m.size a k d room)) false) := by
  rw [pollRead_eq]
  dsimp only
  rw [if_neg h1, h2, if_neg nofun]

end

/-- Settles O50. -/
theorem readsDeliverTheirBlocks : Obligations.ReadsDeliverTheirBlocks := by
  intro s n lba count m blocks x i e a k d room hp p c poll ended key begun
  have read {v : State} (hv : s.offerRequest n (·.decideRead n lba.toNat count.toNat) = v) : Completes c s v :=
    completes_of_eq (f := (·.offerRequest n (·.decideRead n lba.toNat count.toNat))) rfl hp hv
  have polled {v : State} (hv : s.poll n room = v) : Completes poll s v := completes_of_eq (f := (·.poll n room)) rfl hp hv
  refine ⟨fun hx => read (offerRequest_refused hx _), fun hat hac => ?_, fun hac => polled (poll_idle hac room),
    fun hac hm => polled (poll_waiting hac hm room), ?_⟩
  · have taken := offerRequest_taken hat hac (·.decideRead n lba.toNat count.toNat)
    have count_ne (hc : count ≠ 0) : count.toNat ≠ 0 := fun h => hc (BitVec.eq_of_toNat_eq h)
    refine ⟨fun hm => read (taken.trans (decideRead_notReady hm _ _)),
      fun hm hc => read (taken.trans (decideRead_none hm (congrArg BitVec.toNat hc))),
      fun hm hc hb => read (taken.trans ((decideRead_past hm (count_ne hc) hb).trans ?_)), fun hm hc hb hx => ⟨fun hl hv => ?_,
        fun hl hv => ?_, fun hl => ?_⟩⟩
    · rw [BitVec.ofNat_toNat, BitVec.setWidth_eq]
    · exact read (taken.trans (decideRead_valid hm (count_ne hc) hb hx hl hv))
    · exact read (taken.trans (decideRead_filling hm (count_ne hc) hb hx hl hv))
    · obtain ⟨t, ht, hs⟩ := exec_settles (c := c) (f := (·.offerRequest n (·.decideRead n lba.toNat count.toNat))) rfl hp
      rw [taken, decideRead_absent hm (count_ne hc) hb hx hl] at hs
      have work := handNeed_works (s.readBegun n lba.toNat count.toNat .notYet) n m.image key.extent
      have all := (work.delivers.trans hs.delivers)
      obtain ⟨-, -, -, -, lines, -, -, power, watches, ports, -, -, -, -, streams, up, -⟩ := all
      exact ⟨t, ht, ports, power, watches, lines, streams, up, hs.awaited (handNeed_awaited _ _ _ _)⟩
  · intro hac hm he pos taken data last
    obtain ⟨t, ht, hs⟩ := exec_settles (c := poll) (f := (·.poll n room)) rfl hp
    have elsewhere : ElsewhereKept n s t := ((poll_media (ns := (· = n)) s rfl room).node.elsewhere).trans hs.delivers.elsewhere
    rw [poll_delivering hac hm he] at hs
    have turned {v : State} {q : MediaPort} (hv : PoolWork (s.putPort n q) v) : v.port n = q :=
      (hv.port_eq n).trans (State.port_putPort_same _ _ _)
    refine ⟨fun hl h => ?_, fun hl h0 h1 => ?_, fun hl => ?_⟩
    · refine polled ((poll_delivering hac hm he room).trans (pollRead_stays room ?_ hl))
      rintro ⟨h0, h1⟩
      exact h.elim (fun h => h h0) (fun h => Nat.ne_of_gt h1 h)
    · obtain ⟨v, hv, hx⟩ := pollRead_turns (y := e) (i := i) (s := s) (n := n) room (.inl ⟨h0, h1⟩)
      have goes : d + taken < k * m.size.bytes := Nat.not_le.mp (of_decide_eq_false hl)
      have hvp := turned hv
      obtain ⟨ph, hph⟩ := advanceRead_port (s := v) (n := n) (by rw [hvp]; rfl) (by rw [hvp]; exact hm) goes
      refine ⟨t, ph, ht, ?_, elsewhere⟩
      rw [hs.delivers.port_eq, hx, hph, hvp, show decide (k * m.size.bytes ≤ d + pollSize m.size a k d room) = false from hl]
      rfl
    · have ends : k * m.size.bytes ≤ d + taken := of_decide_eq_true hl
      obtain ⟨v, hv, hx⟩ := pollRead_turns (y := e) (i := i) (s := s) (n := n) room (.inr ends)
      have hvp := turned hv
      refine ⟨t, ht, ?_, elsewhere⟩
      rw [hs.delivers.port_eq, hx, advanceRead_done (s := v) (n := n) (by rw [hvp]; rfl) (by rw [hvp]; exact hm) ends,
        State.port_putPort_same, hvp, show decide (k * m.size.bytes ≤ d + pollSize m.size a k d room) = true from hl]
      rfl

/-! ## WRITE is decided (R131) -/

theorem decideWrite_notReady (h : (s.port n).medium.isPresent = false) (l c : Nat) :
    s.decideWrite n l c = s.putPort n { s.port n with sense := ⟨.notReady, none⟩, usb := .status .notReady } := by
  rw [State.decideWrite]
  rcases isPresent_false h with h | ⟨r, h⟩ | ⟨r, b, x, h⟩ <;> simp only [h, status_eq]

section
variable {m : MediumRef} {blocks l c : Nat} (hm : (s.port n).medium = .present m blocks)
include hm

theorem decideWrite_protected (hw : m.writable = false) : s.decideWrite n l c =
    s.putPort n { s.port n with sense := ⟨.writeProtected, some (BitVec.ofNat 32 l)⟩, usb := .status .writeProtected } := by
  rw [State.decideWrite]
  simp only [hm, hw, Bool.not_false, if_true, status_eq]

variable (hw : m.writable = true)
include hw

theorem decideWrite_none (hc : c = 0) :
    s.decideWrite n l c = s.putPort n { s.port n with sense := ⟨.none, none⟩, usb := .status .none } := by
  rw [State.decideWrite]
  simp only [hm, hw, hc, Bool.not_true, Bool.false_eq_true, if_false, if_true, status_eq]

theorem decideWrite_past (hc : c ≠ 0) (hb : blocks < l + c) : s.decideWrite n l c =
    s.putPort n { s.port n with sense := ⟨.outOfRange, some (BitVec.ofNat 32 l)⟩, usb := .status .outOfRange } := by
  rw [State.decideWrite]
  simp only [hm, hw, if_neg hc, if_pos hb, Bool.not_true, Bool.false_eq_true, if_false, status_eq]

theorem decideWrite_begins (hc : c ≠ 0) (hb : l + c ≤ blocks) : s.decideWrite n l c =
    s.putPort n { s.port n with active := some (.write l c 0 false), usb := if s.outstanding n then .notYet else .accept } := by
  rw [State.decideWrite]
  simp only [hm, hw, if_neg hc, if_neg (Nat.not_lt.mpr hb), Bool.not_true, Bool.false_eq_true, if_false, State.give, putPort_putPort,
    State.port_putPort_same]

end

/-! ## The data phase of a WRITE (R131, R132) -/

theorem writeData_idle (h : ∀ a k d b, (s.port n).active ≠ some (.write a k d b)) (data : List Byte) : s.writeData n data = s := by
  rw [State.writeData]
  split
  · next ha _ => exact absurd ha (h _ _ _ _)
  · rfl

section
variable {a k done : Nat} {mine : Bool} {m : MediumRef} {data : List Byte}
variable (ha : (s.port n).active = some (.write a k done mine)) (hm : (s.port n).medium.ref? = some m)
include ha hm

theorem poll_writing (room : Nat) :
    s.poll n room = s.putPort n { s.port n with usb := if s.outstanding n then .notYet else .accept } := by
  rw [State.poll, ha, hm]
  rfl

theorem writeData_outstanding (ho : s.outstanding n = true) : s.writeData n data = s.putPort n { s.port n with usb := .notYet } := by
  rw [State.writeData, ha, hm]
  simp only [ho, if_true]
  rfl

/-- The port with the data taken into its staging buffer. -/
def MediaPort.staged (p : MediaPort) (data : List Byte) (target : Nat) : MediaPort :=
  { p with staging := (p.staging ++ data).take target, usb := .accept }

theorem writeData_stages (ho : s.outstanding n = false) : s.writeData n data =
    if (((s.port n).staging ++ data).take (stageTarget k done)).length = stageTarget k done then
      (s.putPort n ((s.port n).staged data (stageTarget k done))).handWrite n m a k done
    else s.putPort n ((s.port n).staged data (stageTarget k done)) := by
  rw [State.writeData, ha, hm]
  simp only [ho, Bool.false_eq_true, if_false, State.give, putPort_putPort, State.port_putPort_same]
  rfl

end

/-- The extents of an image that a BLOCK_WRITE overlaps (R132). -/
def writtenKeys (x : ImageRec) (offset bytes : Nat) (k : ExtentKey) : Bool :=
  k.server == x.server && k.image == x.image && overlaps offset bytes k.extent

/-- A full stage handed over, but for its BLOCK_WRITE's descriptor: the extents it overlaps are stale, the write record stands. -/
theorem handWrite_settles {m : MediumRef} {x : ImageRec} (hx : s.image m.image = some x) (l c h : Nat) :
    let bytes := (s.port n).staging.length
    let a := s.staleWhere (writtenKeys x ((l + h) * 512) bytes)
    Settles ((a.putWrite n ⟨(s.images.writes.get n).generation + 1, some ⟨m.image, (l + h) * 512, bytes, false, .sending⟩⟩).putPort n
      { s.port n with active := some (.write l c (h + bytes / 512) true) }) (s.handWrite n m l c h) := by
  intro bytes a
  have work : PoolWork s a := staleWhere_work s _
  have gen : (a.images.writes.get n).generation = (s.images.writes.get n).generation :=
    congrArg (fun w => (w.get n).generation) work.writes_eq
  have port : a.port n = s.port n := work.port_eq n
  rw [State.handWrite]
  simp only [hx]
  rw [show s.staleWhere (fun k => k.server == x.server && k.image == x.image && overlaps ((l + h) * 512) (s.port n).staging.length
    k.extent) = a from rfl, gen, port]
  split
  · exact sendWrite_settles _ n
  · exact .refl _

/-- Settles O51. -/
theorem writesHandOverStagedBlocks : Obligations.WritesHandOverStagedBlocks := by
  intro s n lba count m blocks a k done mine data room x hp p c offer ended
  have write {v : State} (hv : s.offerRequest n (·.decideWrite n lba.toNat count.toNat) = v) : Completes c s v :=
    completes_of_eq (f := (·.offerRequest n (·.decideWrite n lba.toNat count.toNat))) rfl hp hv
  have offered {v : State} (hv : s.writeData n data = v) : Completes offer s v := completes_of_eq (f := (·.writeData n data)) rfl hp hv
  have lba_eq : BitVec.ofNat 32 lba.toNat = lba := by rw [BitVec.ofNat_toNat, BitVec.setWidth_eq]
  refine ⟨fun hx => write (offerRequest_refused hx _), fun hat hac => ?_, fun hac => offered (writeData_idle hac data), ?_⟩
  · have taken := offerRequest_taken hat hac (·.decideWrite n lba.toNat count.toNat)
    have count_ne (hc : count ≠ 0) : count.toNat ≠ 0 := fun h => hc (BitVec.eq_of_toNat_eq h)
    refine ⟨fun hm => write (taken.trans (decideWrite_notReady hm _ _)),
      fun hm hw => write (taken.trans ((decideWrite_protected hm hw).trans (by rw [lba_eq]))),
      fun hm hw hc => write (taken.trans (decideWrite_none hm hw (congrArg BitVec.toNat hc))),
      fun hm hw hc hb => write (taken.trans ((decideWrite_past hm hw (count_ne hc) hb).trans (by rw [lba_eq]))),
      fun hm hw hc hb => write (taken.trans (decideWrite_begins hm hw (count_ne hc) hb))⟩
  · intro hac hm target staged bytes offset
    refine ⟨completes_of_eq (f := (·.poll n room)) rfl hp (poll_writing hac hm room), fun ho => offered (writeData_outstanding hac hm ho),
      fun ho hb => offered ((writeData_stages hac hm ho).trans (if_neg (Nat.ne_of_lt hb))), fun ho hb hx => ?_⟩
    obtain ⟨t, ht, hs⟩ := exec_settles (c := offer) (f := (·.writeData n data)) rfl hp
    have media : MediaWork (· = n) s (s.writeData n data) := writeData_media (ns := (· = n)) s rfl data
    have elsewhere : ElsewhereKept n s t := media.node.elsewhere.trans hs.delivers.elsewhere
    have console : ConsoleKept n s t := media.console.trans hs.delivers.console
    have uplink : UplinkSettled s t := media.uplink.settled.trans hs.delivers.uplink
    rw [(writeData_stages hac hm ho).trans (if_pos hb)] at hs
    let b := s.putPort n ((s.port n).staged data (stageTarget k done))
    have port : b.port n = (s.port n).staged data (stageTarget k done) := State.port_putPort_same _ _ _
    have handed := (handWrite_settles (s := b) (n := n) (m := m) (x := x) hx a k done).trans hs
    rw [port] at handed
    obtain ⟨hgen, hlive⟩ := handed.delivers.images.2.1 n
    have own {q : MediaPort} {y : WriteEntry} {v : State} : ((v.putWrite n y).putPort n q).images.writes.get n = y :=
      Tab.get_put_same _ _ _
    rw [own] at hgen hlive
    refine ⟨t, ht, ?_, hgen, hlive, fun i e he h1 h2 h3 h4 => ?_, elsewhere, console, uplink⟩
    · rw [handed.delivers.port_eq, State.port_putPort_same]
      rfl
    · have pool : t.pool = (b.staleWhere (writtenKeys x offset bytes)).pool := handed.2.1
      refine (staleWhere_clears b (writtenKeys x offset bytes)).2 i e ?_ ?_
      · rw [State.extent, ← pool]
        exact he
      · rw [writtenKeys, h1, h2, overlaps, decide_eq_true h3, decide_eq_true h4, beq_self_eq_true, beq_self_eq_true]
        rfl

end Sys2Proof.Machine
end

section
/-! PROOFS. Rules about what the Image Fetch Unit reports to the Media Ports: media that leave one record in turn (R135, R138,
R145, R158). -/
namespace Sys2Proof.Machine

-- Side by side, the proofs of this text would need more thread stacks than the check's memory limit holds.
set_option Elab.async false

variable {s e t u a b : State} {n : NodeId} {r : ImageIx} {x y : ImageRec}

/-! ## Events raised in turn (R188) -/

theorem raise_notices_congr (h : a.notices = b.notices) (id : SetId) (ev : Event) : (a.raise id ev).notices = (b.raise id ev).notices := by
  cases id with
  | none =>
    show ({ a.notices with part := a.notices.part.raise ev } : Notices) = { b.notices with part := b.notices.part.raise ev }
    rw [h]
  | some m =>
    show ({ a.notices with sets := a.notices.sets.put m ((a.notices.sets.get m).raise ev) } : Notices) =
      { b.notices with sets := b.notices.sets.put m ((b.notices.sets.get m).raise ev) }
    rw [h]

theorem raise_mediaOnly (s : State) (id : SetId) (ev : Event) : MediaOnly s (s.raise id ev) := by
  cases id <;> exact .refl s

/-! ## A medium leaves its record -/

/-- Node `n`'s medium refers to record `r`. -/
def RefersTo (s : State) (n : NodeId) (r : ImageIx) : Prop := ∃ m, (s.port n).medium.ref? = some m ∧ m.image = r

theorem RefersTo.congr (h : (t.port n).medium = (s.port n).medium) : RefersTo t n r ↔ RefersTo s n r := by
  rw [RefersTo, RefersTo, h]

theorem putWrite_self (s : State) (n : NodeId) : s.putWrite n (s.images.writes.get n) = s := by
  simp only [State.putWrite, State.putImages, Tab.put_get]

/-- What a medium that enters EMPTY leaves of a state, with its event, after a change of its port and its write: the port, the write
and the event are as given, and the record loses the node. -/
structure MediumLeft (n : NodeId) (r : ImageIx) (x : ImageRec) (p : MediaPort) (w : WriteEntry) (ev : Event) (s t : State) : Prop where
  media : MediaOnly s t
  ports : t.ports = s.ports.put n p
  writes : t.images.writes = s.images.writes.put n w
  notices : t.notices = (s.raise (some n) ev).notices
  others : ∀ q, q ≠ r → t.image q = s.image q
  record : t.image r = if withoutNode x.users n = 0 then none else some { x with users := withoutNode x.users n }
  stands : withoutNode x.users n ≠ 0 → t.images.unsentClose = s.images.unsentClose
  closed : withoutNode x.users n = 0 → Closed x s t

theorem Closed.of_same (h : Closed x b t) (hc : b.closeFrame x = a.closeFrame x) (hu : b.images.unsentClose = a.images.unsentClose) :
    Closed x a t := by
  unfold Closed at h ⊢
  rwa [hc, hu] at h

theorem Closed.delivers (h : Closed x a t) (hd : Delivers t u) : Closed x a u := by
  have hu := hd.images.2.2.2.2.2.1
  unfold Closed at h ⊢
  split
  · next ho =>
    rw [if_pos ho] at h
    exact hu.trans h
  · next ho =>
    rw [if_neg ho] at h
    exact h.imp (hd.kept.mem _) hu.trans

theorem closeFrame_congr (h : b.su = a.su) (x : ImageRec) : b.closeFrame x = a.closeFrame x := by
  simp only [State.closeFrame, State.addressOf, State.station, h]

theorem released_unsentClose {m : BitVec 8} (h : m ≠ 0) : (s.released r x m).images.unsentClose = s.images.unsentClose := by
  rw [State.released, if_neg h]
  rfl

/-- A medium emptied after the pool's work of a change of its port and of its write, with its event. -/
theorem emptied_left {q : MediaPort} {w : WriteEntry} {m : MediumRef} (hb : PoolWork ((a.putWrite n w).putPort n q) b)
    (hm : q.medium.ref? = some m) (hx : a.image m.image = some x) (lock changed : Bool) (ev : Event) :
    MediumLeft n m.image x (q.emptied lock changed) w ev a ((b.emptyMedium n lock changed).raise (some n) ev) := by
  have port : b.port n = q := (hb.port_eq n).trans (State.port_putPort_same _ _ _)
  have works := emptyMedium_works b n lock changed
  have image (k : ImageIx) : (b.putPort n (q.emptied lock changed)).image k = a.image k := hb.image_eq k
  rw [port, hm, leaving_some ((image _).trans hx)] at works
  generalize hc : b.putPort n (q.emptied lock changed) = c at works image
  obtain ⟨ports, notices, writes⟩ := released_still c m.image x (withoutNode x.users n)
  have delivers := works.delivers
  have before : MediaOnly a c := by
    subst hc
    exact hb.mediaOnly
  have unsent : c.images.unsentClose = a.images.unsentClose := by
    subst hc
    exact hb.unsentClose_eq
  have su : c.su = a.su := before.2.2.2.1
  refine ⟨?_, ?_, ?_, ?_, fun k hk => ?_, ?_, fun h => ?_, fun h => ?_⟩
  · exact before.trans ((released_mediaOnly c _ _ _).trans (delivers.mediaOnly.trans (raise_mediaOnly _ _ _)))
  · rw [State.raise_ports, works.ports_eq, ports, ← hc, State.putPort, hb.ports_eq]
    exact Tab.put_put _ _ _ _
  · rw [State.raise_images, works.writes_eq, writes, ← hc]
    exact hb.writes_eq
  · refine raise_notices_congr (works.notices_eq.trans (notices.trans ?_)) _ _
    rw [← hc]
    exact hb.notices_eq
  · rw [show ((b.emptyMedium n lock changed).raise (some n) ev).image k = (b.emptyMedium n lock changed).image k from
      congrArg (fun i => i.images.get k) (State.raise_images _ _ _), works.image_eq, released_image_ne hk, image]
  · rw [show ((b.emptyMedium n lock changed).raise (some n) ev).image m.image = (b.emptyMedium n lock changed).image m.image from
      congrArg (fun i => i.images.get m.image) (State.raise_images _ _ _), works.image_eq, released_image]
  · rw [State.raise_images, works.unsentClose_eq, released_unsentClose h, unsent]
  · have closes : Closed x a (b.emptyMedium n lock changed) := by
      have := (released_closed c m.image x).delivers ((show withoutNode x.users n = 0 from h) ▸ works).delivers
      exact this.of_same (closeFrame_congr su x) unsent
    unfold Closed at closes ⊢
    rw [State.raise_images, State.raise_up]
    exact closes

/-! ## Media that leave one record in turn -/

/-- Record `r`, which was `y`, is held by the nodes whose media refer to it, and is gone where there is none. -/
structure RecordHeld (r : ImageIx) (y : ImageRec) (s t : State) : Prop where
  media : MediaOnly s t
  others : ∀ q, q ≠ r → t.image q = s.image q
  held : ∀ z, t.image r = some z → z = { y with users := z.users } ∧ z.users ≠ 0 ∧
    t.images.unsentClose = s.images.unsentClose ∧ ∀ k : NodeId, z.users.getLsbD k.val = true ↔ RefersTo t k r
  gone : t.image r = none → Closed y s t ∧ ∀ k, ¬RefersTo t k r

theorem users_eq_zero_iff {m : BitVec 8} : m = 0 ↔ ∀ k : NodeId, m.getLsbD k.val = false := by
  constructor
  · rintro rfl k
    simp
  · intro h
    refine BitVec.eq_of_getLsbD_eq fun i hi => ?_
    rw [h ⟨i, hi⟩]
    simp

theorem port_put {p : MediaPort} (h : t.ports = s.ports.put n p) (k : NodeId) : t.port k = if k = n then p else s.port k := by
  rw [State.port, h, Tab.get_put]
  rfl

theorem RecordHeld.leaves (h : RecordHeld r y s a) {z : ImageRec} (hz : a.image r = some z) {p : MediaPort} {w : WriteEntry} {ev : Event}
    (hl : MediumLeft n r z p w ev a t) (hp : p.medium = .empty) : RecordHeld r y s t := by
  obtain ⟨same, -, unsent, users⟩ := h.held z hz
  have refers (k : NodeId) : RefersTo t k r ↔ (withoutNode z.users n).getLsbD k.val = true := by
    rw [getLsbD_withoutNode, Bool.and_eq_true, users, decide_eq_true_iff]
    have port := port_put hl.ports k
    by_cases hk : k = n
    · rw [if_pos hk] at port
      refine ⟨fun ⟨m, hm, _⟩ => ?_, fun hx => absurd hk hx.2⟩
      rw [port, hp] at hm
      cases hm
    · rw [if_neg hk] at port
      rw [RefersTo.congr (congrArg MediaPort.medium port)]
      exact ⟨fun hx => ⟨hx, hk⟩, And.left⟩
  have su : a.su = s.su := h.media.2.2.2.1
  refine ⟨h.media.trans hl.media, fun q hq => (hl.others q hq).trans (h.others q hq), fun v hv => ?_, fun hn => ?_⟩
  · rw [hl.record] at hv
    split at hv
    · cases hv
    · next hw =>
      cases hv
      exact ⟨by rw [same], hw, (hl.stands hw).trans unsent, fun k => (refers k).symm⟩
  · rw [hl.record] at hn
    split at hn
    · next hw =>
      refine ⟨?_, fun k hk => ?_⟩
      · have closed := (hl.closed hw).of_same (closeFrame_congr su z) unsent
        rw [same] at closed
        exact closed
      · rw [refers, hw] at hk
        simp at hk
    · cases hn

/-! ## Nodes take their turns -/

/-- The state with an event of node `n` raised, if there is one. -/
def State.noted (s : State) (n : NodeId) (ev : Option Event) : State := ev.elim s (s.raise (some n))

theorem noted_congr (h : a.notices = b.notices) (n : NodeId) (ev : Option Event) : (a.noted n ev).notices = (b.noted n ev).notices := by
  cases ev with
  | none => exact h
  | some ev => exact raise_notices_congr h (some n) ev

theorem foldl_noted_congr (h : a.notices = b.notices) (ns : List NodeId) (E : NodeId → Option Event) :
    (ns.foldl (fun a n => a.noted n (E n)) a).notices = (ns.foldl (fun a n => a.noted n (E n)) b).notices := by
  induction ns generalizing a b with
  | nil => exact h
  | cons n ns ih => exact ih (noted_congr h n (E n))

/-- What one node's turn makes of its port, its write and its events. -/
structure NodeTurn (n : NodeId) (p : MediaPort) (w : WriteEntry) (ev : Option Event) (s t : State) : Prop where
  ports : t.ports = s.ports.put n p
  writes : t.images.writes = s.images.writes.put n w
  notices : t.notices = (s.noted n ev).notices

/-- What the turns of the nodes `ns` make of ports, writes and events. -/
structure NodesTurned (ns : List NodeId) (P : NodeId → MediaPort) (W : NodeId → WriteEntry) (E : NodeId → Option Event)
    (s t : State) : Prop where
  ports : ∀ k, t.port k = if k ∈ ns then P k else s.port k
  writes : ∀ k, t.images.writes.get k = if k ∈ ns then W k else s.images.writes.get k
  notices : t.notices = (ns.foldl (fun a n => a.noted n (E n)) s).notices

theorem foldl_turns {f : State → NodeId → State} {P : NodeId → MediaPort} {W : NodeId → WriteEntry} {E : NodeId → Option Event}
    {Inv : State → Prop} {ns : List NodeId} (hn : ns.Nodup)
    (step : ∀ a, ∀ n ∈ ns, a.port n = s.port n → a.images.writes.get n = s.images.writes.get n → Inv a →
      NodeTurn n (P n) (W n) (E n) a (f a n) ∧ Inv (f a n)) (h : Inv s) :
    NodesTurned ns P W E s (ns.foldl f s) ∧ Inv (ns.foldl f s) := by
  induction ns generalizing s with
  | nil => exact ⟨⟨fun _ => rfl, fun _ => rfl, rfl⟩, h⟩
  | cons n ns ih =>
    obtain ⟨fresh, hn⟩ := List.nodup_cons.mp hn
    obtain ⟨turn, inv⟩ := step s n List.mem_cons_self rfl rfl h
    have port (k : NodeId) : (f s n).port k = if k = n then P n else s.port k := port_put turn.ports k
    have write (k : NodeId) : (f s n).images.writes.get k = if k = n then W n else s.images.writes.get k := by
      rw [turn.writes, Tab.get_put]
    have ne {k : NodeId} (hk : k ∈ ns) : k ≠ n := fun h => fresh (h ▸ hk)
    obtain ⟨⟨ports, writes, notices⟩, inv⟩ := ih hn (s := f s n) (fun a k hk hp hw => step a k (List.mem_cons_of_mem _ hk)
      (hp.trans ((port k).trans (if_neg (ne hk)))) (hw.trans ((write k).trans (if_neg (ne hk))))) inv
    refine ⟨⟨fun k => ?_, fun k => ?_, ?_⟩, inv⟩
    · rw [List.foldl_cons, ports, port]
      by_cases hk : k = n
      · subst hk
        rw [if_neg fresh, if_pos rfl, if_pos List.mem_cons_self]
      · simp only [List.mem_cons, hk, false_or, if_false]
    · rw [List.foldl_cons, writes, write]
      by_cases hk : k = n
      · subst hk
        rw [if_neg fresh, if_pos rfl, if_pos List.mem_cons_self]
      · simp only [List.mem_cons, hk, false_or, if_false]
    · rw [List.foldl_cons, notices]
      exact foldl_noted_congr turn.notices ns E

theorem MediumLeft.turn {p : MediaPort} {w : WriteEntry} {ev : Event} (h : MediumLeft n r x p w ev s t) :
    NodeTurn n p w (some ev) s t := ⟨h.ports, h.writes, h.notices⟩

theorem nodesOf_nodup (m : BitVec 8) : (nodesOf m).Nodup := List.Nodup.filter _ (by decide)

theorem mem_nodesOf {m : BitVec 8} {k : NodeId} : k ∈ nodesOf m ↔ m.getLsbD k.val = true := by
  have all : k ∈ allNodes := by
    revert k
    decide
  rw [nodesOf, List.mem_filter]
  exact and_iff_right all

/-! ## A lost server (R138, R157) -/

theorem abandonWrite_works {q : MediaPort} (h : PoolWork (s.putPort n q) t) :
    PoolWork ((s.putWrite n { s.images.writes.get n with live := none }).putPort n
      { q with staging := if s.outstanding n then [] else q.staging }) (t.abandonWrite n) := by
  have port : t.port n = q := (h.port_eq n).trans (State.port_putPort_same _ _ _)
  have writes : t.images.writes = s.images.writes := h.writes_eq
  have outstanding : t.outstanding n = s.outstanding n := h.outstanding_eq n
  rw [State.abandonWrite, outstanding]
  split
  · have works := (h.putWrite n { s.images.writes.get n with live := none }).putPort n { q with staging := [] }
    rw [show (s.putPort n q).putWrite n { s.images.writes.get n with live := none } =
      (s.putWrite n { s.images.writes.get n with live := none }).putPort n q from rfl, putPort_putPort] at works
    rw [port, writes]
    exact works
  · next ho =>
    have idle : (s.images.writes.get n).live = none := Option.not_isSome_iff_eq_none.mp ho
    have same : ({ s.images.writes.get n with live := none } : WriteEntry) = s.images.writes.get n := by rw [← idle]
    rw [same, putWrite_self]
    exact h

theorem forced_eq (p : MediaPort) (o : Bool) : ({ p.endedNotReady o with
    staging := if o then [] else (p.endedNotReady o).staging } : MediaPort).emptied false true = p.forced o := by
  simp only [MediaPort.emptied, MediaPort.forced, MediaPort.endedNotReady]
  cases p.active <;> cases o <;> simp

theorem forceEjectLost_left {m : MediumRef} (hm : (s.port n).medium.ref? = some m) (hx : s.image m.image = some x) :
    MediumLeft n m.image x ((s.port n).forced (s.outstanding n)) { s.images.writes.get n with live := none }
      (.serverLost x.server x.image) s (s.forceEjectLost n) := by
  have works := abandonWrite_works (endNotReady_works s n)
  have left := emptied_left works (m := m) (by
    rw [← hm, ← endedNotReady_medium (s.port n) (s.outstanding n)]) hx false true (.serverLost x.server x.image)
  rw [forced_eq] at left
  have loses : s.forceEjectLost n =
      ((((s.endNotReady n).abandonWrite n).emptyMedium n false true)).raise (some n) (.serverLost x.server x.image) := by
    simp only [State.forceEjectLost, hm, hx]
  rw [loses]
  exact left

/-- Media of one record forced EMPTY in turn; `Inv` is what else each forced eject keeps. -/
theorem foldl_forceEjectLost {ns : List NodeId} {Inv : State → Prop} (hn : ns.Nodup) (h : RecordHeld r y s s)
    (hr : ∀ n ∈ ns, RefersTo s n r)
    (step : ∀ a n m z, (a.port n).medium.ref? = some m → m.image = r → a.image r = some z → Inv a → Inv (a.forceEjectLost n))
    (begins : Inv s) :
    NodesTurned ns (fun n => (s.port n).forced (s.outstanding n)) (fun n => { s.images.writes.get n with live := none })
      (fun _ => some (.serverLost y.server y.image)) s (ns.foldl State.forceEjectLost s) ∧
      RecordHeld r y s (ns.foldl State.forceEjectLost s) ∧ Inv (ns.foldl State.forceEjectLost s) := by
  refine foldl_turns (Inv := fun a => RecordHeld r y s a ∧ Inv a) hn (fun a n hmem hp hw ⟨held, inv⟩ => ?_) ⟨h, begins⟩
  have refers : RefersTo a n r := (RefersTo.congr (congrArg MediaPort.medium hp)).mpr (hr n hmem)
  cases hz : a.image r with
  | none => exact absurd refers ((held.gone hz).2 n)
  | some z =>
    obtain ⟨m, hm, hmr⟩ := refers
    have same := (held.held z hz).1
    have server : z.server = y.server := by rw [same]
    have image : z.image = y.image := by rw [same]
    have left := forceEjectLost_left hm (hmr.symm ▸ hz)
    have out : a.outstanding n = s.outstanding n := by rw [State.outstanding, State.outstanding, hw]
    rw [hp, hw, out, hmr, server, image] at left
    exact ⟨left.turn, held.leaves hz left rfl, step a n m z hm hmr hz inv⟩

/-! ## A failure is counted (R158) -/

theorem RecordHeld.begin (hx : s.image r = some y) (hu : y.users ≠ 0)
    (law : ∀ k : NodeId, y.users.getLsbD k.val = true ↔ RefersTo s k r) : RecordHeld r y s s where
  media := .refl s
  others _ _ := rfl
  held z hz := by
    rw [hx] at hz
    cases hz
    exact ⟨rfl, hu, rfl, law⟩
  gone h := by
    rw [hx] at h
    cases h

theorem foldl_noted_still (ns : List NodeId) (E : NodeId → Option Event) (s : State) :
    (ns.foldl (fun a n => a.noted n (E n)) s).su = s.su ∧ (ns.foldl (fun a n => a.noted n (E n)) s).now = s.now := by
  induction ns generalizing s with
  | nil => exact ⟨rfl, rfl⟩
  | cons n ns ih =>
    obtain ⟨h1, h2⟩ := ih (s.noted n (E n))
    have still : (s.noted n (E n)).su = s.su ∧ (s.noted n (E n)).now = s.now := by
      cases E n with
      | none => exact ⟨rfl, rfl⟩
      | some ev => exact ⟨rfl, rfl⟩
    exact ⟨h1.trans still.1, h2.trans still.2⟩

/-- Events raised in turn, with what free descriptors then do. -/
theorem foldl_noted_settled {ns : List NodeId} {E : NodeId → Option Event}
    (h : t.notices = (ns.foldl (fun a n => a.noted n (E n)) e).notices) (hm : MediaOnly e t) (hd : Delivers t u) :
    NoticesSettled (ns.foldl (fun a n => a.noted n (E n)) e) u := by
  obtain ⟨su, now⟩ := foldl_noted_still ns E e
  exact hd.notices_trans (.of_eq h) (hm.2.2.2.1.trans su.symm) (hm.1.trans now.symm)

theorem writesSettled_of_eq (h : t.images.writes = s.images.writes) : WritesSettled s t := fun n => by
  rw [WriteSettled, h]
  exact ⟨rfl, rfl⟩

theorem Delivers.writesSettled (h : Delivers s t) : WritesSettled s t := h.images.2.1

theorem countFailure_none (h : s.image r = none) : s.countFailure r = s := by
  rw [State.countFailure, h]

theorem countFailure_below (h : s.image r = some x) (hx : x.failures < 2) :
    s.countFailure r = s.putImage r (some { x with failures := x.failures + 1 }) := by
  rw [State.countFailure, h]
  exact if_neg (by omega)

theorem countFailure_third (h : s.image r = some x) (hx : ¬x.failures < 2) : s.countFailure r =
    (nodesOf x.users).foldl State.forceEjectLost (s.putImage r (some { x with failures := x.failures + 1 })) := by
  rw [State.countFailure, h]
  exact if_pos (by omega)

theorem putImage_mediaOnly (s : State) (r : ImageIx) (x : Option ImageRec) : MediaOnly s (s.putImage r x) := .refl s

/-- The third failure in a row; `Inv` is what else each forced eject keeps. -/
theorem countFailure_loses {Inv : State → Prop} (hx : s.image r = some x) (hf : ¬x.failures < 2) (hu : x.users ≠ 0)
    (law : ∀ k : NodeId, x.users.getLsbD k.val = true ↔ RefersTo s k r)
    (step : ∀ a n m z, (a.port n).medium.ref? = some m → m.image = r → a.image r = some z → Inv a → Inv (a.forceEjectLost n))
    (begins : Inv (s.putImage r (some { x with failures := x.failures + 1 }))) :
    NodesTurned (nodesOf x.users) (fun n => (s.port n).forced (s.outstanding n))
      (fun n => { s.images.writes.get n with live := none }) (fun _ => some (.serverLost x.server x.image)) s (s.countFailure r) ∧
      MediaOnly s (s.countFailure r) ∧ (∀ q, q ≠ r → (s.countFailure r).image q = s.image q) ∧ (s.countFailure r).image r = none ∧
      Closed x s (s.countFailure r) ∧ Inv (s.countFailure r) := by
  rw [countFailure_third hx hf]
  have first : RecordHeld r { x with failures := x.failures + 1 } (s.putImage r (some { x with failures := x.failures + 1 }))
      (s.putImage r (some { x with failures := x.failures + 1 })) :=
    .begin ((image_putImage _ _ _ _).trans (if_pos rfl)) hu law
  obtain ⟨turned, held, inv⟩ := foldl_forceEjectLost (nodesOf_nodup x.users) first (fun n hn => (law n).mp (mem_nodesOf.mp hn)) step
    begins
  have gone : ((nodesOf x.users).foldl State.forceEjectLost (s.putImage r (some { x with failures := x.failures + 1 }))).image r = none := by
    by_contra hne
    obtain ⟨z, hz⟩ := Option.ne_none_iff_exists'.mp hne
    obtain ⟨-, hzu, -, users⟩ := held.held z hz
    refine hzu (users_eq_zero_iff.mpr fun k => Bool.eq_false_iff.mpr fun hk => ?_)
    obtain ⟨m, hm, hmr⟩ := (users k).mp hk
    have port := turned.ports k
    by_cases hkn : k ∈ nodesOf x.users
    · rw [if_pos hkn] at port
      rw [port] at hm
      cases hm
    · rw [if_neg hkn] at port
      rw [port] at hm
      exact hkn (mem_nodesOf.mpr ((law k).mpr ⟨m, hm, hmr⟩))
  refine ⟨⟨turned.ports, turned.writes, turned.notices.trans ?_⟩,
    (putImage_mediaOnly s _ _).trans held.media, fun q hq => (held.others q hq).trans ?_, gone, (held.gone gone).1, inv⟩
  · exact foldl_noted_congr (a := s.putImage r (some { x with failures := x.failures + 1 })) (b := s) rfl (nodesOf x.users)
      (fun _ => some (.serverLost x.server x.image))
  · rw [image_putImage, if_neg hq]

theorem Delivers.ports_eq (h : Delivers s t) : t.ports = s.ports := (congrArg State.ports h.still_eq :)

theorem nodesOf_zero : nodesOf 0 = [] := by decide

/-- A failure counted after the pool's work. -/
theorem countFailure_counted (hb : PoolWork e b)
    (law : ∀ x, e.image r = some x → ∀ k : NodeId, x.users.getLsbD k.val = true ↔ RefersTo e k r) :
    FailureCounted r e (b.countFailure r) := by
  cases hx : e.image r with
  | none =>
    rw [countFailure_none ((hb.image_eq r).trans hx)]
    refine ⟨hb.mediaOnly, fun q _ => congrArg _ (hb.image_eq q), ?_⟩
    rw [hx]
    exact ⟨hb.ports_eq, (hb.image_eq r).trans hx, writesSettled_of_eq hb.writes_eq, .of_eq hb.notices_eq, hb.unsentClose_eq⟩
  | some x =>
    have hxb : b.image r = some x := (hb.image_eq r).trans hx
    have others {v : Option ImageRec} {q : ImageIx} (hq : q ≠ r) :
        ((b.putImage r v).image q).map ImageRec.unsent = (e.image q).map ImageRec.unsent := by
      rw [image_putImage, if_neg hq, hb.image_eq]
    by_cases hf : x.failures < 2
    · rw [countFailure_below hxb hf]
      refine ⟨hb.mediaOnly.trans (putImage_mediaOnly b _ _), fun q hq => others hq, ?_⟩
      rw [hx]
      dsimp only
      rw [if_pos hf]
      refine ⟨hb.ports_eq, ?_, writesSettled_of_eq hb.writes_eq, .of_eq hb.notices_eq, hb.unsentClose_eq⟩
      rw [image_putImage, if_pos rfl]
      rfl
    · by_cases hu : x.users = 0
      · rw [countFailure_third hxb hf, hu, nodesOf_zero]
        refine ⟨hb.mediaOnly.trans (putImage_mediaOnly b _ _), fun q hq => others hq, ?_⟩
        rw [hx]
        dsimp only
        rw [if_neg hf]
        exact fun h => absurd hu h
      · have lawb : ∀ k : NodeId, x.users.getLsbD k.val = true ↔ RefersTo b k r := fun k => by
          rw [RefersTo.congr (congrArg MediaPort.medium (hb.port_eq k))]
          exact law x hx k
        obtain ⟨turned, media, others, gone, closed, -⟩ := countFailure_loses (Inv := fun _ => True) hxb hf hu lawb
          (fun _ _ _ _ _ _ _ _ => trivial) trivial
        have su : b.su = e.su := hb.delivers.su_eq
        have all : MediaOnly e (b.countFailure r) := hb.mediaOnly.trans media
        refine ⟨all, fun q hq => by rw [others q hq, hb.image_eq], ?_⟩
        rw [hx]
        dsimp only
        rw [if_neg hf]
        refine fun _ => ⟨gone, closed.of_same (closeFrame_congr su x) hb.unsentClose_eq, fun n => ?_, ?_⟩
        · have port := turned.ports n
          have write := turned.writes n
          rw [hb.port_eq, hb.outstanding_eq] at port
          rw [hb.writes_eq] at write
          rw [WriteSettled, write]
          by_cases hn : x.users.getLsbD n.val = true
          · rw [if_pos (mem_nodesOf.mpr hn)] at port ⊢
            rw [if_pos hn]
            exact ⟨port, rfl, rfl⟩
          · have hm : n ∉ nodesOf x.users := fun h => hn (mem_nodesOf.mp h)
            rw [if_neg hm] at port ⊢
            rw [if_neg hn]
            exact ⟨port, rfl, rfl⟩
        · exact .of_eq (turned.notices.trans
            (foldl_noted_congr hb.notices_eq (nodesOf x.users) (fun _ => some (.serverLost x.server x.image))))

theorem WriteSettled.trans (h : WriteSettled n s t) (k : WriteSettled n t u) : WriteSettled n s u :=
  ⟨k.1.trans h.1, k.2.trans h.2⟩

theorem WritesSettled.trans (h : WritesSettled s t) (k : WritesSettled t u) : WritesSettled s u := fun n => (h n).trans (k n)

/-- What free descriptors do leaves a failure counted. -/
theorem FailureCounted.delivers (h : FailureCounted r e t) (hd : Delivers t u) : FailureCounted r e u := by
  have hi := hd.images
  obtain ⟨media, others, h⟩ := h
  have su : t.su = e.su := media.2.2.2.1
  have unsent := hi.2.2.2.2.2.1
  refine ⟨media.trans hd.mediaOnly, fun q hq => (hi.1 q).trans (others q hq), ?_⟩
  cases hx : e.image r with
  | none =>
    rw [hx] at h
    obtain ⟨h1, h2, h3, h4, h5⟩ := h
    exact ⟨hd.ports_eq.trans h1, hi.image_none h2, h3.trans hd.writesSettled, hd.notices_trans h4 su media.1, unsent.trans h5⟩
  | some x =>
    rw [hx] at h
    dsimp only at h ⊢
    split
    · next hf =>
      rw [if_pos hf] at h
      obtain ⟨h1, h2, h3, h4, h5⟩ := h
      exact ⟨hd.ports_eq.trans h1, (hi.1 r).trans h2, h3.trans hd.writesSettled, hd.notices_trans h4 su media.1, unsent.trans h5⟩
    · next hf =>
      rw [if_neg hf] at h
      intro hu
      obtain ⟨h1, h2, h3, h4⟩ := h hu
      refine ⟨hi.image_none h1, h2.delivers hd, fun n => ?_, ?_⟩
      · have hw := hd.writesSettled n
        have hn := h3 n
        split
        · next hk =>
          rw [if_pos hk] at hn
          refine ⟨(hd.port_eq n).trans hn.1, ?_, hw.1.trans hn.2.2⟩
          have := hw.2
          rw [hn.2.1] at this
          exact Option.map_eq_none_iff.mp this
        · next hk =>
          rw [if_neg hk] at hn
          exact ⟨(hd.port_eq n).trans hn.1, hn.2.trans hw⟩
      · obtain ⟨su', now'⟩ := foldl_noted_still (nodesOf x.users) (fun _ => some (.serverLost x.server x.image)) e
        exact hd.notices_trans h4 (su.trans su'.symm) (media.1.trans now'.symm)

/-! ## A promise released after a report (R186) -/

theorem MediaOnly.release (h : MediaOnly s.promise t) : MediaOnly s t.release := by
  obtain ⟨h1, h2, h3, h4, h5, h6, h7, h8, h9, h10, h11, h12, h13, h14, h15, h16⟩ := h
  exact ⟨h1, h2, h3, h4, h5, h6, h7, h8, h9, h10, h11, h12, h13, h14, h15.release, h16⟩

theorem foldl_noted_promise (ns : List NodeId) (E : NodeId → Option Event) (s : State) :
    ns.foldl (fun a n => a.noted n (E n)) s.promise = (ns.foldl (fun a n => a.noted n (E n)) s).promise := by
  induction ns generalizing s with
  | nil => rfl
  | cons n ns ih =>
    have one : s.promise.noted n (E n) = (s.noted n (E n)).promise := by
      cases E n <;> rfl
    rw [List.foldl_cons, one, ih]
    rfl

theorem FailureCounted.release (h : FailureCounted r e.promise t) : FailureCounted r e t.release := by
  obtain ⟨media, others, h⟩ := h
  refine ⟨media.release, others, ?_⟩
  cases hx : e.image r with
  | none =>
    rw [show e.promise.image r = none from hx] at h
    exact h
  | some x =>
    rw [show e.promise.image r = some x from hx] at h
    dsimp only at h ⊢
    split
    · next hf =>
      rw [if_pos hf] at h
      exact h
    · next hf =>
      rw [if_neg hf] at h
      intro hu
      obtain ⟨h1, h2, h3, h4⟩ := h hu
      refine ⟨h1, h2, h3, ?_⟩
      rw [show (nodesOf x.users).foldl (fun a n => a.raise (some n) (.serverLost x.server x.image)) e.promise = _ from
        foldl_noted_promise _ (fun _ => some (.serverLost x.server x.image)) e] at h4
      exact h4

end Sys2Proof.Machine
end

section
/-! PROOFS. The obligations about the ends of opens and of writes (chapter 8). -/
namespace Sys2Proof.Machine

-- Side by side, the proofs of this text would need more thread stacks than the check's memory limit holds.
set_option Elab.async false

variable {s e t u : State} {n : NodeId} {w : WriteOp} {x : ImageRec} {ok : Bool}

/-! ## A BLOCK_WRITE ends (R132, R133, R156) -/

/-- The port of a node whose write has ended, its bytes freed. -/
def MediaPort.freed (p : MediaPort) : MediaPort := { p with staging := [] }

/-- The port of a node whose WRITE has ended. -/
def MediaPort.spent (p : MediaPort) (k : SenseKey) (i : Option (BitVec 32)) : MediaPort :=
  { p.freed with active := none, sense := ⟨k, i⟩, usb := .status k }

/-- The state whose record of node `n`'s write is NONE. -/
def State.written (s : State) (n : NodeId) : State := s.putWrite n { s.images.writes.get n with live := none }

/-- The port of a PRESENT medium after its node's write ended (R132, R133). -/
def MediaPort.ended (p : MediaPort) (w : WriteOp) (ok : Bool) : MediaPort :=
  match p.active with
  | some (.write lba count handed true) =>
    if !ok then p.spent .mediumError (some (BitVec.ofNat 32 (w.offset / 512)))
    else if count ≤ handed then p.spent .none none
    else { p.freed with active := some (.write lba count handed false), usb := .accept }
  | _ => p.freed

theorem ended_medium (p : MediaPort) (w : WriteOp) (ok : Bool) : (p.ended w ok).medium = p.medium := by
  rw [MediaPort.ended]
  split
  · split
    · rfl
    · split <;> rfl
  · rfl

theorem endRequest_write {l c h : Nat} {b : Bool} (ha : (s.port n).active = some (.write l c h b)) (hs : (s.port n).staging = [])
    (k : SenseKey) (i : Option (BitVec 32)) :
    s.endRequest n k i = s.putPort n { s.port n with active := none, sense := ⟨k, i⟩, usb := .status k } := by
  have drops : s.dropActive n = s.putPort n { s.port n with active := none } := by
    rw [State.dropActive, ha]
    show s.putPort n _ = _
    rw [hs, ite_self, ← hs]
  rw [State.endRequest, drops, status_eq, putPort_putPort, State.port_putPort_same]

theorem written_freed (s : State) (n : NodeId) (q : MediaPort) :
    ((s.written n).putPort n q).port n = q := State.port_putPort_same _ _ _

theorem ended_writing {p : MediaPort} {l c h : Nat} (ha : p.active = some (.write l c h true)) : p.ended w ok =
    if !ok then p.spent .mediumError (some (BitVec.ofNat 32 (w.offset / 512)))
    else if c ≤ h then p.spent .none none
    else { p.freed with active := some (.write l c h false), usb := .accept } := by
  rw [MediaPort.ended, ha]

theorem ended_other {p : MediaPort} (ha : ∀ l c h, p.active ≠ some (.write l c h true)) : p.ended w ok = p.freed := by
  rw [MediaPort.ended]
  split
  · next l c h hx => exact absurd hx (ha l c h)
  · rfl

/-- The state in which a write's end is reported to its port. -/
def State.reported (s : State) (n : NodeId) : State := (s.written n).putPort n (s.port n).freed

theorem reported_port (s : State) (n : NodeId) : (s.reported n).port n = (s.port n).freed := State.port_putPort_same _ _ _

theorem reported_ends {l c h : Nat} {b : Bool} (ha : (s.port n).active = some (.write l c h b)) (k : SenseKey) (i : Option (BitVec 32)) :
    (s.reported n).endRequest n k i = (s.written n).putPort n ((s.port n).spent k i) := by
  rw [endRequest_write (by rw [reported_port]; exact ha) (by rw [reported_port]; rfl), reported_port, State.reported, putPort_putPort]
  rfl

theorem writeEnded_present {m : MediumRef} {b : Nat} (hm : (s.port n).medium = .present m b) :
    (s.written n).writeEnded n w ok = (s.written n).putPort n ((s.port n).ended w ok) := by
  have reports : (s.written n).putPort n { (s.written n).port n with staging := [] } = s.reported n := rfl
  have medium : ((s.reported n).port n).medium = .present m b := by rw [reported_port]; exact hm
  have active : ((s.reported n).port n).active = (s.port n).active := by rw [reported_port]; rfl
  rw [State.writeEnded, reports]
  simp only [medium, active]
  by_cases hx : ∃ l c h, (s.port n).active = some (.write l c h true)
  · obtain ⟨l, c, h, ha⟩ := hx
    rw [ended_writing ha, ha]
    cases ok with
    | false => exact reported_ends ha _ _
    | true =>
      rw [if_neg (by nofun : ¬(!true) = true)]
      dsimp only
      rw [if_pos rfl]
      by_cases hc : c ≤ h
      · rw [if_pos hc, if_pos hc]
        exact reported_ends ha _ _
      · rw [if_neg hc, if_neg hc, State.give, putPort_putPort, State.port_putPort_same, reported_port, State.reported, putPort_putPort,
          show (s.port n).freed.medium = .present m b from hm]
  · rw [ended_other fun l c h ha => hx ⟨l, c, h, ha⟩]
    split
    · next l c h ha => exact absurd ⟨l, c, h, ha⟩ hx
    · rfl

theorem writeEnded_ejecting {m : MediumRef} {b : Nat} {c : EjectCause} (hm : (s.port n).medium = .ejecting m b c) :
    (s.written n).writeEnded n w ok = (s.reported n).finishEject n c := by
  have reports : (s.written n).putPort n { (s.written n).port n with staging := [] } = s.reported n := rfl
  have medium : ((s.reported n).port n).medium = .ejecting m b c := by rw [reported_port]; exact hm
  rw [State.writeEnded, reports]
  simp only [medium]

theorem counted_ok {r : ImageIx} (hx : s.image r = some x) : s.clearFailures r = s.putImage r (some { x with failures := 0 }) := by
  rw [State.clearFailures, hx]

theorem clearFailures_none {r : ImageIx} (h : s.image r = none) : s.clearFailures r = s := by
  rw [State.clearFailures, h]

theorem endWrite_eq : s.endWrite n w ok = if ok then ((s.written n).writeEnded n w ok).clearFailures w.image
    else ((s.written n).writeEnded n w ok).countFailure w.image := rfl

/-- A record's users are the nodes whose media refer to it (R143). -/
theorem ImageLaw.users (law : ImageLaw s) {r : ImageIx} (hx : s.image r = some x) (k : NodeId) :
    x.users.getLsbD k.val = true ↔ RefersTo s k r := law.1 r x hx k

/-- The last step of an ended write: the failures of its record are 0, or the failure is counted. -/
theorem endWrite_counts {b : State} (hb : (s.written n).writeEnded n w ok = b) (hx : b.image w.image = some x)
    (law : ∀ k : NodeId, x.users.getLsbD k.val = true ↔ RefersTo b k w.image) :
    if ok = true then Settles (b.putImage w.image (some { x with failures := 0 })) (s.endWrite n w ok)
    else FailureCounted w.image b (s.endWrite n w ok) := by
  rw [endWrite_eq, hb]
  split
  · rw [counted_ok hx]
    exact .refl _
  · refine countFailure_counted (.refl b) fun y hy k => ?_
    rw [hx] at hy
    cases hy
    exact law k

/-- A write that ends at an EJECTING medium empties it (R136). -/
theorem ejected_left {m : MediumRef} {b : Nat} {c : EjectCause} (hm : (s.port n).medium = .ejecting m b c)
    (hx : s.image m.image = some x) : MediumLeft n m.image x ((s.port n).freed.emptied false true)
      { s.images.writes.get n with live := none } (.mediumEjected c) s ((s.reported n).finishEject n c) :=
  emptied_left (.refl (s.reported n)) (by rw [show (s.port n).freed.medium = _ from hm]; rfl) hx false true (.mediumEjected c)

/-- While other nodes use the record, an emptied medium leaves its mask alone. -/
theorem ejected_stays {m : MediumRef} {b : Nat} {c : EjectCause} (hm : (s.port n).medium = .ejecting m b c)
    (hx : s.image m.image = some x) (hw : withoutNode x.users n ≠ 0) : (s.reported n).finishEject n c =
      ((((s.written n).putPort n ((s.port n).freed.emptied false true)).raise (some n) (.mediumEjected c)).putImage m.image
        (some { x with users := withoutNode x.users n })) := by
  have empties : (s.reported n).emptyMedium n false true = ((s.written n).putPort n ((s.port n).freed.emptied false true)).leaveRecord n
      m.image := by
    rw [State.emptyMedium]
    simp only [reported_port, show (s.port n).freed.medium = .ejecting m b c from hm]
    rw [State.reported, putPort_putPort]
    rfl
  have leaves : ((s.written n).putPort n ((s.port n).freed.emptied false true)).leaveRecord n m.image =
      ((s.written n).putPort n ((s.port n).freed.emptied false true)).putImage m.image
        (some { x with users := withoutNode x.users n }) := by
    have hx' : ((s.written n).putPort n ((s.port n).freed.emptied false true)).image m.image = some x := hx
    rw [State.leaveRecord, hx']
    exact if_neg hw
  rw [State.finishEject, empties, leaves]
  rfl

/-- The end of a write counted on record `r`, which is `y`. -/
def WriteCounted (r : ImageIx) (ok : Bool) (y : ImageRec) (b t : State) : Prop :=
  if ok then Settles (b.putImage r (some { y with failures := 0 })) t else FailureCounted r b t

/-- The end of a write at the last node that uses its record, whose medium was EJECTING. -/
def WriteRemoves (n : NodeId) (r : ImageIx) (x : ImageRec) (c : EjectCause) (e t : State) : Prop :=
  let b := (e.written n).putPort n ((e.port n).freed.emptied false true)
  MediaOnly e t ∧ t.ports = b.ports ∧ t.image r = none ∧ Closed x e t ∧ WritesSettled b t ∧
    NoticesSettled (b.raise (some n) (.mediumEjected c)) t ∧
    ∀ q, q ≠ r → (t.image q).map ImageRec.unsent = (e.image q).map ImageRec.unsent

/-- The state after the medium of a node, EJECTING on record `r`, is EMPTY, where other nodes use the record. -/
def State.ejectedFrom (s : State) (n : NodeId) (r : ImageIx) (x : ImageRec) (c : EjectCause) : State :=
  (((s.written n).putPort n ((s.port n).freed.emptied false true)).raise (some n) (.mediumEjected c)).putImage r
    (some { x with users := withoutNode x.users n })

theorem writeEnds_present {m : MediumRef} {b : Nat} (hm : (e.port n).medium = .present m b) :
    WriteEnds n w x ok e t ↔ WriteCounted w.image ok x ((e.written n).putPort n ((e.port n).ended w ok)) t := by
  unfold WriteEnds
  dsimp only
  split
  · exact .rfl
  · next h => cases hm.symm.trans h
  · next h => cases hm.symm.trans h
  · next h => cases hm.symm.trans h

theorem writeEnds_ejecting {m : MediumRef} {b : Nat} {c : EjectCause} (hm : (e.port n).medium = .ejecting m b c) :
    WriteEnds n w x ok e t ↔ if withoutNode x.users n = 0 then WriteRemoves n w.image x c e t
      else WriteCounted w.image ok { x with users := withoutNode x.users n } (e.ejectedFrom n w.image x c) t := by
  unfold WriteEnds
  dsimp only
  split
  · next h => cases hm.symm.trans h
  · next h =>
    cases hm.symm.trans h
    exact .rfl
  · next h => cases hm.symm.trans h
  · next h => cases hm.symm.trans h

theorem writeEnds_of_none (hm : (e.port n).medium = .empty ∨ ∃ m, (e.port n).medium = .loading m) : WriteEnds n w x ok e t := by
  unfold WriteEnds
  dsimp only
  split
  · next h => rcases hm with hm | ⟨m, hm⟩ <;> cases hm.symm.trans h
  · next h => rcases hm with hm | ⟨m, hm⟩ <;> cases hm.symm.trans h
  · trivial
  · trivial

theorem WriteCounted.settles {r : ImageIx} {y : ImageRec} {b : State} (h : WriteCounted r ok y b t) (hs : Settles t u) :
    WriteCounted r ok y b u := by
  unfold WriteCounted at h ⊢
  cases ok with
  | true => exact Settles.trans h hs
  | false => exact FailureCounted.delivers h hs.delivers

theorem WriteCounted.release {r : ImageIx} {y : ImageRec} {b : State} (h : WriteCounted r ok y b.promise t) :
    WriteCounted r ok y b t.release := by
  unfold WriteCounted at h ⊢
  cases ok with
  | true => exact Settles.release h
  | false => exact FailureCounted.release h

theorem WriteRemoves.delivers {r : ImageIx} {c : EjectCause} (h : WriteRemoves n r x c e t) (hd : Delivers t u) :
    WriteRemoves n r x c e u := by
  obtain ⟨h1, h2, h3, h4, h5, h6, h7⟩ := h
  exact ⟨h1.trans hd.mediaOnly, hd.ports_eq.trans h2, hd.images.image_none h3, h4.delivers hd, h5.trans hd.writesSettled,
    hd.notices_trans h6 h1.2.2.2.1 h1.1, fun q hq => (hd.images.1 q).trans (h7 q hq)⟩

/-- What free descriptors do leaves the end of a write as it is. -/
theorem WriteEnds.settles (h : WriteEnds n w x ok e t) (hs : Settles t u) : WriteEnds n w x ok e u := by
  cases hm : (e.port n).medium with
  | empty => exact writeEnds_of_none (.inl hm)
  | loading m => exact writeEnds_of_none (.inr ⟨m, hm⟩)
  | present m b => exact (writeEnds_present hm).mpr (((writeEnds_present hm).mp h).settles hs)
  | ejecting m b c =>
    rw [writeEnds_ejecting hm] at h ⊢
    split
    · next hw =>
      rw [if_pos hw] at h
      exact h.delivers hs.delivers
    · next hw =>
      rw [if_neg hw] at h
      exact h.settles hs

theorem WriteEnds.release (h : WriteEnds n w x ok e.promise t) : WriteEnds n w x ok e t.release := by
  cases hm : (e.port n).medium with
  | empty => exact writeEnds_of_none (.inl hm)
  | loading m => exact writeEnds_of_none (.inr ⟨m, hm⟩)
  | present m b =>
    refine (writeEnds_present hm).mpr (WriteCounted.release ?_)
    exact (writeEnds_present (e := e.promise) hm).mp h
  | ejecting m b c =>
    have h := (writeEnds_ejecting (e := e.promise) hm).mp h
    rw [writeEnds_ejecting hm]
    split
    · next hw =>
      rw [if_pos hw] at h
      obtain ⟨h1, h2, h3, h4, h5, h6, h7⟩ := h
      exact ⟨h1.release, h2, h3, h4, h5, h6, h7⟩
    · next hw =>
      rw [if_neg hw] at h
      exact WriteCounted.release h

/-- An outstanding write ends. -/
theorem endWrite_ends (hl : (s.images.writes.get n).live = some w) (hx : s.image w.image = some x) (images : ImageLaw s)
    (fetches : FetchLaw s) : WriteEnds n w x ok s (s.endWrite n w ok) := by
  have medium := fetches.2.2 n w hl
  have users := images.users hx
  cases hm : (s.port n).medium with
  | empty => exact writeEnds_of_none (.inl hm)
  | loading m => exact writeEnds_of_none (.inr ⟨m, hm⟩)
  | present m b =>
    refine (writeEnds_present hm).mpr (endWrite_counts (writeEnded_present hm) hx fun k => ?_)
    rw [RefersTo.congr (s := s)]
    · exact users k
    · rw [port_put (s := s) (t := (s.written n).putPort n ((s.port n).ended w ok)) rfl]
      split
      · next hk => rw [ended_medium, hk]
      · rfl
  | ejecting m b c =>
    rw [hm] at medium
    have record : m.image = w.image := medium
    have hxm : s.image m.image = some x := record ▸ hx
    have left := ejected_left hm hxm
    have ends := writeEnded_ejecting (w := w) (ok := ok) hm
    rw [record] at left
    rw [writeEnds_ejecting hm]
    split
    · next hw =>
      have gone := left.record
      rw [if_pos hw] at gone
      have whole : s.endWrite n w ok = (s.reported n).finishEject n c := by
        rw [endWrite_eq, ends, clearFailures_none gone, countFailure_none gone, ite_self]
      rw [whole]
      exact ⟨left.media, left.ports, gone, left.closed hw, writesSettled_of_eq left.writes, .of_eq left.notices,
        fun q hq => congrArg _ (left.others q hq)⟩
    · next hw =>
      rw [ejected_stays hm hxm hw, record] at ends
      refine endWrite_counts ends ?_ fun k => ?_
      · exact (image_putImage _ _ _ _).trans (if_pos rfl)
      · have port := port_put (s := s) (t := s.ejectedFrom n w.image x c) rfl k
        by_cases hk : k = n
        · rw [if_pos hk] at port
          refine iff_of_false (fun hb => ?_) fun ⟨v, hv, _⟩ => ?_
          · rw [getLsbD_withoutNode, hk] at hb
            simp at hb
          · rw [show (s.ejectedFrom n w.image x c).port k = _ from port] at hv
            cases hv
        · rw [if_neg hk] at port
          show (withoutNode x.users n).getLsbD k.val = true ↔ RefersTo (s.ejectedFrom n w.image x c) k w.image
          rw [RefersTo.congr (congrArg MediaPort.medium port), getLsbD_withoutNode, decide_eq_true hk, Bool.and_true]
          exact users k

/-! ## The write timer (R155) -/

/-- The record of a write whose timer has expired for the first time. -/
def WriteOp.retried (w : WriteOp) : WriteOp := { w with second := true, phase := .retryWaiting }

theorem writeExpires_idle (h : ∀ w d, (s.images.writes.get n).live = some w → w.phase ≠ .waiting d) : s.writeExpires n = s := by
  rw [State.writeExpires]
  split
  · next w hw =>
    split
    · next d hd => exact absurd hd (h w d hw)
    · rfl
    · rfl
  · rfl

section
variable {d : Nat} (hl : (s.images.writes.get n).live = some w) (hw : w.phase = .waiting d)
include hl hw

theorem writeExpires_second (h2 : w.second = true) : s.writeExpires n = (s.reachMs d).endWrite n w false := by
  simp only [State.writeExpires, hl, hw, h2, if_true]

theorem writeExpires_first (h2 : w.second = false) : s.writeExpires n = (s.reachMs d).retryWrite n w := by
  simp only [State.writeExpires, hl, hw, h2, Bool.false_eq_true, if_false]

end

/-- The state in which a write waits for a descriptor to be sent again. -/
def State.rewaiting (s : State) (n : NodeId) (w : WriteOp) : State :=
  s.putWrite n { s.images.writes.get n with live := some w.retried }

theorem putWrite_putWrite (s : State) (n : NodeId) (y z : WriteEntry) : (s.putWrite n y).putWrite n z = s.putWrite n z := by
  simp only [State.putWrite, State.putImages, Tab.put_put]

theorem write_putWrite (s : State) (n : NodeId) (y : WriteEntry) : (s.putWrite n y).images.writes.get n = y := Tab.get_put_same _ _ _

theorem retryWrite_eq : s.retryWrite n w =
    if (s.rewaiting n w).rewriteReady n then (s.rewaiting n w).sendWrite n else s.rewaiting n w := rfl

theorem retryWrite_settles :
    Settles (s.putWrite n { s.images.writes.get n with live := some { w with second := true } }) (s.retryWrite n w) := by
  have same : Settles (s.putWrite n { s.images.writes.get n with live := some { w with second := true } }) (s.rewaiting n w) := by
    have := putWrite_settles (s.putWrite n { s.images.writes.get n with live := some { w with second := true } }) n
      { s.images.writes.get n with live := some w.retried } (by rw [write_putWrite]) (by rw [write_putWrite]; rfl)
    rwa [putWrite_putWrite] at this
  rw [retryWrite_eq]
  split
  · exact same.trans (sendWrite_settles _ n)
  · exact same

/-- Where a descriptor is free, the BLOCK_WRITE is sent again at once, with its tag. -/
theorem retryWrite_sends (hx : s.image w.image = some x) (ho : 1 ≤ s.up.outside) :
    s.writeFrame x w n (s.images.writes.get n).generation (s.port n).staging ∈ (s.retryWrite n w).up.frames := by
  have live : ((s.rewaiting n w).images.writes.get n).live = some w.retried := congrArg WriteEntry.live (write_putWrite _ _ _)
  have ready : (s.rewaiting n w).rewriteReady n = true := by
    rw [State.rewriteReady, live]
    exact decide_eq_true ho
  have record : (s.rewaiting n w).image w.retried.image = some x := hx
  have gen : ((s.rewaiting n w).images.writes.get n).generation = (s.images.writes.get n).generation := by
    rw [State.rewaiting, write_putWrite]
  rw [retryWrite_eq, if_pos ready, State.sendWrite]
  simp only [live, record, gen]
  have frames : s.writeFrame x w n (s.images.writes.get n).generation (s.port n).staging ∈
      ((s.rewaiting n w).enqueue (s.writeFrame x w n (s.images.writes.get n).generation (s.port n).staging)).up.frames := by
    rw [frames_enqueue]
    exact List.mem_append_right _ (List.mem_singleton.mpr rfl)
  exact frames

/-- Settles O58. -/
theorem writesEndOnceWithAnOutcome : Obligations.WritesEndOnceWithAnOutcome := by
  intro s h bytes body i n w x d entry later
  refine ⟨?_, ?_⟩
  · intro c ha hlen hn hg hs hl hw hx hsrv images fetches
    have serves : s.promise.serves i = true := serves_iff.mpr ⟨w.image, x, hx, hsrv⟩
    have wellFormed : malformed .writeReply body = false := Bool.eq_false_iff.mpr fun hm =>
      (malformed_write.mp hm).elim (fun h => absurd hlen (Nat.not_le.mpr h)) fun h => absurd hs (Nat.not_le.mpr h)
    have node : nodeOfByte (body.getD 0 0xFF) = some n := by
      have hb : body ≠ [] := fun hb => by rw [hb] at hlen; cases hlen
      rw [nodeOfByte_eq, first_byte hb, hn]
    have reply : s.promise.takeReply i .writeReply body = s.promise.endWrite n w (byteAt body 2 = 0) :=
      (takeReply_write wellFormed serves).trans (replyWrite_taken (s := s.promise) node hl hw hg.symm hx hsrv)
    have ends : WriteEnds n w x (byteAt body 2 = 0) s.promise (s.promise.endWrite n w (byteAt body 2 = 0)) :=
      endWrite_ends (s := s.promise) hl hx images fetches
    refine ⟨_, ha.exec_reply rfl, ?_⟩
    rw [reply]
    exact ends.release.settles (finish_settles _)
  · intro c hp
    have runs : exec c s = s.whenRunning (·.writeExpires n) := rfl
    refine ⟨fun idle => completes_of_eq runs hp (writeExpires_idle idle), fun hl hw hx => ⟨fun h2 => ⟨?_, fun ho t ht => ?_⟩,
      fun h2 images fetches => ?_⟩⟩
    · refine completes_of runs hp ?_
      rw [writeExpires_first hl hw h2]
      exact retryWrite_settles (s := later)
    · have ends := exec_running runs hp
      rw [writeExpires_first hl hw h2] at ends
      cases ht.symm.trans ends
      exact (finish_settles _).delivers.kept.mem _ (retryWrite_sends (s := later) hx ho)
    · obtain ⟨t, ht, hs⟩ := exec_settles runs hp
      rw [writeExpires_second hl hw h2] at hs
      exact ⟨t, ht, (endWrite_ends (s := later) hl hx images fetches).settles hs⟩

/-! ## An open ends (R135, R144) -/

/-- The medium of a port that waits for the open of record `r`. -/
def MediaPort.waits (p : MediaPort) (r : ImageIx) : Option MediumRef :=
  match p.medium with
  | .loading m => if m.image = r then some m else none
  | _ => none

theorem waits_some {p : MediaPort} {r : ImageIx} {m : MediumRef} (h : p.waits r = some m) : p.medium = .loading m ∧ m.image = r := by
  rw [MediaPort.waits] at h
  split at h
  · next k hk =>
    split at h
    · next hr =>
      cases h
      exact ⟨hk, hr⟩
    · cases h
  · cases h

theorem waits_none {p : MediaPort} {r : ImageIx} {m : MediumRef} (h : p.waits r = none) (hm : p.medium = .loading m) : m.image ≠ r := by
  rw [MediaPort.waits, hm] at h
  exact fun hr => by
    dsimp only at h
    rw [if_pos hr] at h
    cases h

/-- The port of a node whose insert has failed (R135). -/
def MediaPort.failed (p : MediaPort) : MediaPort := { p with medium := .empty, bootFirst := false, grantBoot := false }

/-- The port of a node whose open has succeeded (R135). -/
def MediaPort.inserted (p : MediaPort) (m : MediumRef) (length : Nat) : MediaPort :=
  { p with medium := .present m (blockCount length m.size), changed := true }

section
variable {r : ImageIx} {a : State} {m : MediumRef} {len : Nat}

theorem opened_idle (h : (a.port n).waits r = none) : a.opened r len n = a := by
  rw [State.opened]
  cases hm : (a.port n).medium with
  | loading k => exact if_neg (waits_none h hm)
  | empty | present _ _ | ejecting _ _ _ => rfl

theorem openFailed_idle (h : (a.port n).waits r = none) : a.openFailed r n = a := by
  rw [State.openFailed]
  cases hm : (a.port n).medium with
  | loading k => exact if_neg (waits_none h hm)
  | empty | present _ _ | ejecting _ _ _ => rfl

variable (h : (a.port n).waits r = some m)
include h

theorem opened_tooLarge (hl : maxBlocks < blockCount len m.size) : a.opened r len n = a.insertFailed n true := by
  obtain ⟨hm, hr⟩ := waits_some h
  rw [State.opened, hm]
  dsimp only
  rw [if_pos hr, if_pos hl]

theorem opened_present (hl : ¬maxBlocks < blockCount len m.size) : a.opened r len n = a.present n m len := by
  obtain ⟨hm, hr⟩ := waits_some h
  rw [State.opened, hm]
  dsimp only
  rw [if_pos hr, if_neg hl]

theorem openFailed_fails : a.openFailed r n = a.insertFailed n false := by
  obtain ⟨hm, hr⟩ := waits_some h
  rw [State.openFailed, hm]
  exact if_pos hr

end

section
variable {r : ImageIx} {y : ImageRec} {a : State} {m : MediumRef}

theorem idle_turn (a : State) (n : NodeId) : NodeTurn n (a.port n) (a.images.writes.get n) none a a :=
  ⟨(Tab.put_get _ _).symm, (Tab.put_get _ _).symm, rfl⟩

theorem insertFailed_turn (h : RecordHeld r y s a) (hw : (a.port n).waits r = some m) (b : Bool) :
    NodeTurn n (a.port n).failed (a.images.writes.get n) (some (.insertFailed b)) a (a.insertFailed n b) ∧
      RecordHeld r y s (a.insertFailed n b) := by
  obtain ⟨hm, hr⟩ := waits_some hw
  have ref : (a.port n).medium.ref? = some m := by rw [hm]; rfl
  cases hz : a.image r with
  | none => exact absurd ⟨m, ref, hr⟩ ((h.gone hz).2 n)
  | some z =>
    have self : PoolWork ((a.putWrite n (a.images.writes.get n)).putPort n (a.port n)) a := by
      rw [putWrite_self, putPort_self]
      exact .refl a
    have left := emptied_left self ref (hr.symm ▸ hz) (a.port n).lock (a.port n).changed (.insertFailed b)
    rw [hr] at left
    exact ⟨left.turn, h.leaves hz left rfl⟩

theorem MediaOnly.frames {t : State} (h : MediaOnly a t) {f : TxFrame} (hf : f ∈ a.up.frames) : f ∈ t.up.frames := by
  obtain ⟨-, -, -, -, -, -, -, -, -, -, -, -, -, -, hu, -⟩ := h
  exact hu.kept.mem f hf

theorem Closed.grows {t : State} (h : Closed y s a) (hf : ∀ f ∈ a.up.frames, f ∈ t.up.frames)
    (hu : t.images.unsentClose = a.images.unsentClose) : Closed y s t := by
  unfold Closed at h ⊢
  rw [hu]
  split
  · next ho => rwa [if_pos ho] at h
  · next ho =>
    rw [if_neg ho] at h
    exact h.imp_left (hf _)

theorem RecordHeld.of_same {t : State} (h : RecordHeld r y s a) (hm : MediaOnly a t) (hi : t.images = a.images)
    (hp : ∀ k, (t.port k).medium.ref? = (a.port k).medium.ref?) : RecordHeld r y s t := by
  have image (q : ImageIx) : t.image q = a.image q := congrArg (fun i => i.images.get q) hi
  have refers (k : NodeId) : RefersTo t k r ↔ RefersTo a k r := by rw [RefersTo, RefersTo, hp]
  refine ⟨h.media.trans hm, fun q hq => (image q).trans (h.others q hq), fun z hz => ?_, fun hz => ?_⟩
  · obtain ⟨h1, h2, h3, h4⟩ := h.held z ((image r).symm.trans hz)
    exact ⟨h1, h2, by rw [hi]; exact h3, fun k => (h4 k).trans (refers k).symm⟩
  · obtain ⟨h1, h2⟩ := h.gone ((image r).symm.trans hz)
    exact ⟨h1.grows (fun f hf => hm.frames hf) (by rw [hi]), fun k hk => h2 k ((refers k).mp hk)⟩

theorem present_turn (h : RecordHeld r y s a) (hw : (a.port n).waits r = some m) (len : Nat) :
    NodeTurn n ((a.port n).inserted m len) (a.images.writes.get n) (some .mediumInserted) a (a.present n m len) ∧
      RecordHeld r y s (a.present n m len) := by
  obtain ⟨hm, hr⟩ := waits_some hw
  refine ⟨⟨rfl, (Tab.put_get _ _).symm, rfl⟩, h.of_same ?_ rfl fun k => ?_⟩
  · exact MediaOnly.refl a
  · rw [port_put (s := a) (t := a.present n m len) rfl]
    split
    · next hk => rw [hk, hm]; rfl
    · rfl

end

/-! ### Every waiting medium in turn -/

/-- What an open's end makes of a waiting port, with its event; `none` for a port that does not wait. -/
abbrev OpenReport := MediaPort → Option (MediaPort × Event)

/-- The report "opened" with a length (R135). -/
def openedReport (r : ImageIx) (len : Nat) : OpenReport := fun p => (p.waits r).map fun m =>
  if 4294967295 < blockCount len m.size then (p.failed, .insertFailed true) else (p.inserted m len, .mediumInserted)

/-- The report "failed" (R135). -/
def failedReport (r : ImageIx) : OpenReport := fun p => (p.waits r).map fun _ => (p.failed, .insertFailed false)

/-- The port after a report, and its event. -/
def OpenReport.port (f : OpenReport) (p : MediaPort) : MediaPort := (f p).elim p Prod.fst
def OpenReport.event (f : OpenReport) (p : MediaPort) : Option Event := (f p).map Prod.snd

section
variable {r : ImageIx} {y : ImageRec} {a : State} {len : Nat}

theorem opened_turn (h : RecordHeld r y s a) (n : NodeId) :
    NodeTurn n ((openedReport r len).port (a.port n)) (a.images.writes.get n) ((openedReport r len).event (a.port n)) a
      (a.opened r len n) ∧ RecordHeld r y s (a.opened r len n) := by
  cases hw : (a.port n).waits r with
  | none =>
    rw [opened_idle hw, OpenReport.port, OpenReport.event, openedReport, hw]
    exact ⟨idle_turn a n, h⟩
  | some m =>
    rw [OpenReport.port, OpenReport.event, openedReport, hw]
    by_cases hl : maxBlocks < blockCount len m.size
    · have large : 4294967295 < blockCount len m.size := hl
      rw [opened_tooLarge hw hl, Option.map_some, if_pos large]
      exact insertFailed_turn h hw true
    · have fits : ¬4294967295 < blockCount len m.size := hl
      rw [opened_present hw hl, Option.map_some, if_neg fits]
      exact present_turn h hw len

theorem openFailed_turn (h : RecordHeld r y s a) (n : NodeId) :
    NodeTurn n ((failedReport r).port (a.port n)) (a.images.writes.get n) ((failedReport r).event (a.port n)) a
      (a.openFailed r n) ∧ RecordHeld r y s (a.openFailed r n) := by
  cases hw : (a.port n).waits r with
  | none =>
    rw [openFailed_idle hw, OpenReport.port, OpenReport.event, failedReport, hw]
    exact ⟨idle_turn a n, h⟩
  | some m =>
    rw [OpenReport.port, OpenReport.event, failedReport, hw, openFailed_fails hw]
    exact insertFailed_turn h hw false

end

/-- The end of an open of record `r`, which is then `y`, from `e` to `t`. -/
structure OpenEnds (r : ImageIx) (y : ImageRec) (f : OpenReport) (e t : State) : Prop where
  media : MediaOnly e t
  others : ∀ q, q ≠ r → (t.image q).map ImageRec.unsent = (e.image q).map ImageRec.unsent
  writes : WritesSettled e t
  ports : ∀ n, t.port n = f.port (e.port n)
  notices : NoticesSettled (allNodes.foldl (fun a n => a.noted n (f.event (e.port n))) e) t
  held : ∀ z, t.image r = some z → z.unsent = ({ y with users := z.users } : ImageRec).unsent ∧ z.users ≠ 0 ∧
    t.images.unsentClose = e.images.unsentClose
  gone : t.image r = none → (∀ n : NodeId, y.users.getLsbD n.val = true → (t.port n).medium = .empty) ∧ Closed y e t

/-- A report leaves a waiting medium EMPTY or on the record, and other media as they are. -/
def OpenReport.fits (f : OpenReport) (r : ImageIx) : Prop :=
  ∀ p, (f p = none ∨ (f.port p).medium = .empty ∨ ∃ m, (f.port p).medium.ref? = some m ∧ m.image = r) ∧
    ((f p).isSome → ∃ m, p.medium.ref? = some m ∧ m.image = r)

theorem openedReport_fits (r : ImageIx) (len : Nat) : (openedReport r len).fits r := by
  intro p
  cases hw : p.waits r with
  | none =>
    rw [openedReport, hw]
    exact ⟨.inl rfl, nofun⟩
  | some m =>
    obtain ⟨hm, hr⟩ := waits_some hw
    rw [OpenReport.port, openedReport, hw, Option.map_some]
    refine ⟨.inr ?_, fun _ => ⟨m, by rw [hm]; rfl, hr⟩⟩
    split
    · exact .inl rfl
    · exact .inr ⟨m, rfl, hr⟩

theorem failedReport_fits (r : ImageIx) : (failedReport r).fits r := by
  intro p
  cases hw : p.waits r with
  | none =>
    rw [failedReport, hw]
    exact ⟨.inl rfl, nofun⟩
  | some m =>
    obtain ⟨hm, hr⟩ := waits_some hw
    rw [OpenReport.port, failedReport, hw, Option.map_some]
    exact ⟨.inr (.inl rfl), fun _ => ⟨m, by rw [hm]; rfl, hr⟩⟩

theorem foldl_nodesOf {E : NodeId → Option Event} {m : BitVec 8} (h : ∀ n : NodeId, m.getLsbD n.val = false → E n = none) (s : State) :
    (nodesOf m).foldl (fun a n => a.noted n (E n)) s = allNodes.foldl (fun a n => a.noted n (E n)) s := by
  rw [nodesOf, List.foldl_filter]
  congr 1
  funext a n
  split
  · rfl
  · next hn => rw [h n (Bool.eq_false_iff.mpr hn)]; rfl

/-- Reports to the users of a record end the open, but for what free descriptors do. -/
theorem reports_end {r : ImageIx} {y : ImageRec} {f : OpenReport} {op : State → NodeId → State} (hf : f.fits r)
    (step : ∀ a n, RecordHeld r y s a → NodeTurn n (f.port (a.port n)) (a.images.writes.get n) (f.event (a.port n)) a (op a n) ∧
      RecordHeld r y s (op a n))
    (hx : s.image r = some y) (hu : y.users ≠ 0) (law : ∀ k : NodeId, y.users.getLsbD k.val = true ↔ RefersTo s k r) :
    OpenEnds r y f s ((nodesOf y.users).foldl op s) := by
  obtain ⟨turned, record⟩ := foldl_turns (f := op) (P := fun n => f.port (s.port n)) (W := fun n => s.images.writes.get n)
    (E := fun n => f.event (s.port n)) (Inv := RecordHeld r y s) (nodesOf_nodup y.users)
    (fun a n _ hp hw held => by rw [← hp, ← hw]; exact step a n held) (.begin hx hu law)
  generalize (nodesOf y.users).foldl op s = v at turned record
  have idle {n : NodeId} (hn : y.users.getLsbD n.val = false) : f (s.port n) = none := by
    by_contra hne
    have := (law n).mpr ((hf (s.port n)).2 (Option.isSome_iff_ne_none.mpr hne))
    rw [hn] at this
    cases this
  have ports (n : NodeId) : v.port n = f.port (s.port n) := by
    rw [turned.ports]
    split
    · rfl
    · next hn => rw [OpenReport.port, idle (Bool.eq_false_iff.mpr fun h => hn (mem_nodesOf.mpr h))]; rfl
  refine ⟨record.media, fun q hq => congrArg _ (record.others q hq), fun n => ?_, ports, ?_, fun z hz => ?_, fun hz => ⟨fun n hn => ?_,
    (record.gone hz).1⟩⟩
  · have write := turned.writes n
    rw [ite_self] at write
    rw [WriteSettled, write]
    exact ⟨rfl, rfl⟩
  · rw [← foldl_nodesOf (E := fun n => f.event (s.port n)) fun n hn => by rw [OpenReport.event, idle hn]; rfl]
    exact .of_eq turned.notices
  · obtain ⟨h1, h2, h3, -⟩ := record.held z hz
    exact ⟨congrArg _ h1, h2, h3⟩
  · have refers := (record.gone hz).2 n
    rw [RefersTo, ports n] at refers
    rcases (hf (s.port n)).1 with h | h | h
    · rw [OpenReport.port, h] at refers
      exact absurd ((law n).mp hn) refers
    · rw [ports n, h]
    · exact absurd h refers

/-! ### The end of an open, and what a step's end leaves of it -/

theorem foldl_noted_eq (ns : List NodeId) (E : NodeId → Option Event) (s : State) : ns.foldl (fun a n => a.noted n (E n)) s =
    { s with notices := (ns.foldl (fun a n => a.noted n (E n)) s).notices } := by
  induction ns generalizing s with
  | nil => rfl
  | cons n ns ih =>
    have one : s.noted n (E n) = { s with notices := (s.noted n (E n)).notices } := by
      cases E n <;> rfl
    rw [List.foldl_cons, ih]
    rw [one]

section
variable {r : ImageIx} {y : ImageRec} {f : OpenReport}

theorem OpenEnds.of_putImage {z : Option ImageRec} (h : OpenEnds r y f (s.putImage r z) t) : OpenEnds r y f s t := by
  have fold := foldl_noted_eq allNodes (fun n => f.event (s.port n)) s
  have fold' := foldl_noted_eq allNodes (fun n => f.event (s.port n)) (s.putImage r z)
  rw [foldl_noted_congr (a := s.putImage r z) (b := s) rfl] at fold'
  have notices := h.notices
  rw [show (allNodes.foldl (fun a n => a.noted n (f.event ((s.putImage r z).port n))) (s.putImage r z)) = _ from fold'] at notices
  refine ⟨h.media, fun q hq => (h.others q hq).trans ?_, h.writes, h.ports, ?_, h.held, h.gone⟩
  · rw [image_putImage, if_neg hq]
  · rw [fold]
    exact notices

theorem OpenEnds.release (h : OpenEnds r y f s.promise t) : OpenEnds r y f s t.release := by
  have notices := h.notices
  rw [show (allNodes.foldl (fun a n => a.noted n (f.event (s.promise.port n))) s.promise) = _ from
    foldl_noted_promise allNodes (fun n => f.event (s.port n)) s] at notices
  exact ⟨h.media.release, h.others, h.writes, h.ports, notices, h.held, h.gone⟩

theorem OpenEnds.delivers (h : OpenEnds r y f e t) (hd : Delivers t u) : OpenEnds r y f e u := by
  have hi := hd.images
  have unsent := hi.2.2.2.2.2.1
  obtain ⟨su, now⟩ := foldl_noted_still allNodes (fun n => f.event (e.port n)) e
  refine ⟨h.media.trans hd.mediaOnly, fun q hq => (hi.1 q).trans (h.others q hq), h.writes.trans hd.writesSettled,
    fun n => (hd.port_eq n).trans (h.ports n), hd.notices_trans h.notices (h.media.2.2.2.1.trans su.symm) (h.media.1.trans now.symm),
    fun z hz => ?_, fun hz => ?_⟩
  · have hr := hi.1 r
    rw [hz] at hr
    obtain ⟨v, hv, hu⟩ := Option.map_eq_some_iff.mp hr.symm
    obtain ⟨h1, h2, h3⟩ := h.held v hv
    have users : v.users = z.users := by
      have keeps (w : ImageRec) : w.unsent.users = w.users := by
        rw [ImageRec.unsent]
        split <;> rfl
      rw [← keeps v, ← keeps z, hu]
    rw [users] at h1 h2
    exact ⟨hu.symm.trans h1, h2, unsent.trans h3⟩
  · have hr := hi.1 r
    rw [hz] at hr
    obtain ⟨h1, h2⟩ := h.gone (Option.map_eq_none_iff.mp hr.symm)
    exact ⟨fun n hn => by rw [hd.port_eq]; exact h1 n hn, h2.delivers hd⟩

end

theorem replyOpen_taken {i : StationIx} {b : List Byte} {r : ImageIx} {d : Nat} (law : ImageLaw s) (hx : s.image r = some x)
    (hs : x.server = i) (hi : x.image = BitVec.ofNat 32 (field b 0 4)) (hp : x.phase = .opening d true) (h1 : 1 ≤ field b 8 6)
    (h2 : field b 8 6 < 2 ^ 41) : s.replyOpen i b = s.takeOpen r x (BitVec.ofNat 32 (field b 4 4)) (field b 8 6) := by
  have awaits : s.awaiting i (BitVec.ofNat 32 (field b 0 4)) = some (r, x) := by
    cases ha : s.awaiting i (BitVec.ofNat 32 (field b 0 4)) with
    | none =>
      have := List.find?_eq_none.mp ha (r, x) (List.mem_filterMap.mpr ⟨r, mem_allNodes r, by rw [hx]; rfl⟩)
      simp [hs, hi, hp] at this
    | some qy =>
      obtain ⟨q, y⟩ := qy
      obtain ⟨hy, h3, h4, -⟩ := awaiting_sent ha
      obtain ⟨-, -, unique, -⟩ := law
      have same := unique q r y x hy hx (h3.trans hs.symm) (h4.trans hi.symm)
      subst same
      rw [hx] at hy
      cases hy
      rfl
  rw [State.replyOpen, awaits]
  exact if_neg (by rw [maxLength]; omega)

theorem openExpires_opening {r : ImageIx} {d : Nat} {sent : Bool} (hx : s.image r = some x) (hp : x.phase = .opening d sent) :
    s.openExpires r = (nodesOf x.users).foldl (fun a n => a.openFailed r n) (s.reachMs d) := by
  simp only [State.openExpires, hx, hp]

theorem openExpires_opened {r : ImageIx} (hx : s.image r = some x) (ho : x.isOpening = false) : s.openExpires r = s := by
  rw [ImageRec.isOpening] at ho
  simp only [State.openExpires, hx]
  split
  · next hp => rw [hp] at ho; cases ho
  · rfl

theorem takeOpen_ends {r : ImageIx} {handle : BitVec 32} {len : Nat} (hu : x.users ≠ 0)
    (law : ∀ k : NodeId, x.users.getLsbD k.val = true ↔ RefersTo s k r) :
    OpenEnds r { x with phase := .opened handle len } (openedReport r len) s (s.takeOpen r x handle len) :=
  OpenEnds.of_putImage (reports_end (op := fun a n => a.opened r len n) (openedReport_fits r len) (fun _ n h => opened_turn h n)
    ((image_putImage _ _ _ _).trans (if_pos rfl)) hu law)

/-- Settles O55. -/
theorem opensEndInEveryWaitingMedium : Obligations.OpensEndInEveryWaitingMedium := by
  intro s h bytes body i r x d sent length handle blocks emptied waiting replied expired ends law hx hu
  have users := law.users hx
  have concludes {c : Instr} {e : State} {y : ImageRec} {f : OpenReport} {after : NodeId → Option (MediaPort × Event)} {t : State}
      (hf : ∀ n, after n = f (e.port n)) (hc : ∀ z, e.closeFrame z = s.closeFrame z) (ht : exec c s = .next t)
      (ho : OpenEnds r y f e t) : ends c e y after := by
    refine ⟨t, ht, ho.media, ho.others, ho.writes, fun n => ?_, ?_, ?_⟩
    · rw [ho.ports, OpenReport.port, ← hf]
      cases after n <;> rfl
    · refine (congrArg (fun (g : State → NodeId → State) => NoticesSettled (allNodes.foldl g e) t) ?_).mp ho.notices
      funext a n
      rw [OpenReport.event, ← hf]
      cases after n <;> rfl
    · cases hz : t.image r with
      | some z => exact ho.held z hz
      | none =>
        obtain ⟨h1, h2⟩ := ho.gone hz
        refine ⟨h1, fun hop => ?_⟩
        rw [Closed, if_neg (by rw [hop]; nofun), hc] at h2
        exact h2
  refine ⟨?_, fun hp hph => ?_, fun hp hop => ?_⟩
  · intro c ha hlen h1 h2 hsrv himg hph
    have serves : s.promise.serves i = true := serves_iff.mpr ⟨r, x, hx, hsrv⟩
    have wellFormed : malformed .openReply body = false := Bool.eq_false_iff.mpr fun hm =>
      absurd hlen (Nat.not_le.mpr (malformed_open.mp hm))
    have reply : s.promise.takeReply i .openReply body = s.promise.takeOpen r x handle length :=
      (takeReply_open wellFormed serves).trans (replyOpen_taken (s := s.promise) law hx hsrv himg hph h1 h2)
    have ended := (takeOpen_ends (s := s.promise) (handle := handle) (len := length) hu users).release.delivers
      (finish_settles _).delivers
    rw [← reply] at ended
    refine concludes (fun n => ?_) (fun _ => rfl) (ha.exec_reply rfl) ended
    rfl
  · have runs : exec (.openTimerExpiry r) s = s.whenRunning (·.openExpires r) := rfl
    obtain ⟨t, ht, hs⟩ := exec_settles runs hp
    rw [openExpires_opening hx hph] at hs
    have ended := reports_end (s := s.reachMs d) (op := fun a n => a.openFailed r n) (failedReport_fits r)
      (fun _ n h => openFailed_turn h n) hx hu users
    exact concludes (f := failedReport r) (fun n => rfl) (fun _ => rfl) ht (ended.delivers hs.delivers)
  · exact completes_of_eq (f := (·.openExpires r)) rfl hp (openExpires_opened hx hop)

end Sys2Proof.Machine
end

section
/-! PROOFS. The obligations about fetches: what ends, frees and retries them (chapter 8). -/
namespace Sys2Proof.Machine

-- Side by side, the proofs of this text would need more thread stacks than the check's memory limit holds.
set_option Elab.async false

variable {s e t u : State} {n : NodeId} {r : ImageIx} {x : ImageRec}

/-! ## What a report about one record leaves of fetches and extents -/

/-- A place of the extent table is unused or the target of a live fetch. -/
def State.vacant (s : State) (i : ExtentIx) : Prop := s.extent i = none ∨ ∃ f l, s.fetching f = some l ∧ l.target = i

/-- What ends fetches of record `r` alone, frees, unpins and tries leave: other fetches go on; a vacant place stays vacant; without
items in the need list nothing is issued. -/
structure Swept (r : ImageIx) (s t : State) : Prop where
  kept : ∀ f l, s.fetching f = some l → l.image ≠ r → t.images.fetches.get f = s.images.fetches.get f
  vacant : ∀ i, s.vacant i → t.vacant i
  idle : s.images.needs = [] → t.images.needs = [] ∧
    (∀ f, s.fetching f = none → t.images.fetches.get f = s.images.fetches.get f) ∧ ∀ i, s.extent i = none → t.extent i = none

theorem Swept.of_same (hf : t.images.fetches = s.images.fetches) (hn : s.images.needs = [] → t.images.needs = [])
    (hx : ∀ i, s.extent i = none → t.extent i = none) : Swept r s t where
  kept f l _ _ := by rw [hf]
  vacant i h := h.imp (hx i) fun ⟨f, l, hl, k⟩ => ⟨f, l, by rw [State.fetching, hf]; exact hl, k⟩
  idle h := ⟨hn h, fun f _ => by rw [hf], hx⟩

theorem Swept.refl (r : ImageIx) (s : State) : Swept r s s := .of_same rfl id fun _ => id

theorem Swept.trans (h : Swept r s t) (k : Swept r t u) : Swept r s u where
  kept f l hl hr := by
    have same := h.kept f l hl hr
    exact (k.kept f l ((congrArg FetchEntry.live same).trans hl) hr).trans same
  vacant i hi := k.vacant i (h.vacant i hi)
  idle hn := by
    obtain ⟨h1, h2, h3⟩ := h.idle hn
    obtain ⟨k1, k2, k3⟩ := k.idle h1
    exact ⟨k1, fun f hf => (k2 f ((congrArg FetchEntry.live (h2 f hf)).trans hf)).trans (h2 f hf), fun i hi => k3 i (h3 i hi)⟩

theorem Tried.vacant (h : Tried s t) {i : ExtentIx} (hi : s.vacant i) : t.vacant i := by
  rcases hi with hi | ⟨f, l, hl, k⟩
  · cases he : t.extent i with
    | none => exact .inl he
    | some x =>
      rcases h.filling i x he with hs | ⟨-, f, l, hl, k, -⟩
      · rw [hi] at hs
        cases hs
      · exact .inr ⟨f, l, hl, k⟩
  · exact .inr ⟨f, l, h.fetching_eq hl, k⟩

theorem tryNeeds_swept (r : ImageIx) (s : State) : Swept r s s.tryNeeds := by
  by_cases hn : s.images.needs = []
  · rw [tryNeeds_none hn]
    exact .refl r s
  · have tried := tryNeeds_tried s
    exact ⟨fun f l hl _ => tried.kept f l hl, fun i hi => tried.vacant hi, fun h => absurd h hn⟩

theorem report_swept (r : ImageIx) (s : State) : Swept r s s.report := by
  rw [State.report]
  split
  · exact (Swept.of_same (s := s) (t := s.putPool { s.pool with waiting := false }) rfl id fun _ => id).trans (tryNeeds_swept r _)
  · exact .refl r s

theorem unpin_swept (r : ImageIx) (s : State) (i : ExtentIx) : Swept r s (s.unpin i) := by
  cases hx : s.pool.extents.get i with
  | none =>
    have same : s.unpin i = s := by rw [State.unpin, hx]
    rw [same]
    exact .refl r s
  | some x =>
    have pool : s.pool.unpin i = s.pool.putExtent i { x with pins := x.pins - 1 } := by rw [Pool.unpin, hx]
    have lowers : Swept r s (s.putPool (s.pool.unpin i)) := by
      rw [pool]
      refine .of_same rfl id fun j hj => ?_
      by_cases h : j = i
      · subst h
        cases hx.symm.trans hj
      · exact (Tab.get_put_ne _ _ h).trans hj
    rw [State.unpin, hx]
    dsimp only
    split
    · exact lowers.trans (report_swept r _)
    · exact lowers

/-! ## Fetches dropped (R145, R153) -/

theorem dropFetch_some {f : FetchIx} {l : Fetch} (h : s.fetching f = some l) : s.dropFetch f =
    (s.putFetch f { s.images.fetches.get f with live := none }).putPool (s.pool.free l.target) := by
  rw [State.fetching] at h
  simp only [State.dropFetch, h]

theorem dropFetch_none {f : FetchIx} (h : s.fetching f = none) : s.dropFetch f = s := by
  rw [State.fetching] at h
  simp only [State.dropFetch, h]

theorem fetching_dropFetch (s : State) (f g : FetchIx) : (s.dropFetch f).fetching g = if g = f then none else s.fetching g :=
  live_dropFetch s f g

theorem extent_free (p : Pool) (i j : ExtentIx) : (p.free i).extents.get j = if j = i then none else p.extents.get j :=
  Tab.get_put _ _ _ _

theorem dropFetch_swept {f : FetchIx} (h : ∀ l, s.fetching f = some l → l.image = r) : Swept r s (s.dropFetch f) := by
  cases hl : s.fetching f with
  | none =>
    rw [dropFetch_none hl]
    exact .refl r s
  | some l =>
    have entry {g : FetchIx} (hg : g ≠ f) : (s.dropFetch f).images.fetches.get g = s.images.fetches.get g := by
      rw [dropFetch_some hl]
      exact Tab.get_put_ne _ _ hg
    have extent (i : ExtentIx) : (s.dropFetch f).extent i = if i = l.target then none else s.extent i := by
      rw [dropFetch_some hl]
      exact extent_free _ _ _
    have needs : (s.dropFetch f).images.needs = s.images.needs := by
      rw [dropFetch_some hl]
      rfl
    have gone {i : ExtentIx} (hi : s.extent i = none) : (s.dropFetch f).extent i = none := by
      rw [extent, hi, ite_self]
    refine ⟨fun g q hq hr => entry fun hg => hr (h q (hg ▸ hq)), fun i hi => ?_, fun hn => ⟨needs.trans hn, fun g hg => entry ?_, fun _ => gone⟩⟩
    · by_cases ht : i = l.target
      · exact .inl (by rw [extent, if_pos ht])
      · rcases hi with hi | ⟨g, q, hq, k⟩
        · exact .inl (gone hi)
        · refine .inr ⟨g, q, ?_, k⟩
          rw [fetching_dropFetch, if_neg, hq]
          rintro rfl
          rw [hl] at hq
          cases hq
          exact ht k.symm
    · rintro rfl
      rw [hl] at hg
      cases hg

theorem foldl_dropFetch_swept {fs : List FetchIx} (h : ∀ f ∈ fs, ∀ l, s.fetching f = some l → l.image = r) :
    Swept r s (fs.foldl State.dropFetch s) := by
  induction fs generalizing s with
  | nil => exact .refl r s
  | cons f fs ih =>
    refine (dropFetch_swept (h f List.mem_cons_self)).trans (ih fun g hg l hl => ?_)
    rw [fetching_dropFetch] at hl
    split at hl
    · cases hl
    · exact h g (List.mem_cons_of_mem _ hg) l hl

theorem fetchesOf_image {f : FetchIx} (h : f ∈ s.fetchesOf r) : ∀ l, s.fetching f = some l → l.image = r := by
  intro l hl
  have := (List.mem_filter.mp h).2
  rw [State.fetching] at hl
  rw [hl] at this
  exact beq_iff_eq.mp this

/-! ## A record removed (R145) -/

/-- No live fetch is of record `r`. -/
def State.unfetched (s : State) (r : ImageIx) : Prop := ∀ f l, s.fetching f = some l → l.image ≠ r

theorem Tried.unfetched (h : Tried s t) (hu : s.unfetched r) (hn : ∀ y ∈ s.images.needs, y.image ≠ r) : t.unfetched r := by
  intro f l hl
  cases hs : s.fetching f with
  | some q =>
    rw [h.fetching_eq hs] at hl
    cases hl
    exact hu f _ hs
  | none =>
    rcases h.fresh f hs with same | ⟨-, q, hq, y, hy, hr, -⟩
    · have : t.fetching f = none := (congrArg FetchEntry.live same).trans hs
      rw [this] at hl
      cases hl
    · rw [hq] at hl
      cases hl
      exact hr ▸ hn y hy

/-- A record removed, before the need list is tried. -/
def State.removing (s : State) (r : ImageIx) (x : ImageRec) : State :=
  let a := (s.fetchesOf r).foldl State.dropFetch (s.closeRecord x)
  let b := a.putNeeds (a.images.needs.filter (fun y => y.image ≠ r))
  (b.putPool (b.pool.setOwned x.server x.image false)).putImage r none

theorem removeRecord_eq (h : s.image r = some x) : s.removeRecord r = if (s.fetchesOf r).isEmpty then s.removing r x
    else ((s.removing r x).putPool { (s.removing r x).pool with waiting := false }).tryNeeds := by
  rw [State.removeRecord, h]
  rfl

theorem closeRecord_fetches (s : State) (x : ImageRec) : (s.closeRecord x).images.fetches = s.images.fetches ∧
    (s.closeRecord x).images.needs = s.images.needs ∧ (s.closeRecord x).pool = s.pool := by
  rw [State.closeRecord]
  split
  · exact ⟨rfl, rfl, rfl⟩
  · split <;> exact ⟨rfl, rfl, rfl⟩

theorem removing_swept (s : State) (r : ImageIx) (x : ImageRec) : Swept r s (s.removing r x) := by
  obtain ⟨h1, h2, h3⟩ := closeRecord_fetches s x
  have closes : Swept r s (s.closeRecord x) := .of_same h1 (fun h => h2.trans h) fun i hi => by rw [State.extent, h3]; exact hi
  have drops : Swept r (s.closeRecord x) ((s.fetchesOf r).foldl State.dropFetch (s.closeRecord x)) :=
    foldl_dropFetch_swept fun f hf l hl => fetchesOf_image hf l (by rw [State.fetching, ← h1]; exact hl)
  refine (closes.trans drops).trans (.of_same rfl (fun h => ?_) fun i hi => ?_)
  · show List.filter _ _ = []
    rw [h]
    rfl
  · show (Tab.map _ _).get i = none
    rw [Tab.get_map]
    exact Option.map_eq_none_iff.mpr hi

theorem removing_unfetched (s : State) (r : ImageIx) (x : ImageRec) :
    (s.removing r x).unfetched r ∧ ∀ y ∈ (s.removing r x).images.needs, y.image ≠ r := by
  obtain ⟨h1, -, -⟩ := closeRecord_fetches s x
  refine ⟨fun f l hl hr => ?_, fun y hy => ?_⟩
  · have live : (s.removing r x).fetching f = if f ∈ s.fetchesOf r then none else (s.closeRecord x).fetching f :=
      live_foldl_dropFetch (s := s.closeRecord x) _ f
    rw [live] at hl
    split at hl
    · cases hl
    · next hf =>
      rw [State.fetching, h1] at hl
      exact hf (mem_fetchesOf s hl hr)
  · have := (List.mem_filter.mp (show y ∈ List.filter _ _ from hy)).2
    exact of_decide_eq_true this

theorem removeRecord_swept (h : s.image r = some x) : Swept r s (s.removeRecord r) ∧ (s.removeRecord r).unfetched r := by
  obtain ⟨h1, h2⟩ := removing_unfetched s r x
  have swept := removing_swept s r x
  rw [removeRecord_eq h]
  split
  · exact ⟨swept, h1⟩
  · refine ⟨swept.trans ((Swept.of_same (s := s.removing r x)
      (t := (s.removing r x).putPool { (s.removing r x).pool with waiting := false }) rfl id fun _ => id).trans (tryNeeds_swept r _)), (tryNeeds_tried _).unfetched h1 h2⟩

theorem leaveRecord_swept (n : NodeId) (h : s.image r = some x) : Swept r s (s.leaveRecord n r) ∧
    ((s.leaveRecord n r).image r = none → (s.leaveRecord n r).unfetched r) := by
  have same : Swept r s (s.putImage r (some { x with users := withoutNode x.users n })) := .of_same rfl id fun _ => id
  have own : (s.putImage r (some { x with users := withoutNode x.users n })).image r = some { x with users := withoutNode x.users n } := by
    rw [image_putImage, if_pos rfl]
  rw [State.leaveRecord, h]
  dsimp only
  split
  · obtain ⟨h1, h2⟩ := removeRecord_swept own
    exact ⟨same.trans h1, fun _ => h2⟩
  · refine ⟨same, fun hn => ?_⟩
    rw [own] at hn
    cases hn

/-! ## Media that leave the record -/

theorem needsWithout_nil (n : NodeId) : needsWithout [] n = [] := rfl

theorem putPort_swept (r : ImageIx) (s : State) (n : NodeId) (q : MediaPort) : Swept r s (s.putPort n q) := .of_same rfl id fun _ => id

theorem leaveNeeds_swept (r : ImageIx) (s : State) (n : NodeId) : Swept r s (s.leaveNeeds n) :=
  .of_same rfl (fun h => by
    show needsWithout s.images.needs n = []
    rw [h, needsWithout_nil]) fun _ => id

theorem dropActive_swept (r : ImageIx) (s : State) (n : NodeId) : Swept r s (s.dropActive n) := by
  have clears : Swept r s (s.clearActive n) := putPort_swept r s n _
  rw [State.dropActive]
  split
  · exact .refl r s
  · exact clears.trans (unpin_swept r _ _)
  · exact clears.trans (leaveNeeds_swept r _ n)
  · exact clears

theorem endNotReady_swept (r : ImageIx) (s : State) (n : NodeId) : Swept r s (s.endNotReady n) := by
  rw [State.endNotReady]
  split
  · rw [State.endRequest, status_eq]
    exact (dropActive_swept r s n).trans (putPort_swept r _ n _)
  · exact .refl r s

theorem abandonWrite_swept (r : ImageIx) (s : State) (n : NodeId) : Swept r s (s.abandonWrite n) := by
  rw [State.abandonWrite]
  split
  · exact .of_same rfl id fun _ => id
  · exact .refl r s

theorem raise_swept (r : ImageIx) (s : State) (id' : SetId) (ev : Event) : Swept r s (s.raise id' ev) := by
  cases id' <;> exact .of_same rfl id fun _ => id

theorem emptyMedium_swept {m : MediumRef} {lock changed : Bool} (hm : (s.port n).medium.ref? = some m) (hr : m.image = r)
    (hx : s.image r = some x) : Swept r s (s.emptyMedium n lock changed) ∧
      ((s.emptyMedium n lock changed).image r = none → (s.emptyMedium n lock changed).unfetched r) := by
  have empties : s.emptyMedium n lock changed = (s.putPort n ((s.port n).emptied lock changed)).leaveRecord n r := by
    subst hr
    simp only [State.emptyMedium, hm]
    rfl
  obtain ⟨h1, h2⟩ := leaveRecord_swept (s := s.putPort n ((s.port n).emptied lock changed)) n hx
  rw [empties]
  exact ⟨(putPort_swept r s n _).trans h1, h2⟩

theorem forceEjectLost_swept {m : MediumRef} (hm : (s.port n).medium.ref? = some m) (hr : m.image = r) (hx : s.image r = some x) :
    Swept r s (s.forceEjectLost n) ∧ ((s.forceEjectLost n).image r = none → (s.forceEjectLost n).unfetched r) := by
  have works := abandonWrite_works (endNotReady_works s n)
  have medium : (((s.endNotReady n).abandonWrite n).port n).medium.ref? = some m := by
    rw [works.port_eq, State.port_putPort_same, ← hm]
    show ((s.port n).endedNotReady (s.outstanding n)).medium.ref? = _
    rw [endedNotReady_medium]
  have image : ((s.endNotReady n).abandonWrite n).image r = some x := (works.image_eq r).trans hx
  obtain ⟨h1, h2⟩ := emptyMedium_swept (lock := false) (changed := true) medium hr image
  have loses : s.forceEjectLost n = (((s.endNotReady n).abandonWrite n).emptyMedium n false true).raise (some n)
      (.serverLost x.server x.image) := by
    simp only [State.forceEjectLost, hm, hr, hx]
  rw [loses]
  refine ⟨((endNotReady_swept r s n).trans (abandonWrite_swept r _ n)).trans (h1.trans (raise_swept r _ _ _)), h2⟩

/-- A failure counted touches fetches of its record alone, and the third in a row leaves none. -/
theorem countFailure_swept (hx : s.image r = some x) (law : ∀ k : NodeId, x.users.getLsbD k.val = true ↔ RefersTo s k r) :
    Swept r s (s.countFailure r) ∧ (2 ≤ x.failures → x.users ≠ 0 → (s.countFailure r).unfetched r) := by
  have counts : Swept r s (s.putImage r (some { x with failures := x.failures + 1 })) := .of_same rfl id fun _ => id
  by_cases hf : x.failures < 2
  · rw [countFailure_below hx hf]
    exact ⟨counts, fun h => absurd hf (Nat.not_lt.mpr h)⟩
  · by_cases hu : x.users = 0
    · rw [countFailure_third hx hf, show nodesOf x.users = [] by rw [hu, nodesOf_zero]]
      exact ⟨counts, fun _ h => absurd hu h⟩
    · obtain ⟨-, -, -, gone, -, swept, unfetched⟩ := countFailure_loses
        (Inv := fun a => Swept r s a ∧ (a.image r = none → a.unfetched r)) hx hf hu law
        (fun a n m z hm hr hz ⟨h1, _⟩ => by
          obtain ⟨h3, h4⟩ := forceEjectLost_swept hm hr hz
          exact ⟨h1.trans h3, h4⟩)
        ⟨counts, fun h => by
          rw [image_putImage, if_pos rfl] at h
          cases h⟩
      exact ⟨swept, fun _ _ => unfetched gone⟩

/-! ## A fetch fails (R130, R153) -/

theorem waits_iff {k : ExtentKey} : n ∈ s.waiters k ↔ s.waitsFor n = some k := by
  rw [State.waiters, List.mem_filter, beq_iff_eq]
  exact and_iff_right (mem_allNodes n)

theorem waitsFor_some {k : ExtentKey} (h : s.waitsFor n = some k) : ∃ a c d m,
    (s.port n).active = some (.read a c d .waiting) ∧ (s.port n).medium.ref? = some m ∧ s.readKey m a d = some k := by
  rw [State.waitsFor] at h
  split at h
  · next a c d m ha hm => exact ⟨a, c, d, m, ha, hm, h⟩
  · cases h

theorem waiters_nodup (s : State) (k : ExtentKey) : (s.waiters k).Nodup := List.Nodup.filter _ (by decide)

/-- The port of a node whose READ, which waited, has failed. -/
def MediaPort.fetchLost (p : MediaPort) (outstanding : Bool) : MediaPort :=
  match p.active, p.medium.ref? with
  | some (.read a _ k .waiting), some m => { p.dropped outstanding with
      sense := ⟨.mediumError, some (BitVec.ofNat 32 (a + k / m.size.bytes))⟩, usb := .status .mediumError }
  | _, _ => p

theorem fetchLost_medium (p : MediaPort) (o : Bool) : (p.fetchLost o).medium = p.medium := by
  rw [MediaPort.fetchLost]
  split <;> rfl

section
variable {a c d : Nat} {m : MediumRef} (ha : (s.port n).active = some (.read a c d .waiting)) (hm : (s.port n).medium.ref? = some m)
include ha hm

theorem fetchLost_waiting (o : Bool) : (s.port n).fetchLost o = { (s.port n).dropped o with
    sense := ⟨.mediumError, some (BitVec.ofNat 32 (a + d / m.size.bytes))⟩, usb := .status .mediumError } := by
  rw [MediaPort.fetchLost, ha, hm]

/-- A waiting READ that fails leaves its place in the need list, and its port its request. -/
theorem fetchFailed_eq : s.fetchFailed n = (s.leaveNeeds n).putPort n ((s.port n).fetchLost (s.outstanding n)) := by
  have fails : s.fetchFailed n = s.endRequest n .mediumError (some (BitVec.ofNat 32 (a + d / m.size.bytes))) := by
    rw [State.fetchFailed, ha, hm]
  have drops : s.dropActive n = (s.leaveNeeds n).putPort n ((s.port n).dropped (s.outstanding n)) := by
    rw [State.dropActive, ha]
    rfl
  rw [fails, State.endRequest, drops, status_eq, putPort_putPort, State.port_putPort_same, fetchLost_waiting ha hm]

end

/-- The waiting READs of nodes `ns` fail after the pool's work. -/
theorem foldl_fetchFailed {ns : List NodeId} (hn : ns.Nodup) {a b : State} (h : PoolWork a b)
    (hw : ∀ n ∈ ns, ∃ k, a.waitsFor n = some k) :
    PoolWork (ns.foldl (fun v n => v.putPort n ((a.port n).fetchLost (a.outstanding n))) a) (ns.foldl State.fetchFailed b) ∧
      (ns.foldl State.fetchFailed b).pool = b.pool ∧ (ns.foldl State.fetchFailed b).images.fetches = b.images.fetches ∧
      (b.images.needs = [] → (ns.foldl State.fetchFailed b).images.needs = []) := by
  have turns (P : NodeId → MediaPort) : ∀ (ns : List NodeId) (a b : State), ns.Nodup → PoolWork a b →
      (∀ n ∈ ns, ∃ l c d m, (a.port n).active = some (.read l c d .waiting) ∧ (a.port n).medium.ref? = some m ∧
        P n = (a.port n).fetchLost (a.outstanding n)) →
      PoolWork (ns.foldl (fun v n => v.putPort n (P n)) a) (ns.foldl State.fetchFailed b) ∧
        (ns.foldl State.fetchFailed b).pool = b.pool ∧ (ns.foldl State.fetchFailed b).images.fetches = b.images.fetches ∧
        (b.images.needs = [] → (ns.foldl State.fetchFailed b).images.needs = []) := by
    intro ns
    induction ns with
    | nil => exact fun a b _ h _ => ⟨h, rfl, rfl, id⟩
    | cons n ns ih =>
      intro a b hn h hw
      obtain ⟨fresh, hn⟩ := List.nodup_cons.mp hn
      obtain ⟨l, c, d, m, ha, hm, hP⟩ := hw n List.mem_cons_self
      have fails := fetchFailed_eq (s := b) (by rw [h.port_eq]; exact ha) (by rw [h.port_eq]; exact hm)
      rw [h.port_eq, h.outstanding_eq, ← hP] at fails
      have work : PoolWork (a.putPort n (P n)) (b.fetchFailed n) := by
        rw [fails]
        exact (h.trans (putNeeds_work b _)).putPort n (P n)
      obtain ⟨h1, h2, h3, h4⟩ := ih (a.putPort n (P n)) (b.fetchFailed n) hn work fun k hk => by
        have ne : k ≠ n := fun e => fresh (e ▸ hk)
        have same : (a.putPort n (P n)).port k = a.port k := Tab.get_put_ne _ _ ne
        rw [same]
        exact hw k (List.mem_cons_of_mem _ hk)
      refine ⟨h1, h2.trans (by rw [fails]; rfl), h3.trans (by rw [fails]; rfl), fun hb => h4 ?_⟩
      rw [fails]
      show needsWithout b.images.needs n = []
      rw [hb, needsWithout_nil]
  refine turns _ ns a b hn h fun n hmem => ?_
  obtain ⟨k, hk⟩ := hw n hmem
  obtain ⟨l, c, d, m, ha, hm, -⟩ := waitsFor_some hk
  exact ⟨l, c, d, m, ha, hm, rfl⟩

theorem foldl_putPort_port (P : NodeId → MediaPort) (ns : List NodeId) (s : State) (k : NodeId) :
    (ns.foldl (fun v n => v.putPort n (P n)) s).port k = if k ∈ ns then P k else s.port k := by
  induction ns generalizing s with
  | nil => rfl
  | cons n ns ih =>
    rw [List.foldl_cons, ih, port_put (s := s) (t := s.putPort n (P n)) rfl]
    by_cases hk : k = n
    · subst hk
      simp only [List.mem_cons_self, if_true, ite_self]
    · simp only [List.mem_cons, hk, false_or, if_false]

/-- The state in which the waiting READs of a failed fetch have failed, but for the pool's work (R153). -/
def State.readsFailed (s : State) (k : ExtentKey) : State :=
  (s.waiters k).foldl (fun v n => v.putPort n ((s.port n).fetchLost (s.outstanding n))) s

theorem readsFailed_refers (s : State) (k : ExtentKey) (n : NodeId) : RefersTo (s.readsFailed k) n r ↔ RefersTo s n r := by
  refine RefersTo.congr ?_
  rw [State.readsFailed, foldl_putPort_port]
  split
  · exact fetchLost_medium _ _
  · rfl

theorem foldl_putPort_image (P : NodeId → MediaPort) (ns : List NodeId) (s : State) (q : ImageIx) :
    (ns.foldl (fun v n => v.putPort n (P n)) s).image q = s.image q := by
  induction ns generalizing s with
  | nil => rfl
  | cons n ns ih => exact ih _

section
variable {f : FetchIx} {l : Fetch} (hx : s.image l.image = some x)
include hx

/-- The state in which a fetch has failed and the need list has been tried, before the failure is counted. -/
def State.fetchLost (s : State) (f : FetchIx) (k : ExtentKey) : State :=
  let a := (s.waiters k).foldl State.fetchFailed (s.dropFetch f)
  (a.putPool { a.pool with waiting := false }).tryNeeds

theorem failFetch_eq : s.failFetch f l = (s.fetchLost f (x.key l.extent)).countFailure l.image := by
  simp only [State.failFetch, hx]
  rfl

omit hx in
/-- What a failed fetch leaves before its failure is counted. -/
theorem fetchLost_works (s : State) (f : FetchIx) (k : ExtentKey) : PoolWork (s.readsFailed k) (s.fetchLost f k) ∧
    ∃ v : State, v.images.fetches = (s.dropFetch f).images.fetches ∧ v.pool.extents = (s.dropFetch f).pool.extents ∧
      ((s.dropFetch f).images.needs = [] → v.images.needs = []) ∧ s.fetchLost f k = v.tryNeeds := by
  obtain ⟨h1, h2, h3, h4⟩ := foldl_fetchFailed (waiters_nodup s k) (dropFetch_work s f) fun n hn => ⟨k, waits_iff.mp hn⟩
  let a := (s.waiters k).foldl State.fetchFailed (s.dropFetch f)
  exact ⟨h1.trans ((putPool_work _ _).trans (tryNeeds_work _)), a.putPool { a.pool with waiting := false }, h3,
    (congrArg Pool.extents h2 :), h4, rfl⟩

theorem failFetch_counted (law : ImageLaw s) :
    FailureCounted l.image (s.readsFailed (x.key l.extent)) (s.failFetch f l) := by
  obtain ⟨work, -⟩ := fetchLost_works s f (x.key l.extent)
  rw [failFetch_eq hx]
  refine countFailure_counted work fun y hy k => ?_
  rw [readsFailed_refers]
  exact law.users ((foldl_putPort_image _ _ s l.image).symm.trans hy) k

/-- The fetch table and the extents after a fetch has failed. -/
theorem failFetch_sweeps (law : ImageLaw s) : Swept l.image (s.dropFetch f) (s.failFetch f l) ∧
    (2 ≤ x.failures → x.users ≠ 0 → (s.failFetch f l).unfetched l.image) ∧
    (x.failures < 2 → ∃ v : State, v.images.fetches = (s.dropFetch f).images.fetches ∧ Tried v v.tryNeeds ∧
      (s.failFetch f l).images.fetches = v.tryNeeds.images.fetches) := by
  obtain ⟨work, v, h1, h2, h3, h4⟩ := fetchLost_works s f (x.key l.extent)
  have image : (s.fetchLost f (x.key l.extent)).image l.image = some x :=
    (work.image_eq _).trans ((foldl_putPort_image _ _ s l.image).trans hx)
  have users (k : NodeId) : x.users.getLsbD k.val = true ↔ RefersTo (s.fetchLost f (x.key l.extent)) k l.image := by
    rw [RefersTo.congr (congrArg MediaPort.medium (work.port_eq k)), readsFailed_refers]
    exact law.users hx k
  obtain ⟨k1, k2⟩ := countFailure_swept image users
  have lost : Swept l.image (s.dropFetch f) (s.fetchLost f (x.key l.extent)) := by
    rw [h4]
    exact (Swept.of_same h1 h3 fun i hi => by rw [State.extent, h2]; exact hi).trans (tryNeeds_swept _ v)
  rw [failFetch_eq hx]
  refine ⟨lost.trans k1, k2, fun hf => ⟨v, h1, tryNeeds_tried v, ?_⟩⟩
  rw [countFailure_below image hf, ← h4]
  rfl

end

/-! ## A fetch is sent again (R153) -/

theorem fetchExpires_idle {f : FetchIx} (h : s.fetching f = none ∨ (s.fetching f).bind Fetch.timer = none) : s.fetchExpires f = s := by
  rw [State.fetching] at h
  rw [State.fetchExpires]
  cases hl : (s.images.fetches.get f).live with
  | none => rfl
  | some l =>
    rw [hl] at h
    have ht : l.timer = none := h.resolve_left nofun
    simp only [ht]

section
variable {f : FetchIx} {l : Fetch} {d : Nat} (hl : s.fetching f = some l) (ht : l.timer = some d)
include hl ht

theorem fetchExpires_second (h2 : l.second = true) : s.fetchExpires f = (s.reachMs d).failFetch f l := by
  rw [State.fetching] at hl
  simp only [State.fetchExpires, hl, ht, h2, if_true]

theorem fetchExpires_first (h2 : l.second = false) : s.fetchExpires f = (s.reachMs d).retryFetch f l := by
  rw [State.fetching] at hl
  simp only [State.fetchExpires, hl, ht, h2, Bool.false_eq_true, if_false]

end

/-- The state in which a fetch waits for a descriptor to be sent again. -/
def State.refetching (s : State) (f : FetchIx) (l : Fetch) : State :=
  s.putFetch f { s.images.fetches.get f with live := some { l with second := true, timer := none } }

theorem putFetch_putFetch (s : State) (f : FetchIx) (y z : FetchEntry) : (s.putFetch f y).putFetch f z = s.putFetch f z := by
  simp only [State.putFetch, State.putImages, Tab.put_put]

theorem fetch_putFetch (s : State) (f : FetchIx) (y : FetchEntry) : (s.putFetch f y).images.fetches.get f = y := Tab.get_put_same _ _ _

theorem retryFetch_eq {f : FetchIx} {l : Fetch} : s.retryFetch f l =
    if (s.refetching f l).refetchReady f then (s.refetching f l).refetch f else s.refetching f l := rfl

theorem retryFetch_settles {f : FetchIx} {l : Fetch} :
    Settles (s.putFetch f { s.images.fetches.get f with live := some { l with second := true } }) (s.retryFetch f l) := by
  have same : Settles (s.putFetch f { s.images.fetches.get f with live := some { l with second := true } }) (s.refetching f l) := by
    have := putFetch_settles (s.putFetch f { s.images.fetches.get f with live := some { l with second := true } }) f
      { s.images.fetches.get f with live := some { l with second := true, timer := none } } (by rw [fetch_putFetch])
      (by rw [fetch_putFetch]; rfl)
    rwa [putFetch_putFetch] at this
  rw [retryFetch_eq]
  split
  · exact same.trans (refetch_settles _ f)
  · exact same

/-- A fetch whose timer runs from now. -/
def Timed (f : FetchIx) (l : Fetch) (s : State) : Prop := s.fetching f = some l ∧ l.timer = some s.fetchDeadline

/-- Where a descriptor is free, the EXTENT_READ is sent again at once, with its tag, and its timer runs. -/
theorem retryFetch_sends {f : FetchIx} {l : Fetch} (hx : s.image l.image = some x) (ho : 1 ≤ s.up.outside) :
    s.readFrame x l.extent l.needed f (s.images.fetches.get f).generation ∈ (s.retryFetch f l).up.frames ∧
      Timed f { l with second := true, timer := some s.fetchDeadline } (s.retryFetch f l) := by
  have entry : (s.refetching f l).images.fetches.get f =
      { s.images.fetches.get f with live := some { l with second := true, timer := none } } := fetch_putFetch _ _ _
  have ready : (s.refetching f l).refetchReady f = true := by
    simp only [State.refetchReady, entry]
    exact decide_eq_true ho
  have record : (s.refetching f l).image l.image = some x := hx
  rw [retryFetch_eq, if_pos ready, State.refetch]
  simp only [entry, record]
  refine ⟨?_, congrArg FetchEntry.live (fetch_putFetch _ _ _), rfl⟩
  have frames : s.readFrame x l.extent l.needed f (s.images.fetches.get f).generation ∈
      ((s.refetching f l).enqueue (s.readFrame x l.extent l.needed f (s.images.fetches.get f).generation)).up.frames := by
    rw [frames_enqueue]
    exact List.mem_append_right _ (List.mem_singleton.mpr rfl)
  exact frames

/-- Of the fetches, only a re-send touches one; the time and the timeout stand. -/
theorem serve_fetches (s : State) (b : Bool) {p : Producer} (hp : p ≠ .needs) (hf : ∀ f, p ≠ .refetch f) :
    (s.serve b p).1.images.fetches = s.images.fetches ∧ (s.serve b p).1.fetchDeadline = s.fetchDeadline := by
  cases p with
  | batch m =>
    obtain ⟨fs, d, c, a, y, h⟩ := s.formBatch_eq m
    show (s.formBatch m).images.fetches = _ ∧ (s.formBatch m).fetchDeadline = _
    rw [h]
    exact ⟨rfl, rfl⟩
  | replay m =>
    simp only [State.serve, State.replayFrame]
    split
    · exact ⟨rfl, rfl⟩
    · split <;> exact ⟨rfl, rfl⟩
  | needs => exact absurd rfl hp
  | refetch f => exact absurd rfl (hf f)
  | imageOpen q =>
    simp only [State.serve, State.sendOpen]
    split
    · split <;> exact ⟨rfl, rfl⟩
    · exact ⟨rfl, rfl⟩
  | rewrite m =>
    simp only [State.serve, State.sendWrite]
    split
    · split <;> exact ⟨rfl, rfl⟩
    · exact ⟨rfl, rfl⟩
  | notice =>
    simp only [State.serve, State.sendNotice]
    split
    · next id _ => cases id <;> exact ⟨rfl, rfl⟩
    · exact ⟨rfl, rfl⟩

theorem refetch_timed {f : FetchIx} {l : Fetch} (g : FetchIx) (h : Timed f l s) : Timed f l (s.refetch g) := by
  obtain ⟨hl, ht⟩ := h
  cases hg : s.fetching g with
  | none =>
    rw [State.fetching] at hg
    simp only [State.refetch, hg]
    exact ⟨hl, ht⟩
  | some q =>
    rw [State.fetching] at hg
    simp only [State.refetch, hg]
    split
    · refine ⟨?_, ht⟩
      by_cases e : f = g
      · subst e
        rw [State.fetching, hg] at hl
        cases hl
        rw [State.fetching, fetch_putFetch, ← ht]
      · exact (congrArg FetchEntry.live (Tab.get_put_ne _ _ e)).trans hl
    · exact ⟨hl, ht⟩

theorem finish_timed {f : FetchIx} {l : Fetch} (h : Timed f l s) : Timed f l s.finish :=
  finish_preserves (R := fun a b => Timed f l a → Timed f l b) (fun _ => id) (fun h k => k ∘ h) (fun _ _ => id)
    (fun a b p hp h => by
      cases p with
      | refetch g => exact refetch_timed g h
      | needs => exact absurd rfl hp
      | batch _ | replay _ | imageOpen _ | rewrite _ | notice =>
        obtain ⟨h1, h2⟩ := serve_fetches a b hp nofun
        rw [Timed, State.fetching, h1, h2]
        exact h)
    (fun _ => id) s h

/-- Settles O57. -/
theorem fetchesAreRetriedOnceThenFail : Obligations.FetchesAreRetriedOnceThenFail := by
  intro s f l x d hp c entry later failed
  have runs : exec c s = s.whenRunning (·.fetchExpires f) := rfl
  refine ⟨fun idle => completes_of_eq runs hp (fetchExpires_idle idle), fun hl ht hx => ⟨fun h2 => ⟨?_, fun ho t ht' => ?_⟩,
    fun h2 law => ?_⟩⟩
  · refine completes_of runs hp ?_
    rw [fetchExpires_first hl ht h2]
    exact retryFetch_settles (s := later)
  · have ends := exec_running runs hp
    rw [fetchExpires_first hl ht h2] at ends
    cases ht'.symm.trans ends
    obtain ⟨sent, timed⟩ := retryFetch_sends (s := later) (f := f) hx ho
    exact ⟨(finish_settles _).delivers.kept.mem _ sent, (finish_timed timed).1⟩
  · obtain ⟨t, ht', hs⟩ := exec_settles runs hp
    rw [fetchExpires_second hl ht h2] at hs
    replace hs : Settles (later.failFetch f l) t := hs
    have live : later.fetching f = some l := hl
    have dropped : (later.dropFetch f).images.fetches.get f = ⟨entry.generation, none⟩ := by
      rw [dropFetch_some live]
      exact fetch_putFetch _ _ _
    have other {g : FetchIx} (hg : g ≠ f) : (later.dropFetch f).images.fetches.get g = s.images.fetches.get g := by
      rw [dropFetch_some live]
      exact Tab.get_put_ne _ _ hg
    have target : (later.dropFetch f).extent l.target = none := by
      rw [dropFetch_some live]
      exact (extent_free _ _ _).trans (if_pos rfl)
    have needs : (later.dropFetch f).images.needs = s.images.needs := by
      rw [dropFetch_some live]
      rfl
    have free : (later.dropFetch f).fetching f = none := congrArg FetchEntry.live dropped
    obtain ⟨swept, unfetched, below⟩ := failFetch_sweeps (s := later) (f := f) hx law
    have settled (g : FetchIx) := hs.2.2.2 g
    have ended {g : FetchIx} {y : FetchEntry} (hg : (later.failFetch f l).images.fetches.get g = y) (hy : y.live = none) :
        t.images.fetches.get g = y := by
      obtain ⟨h3, h4⟩ := settled g
      rw [hg] at h3 h4
      rw [hy] at h4
      have : (t.images.fetches.get g).live = y.live := (Option.map_eq_none_iff.mp h4).trans hy.symm
      cases hz : t.images.fetches.get g with
      | mk a b =>
        rw [hz] at h3 this
        cases y
        cases h3
        cases this
        rfl
    have fetched {g : FetchIx} {q : Fetch} (hq : t.fetching g = some q) :
        ∃ v, (later.failFetch f l).fetching g = some v ∧ v.image = q.image ∧ v.target = q.target := by
      have := hs.fetching g
      rw [hq] at this
      obtain ⟨v, hv, hu⟩ := Option.map_eq_some_iff.mp this.symm
      exact ⟨v, hv, (congrArg Fetch.image hu :), (congrArg Fetch.target hu :)⟩
    refine ⟨t, ht', (failFetch_counted (s := later) hx law).delivers hs.delivers, fun hn => ?_, fun hf => ?_, fun hf hu q hq hr => ?_, ?_,
      fun g hg q hq hr => ?_⟩
    · obtain ⟨-, h3, h4⟩ := swept.idle (needs.trans hn)
      refine ⟨ended ((h3 f free).trans dropped) rfl, ?_⟩
      rw [hs.2.1]
      exact h4 _ target
    · obtain ⟨v, h3, h4, h5⟩ := below hf
      have hv : v.images.fetches.get f = ⟨entry.generation, none⟩ := by rw [h3, dropped]
      rcases h4.fresh f (congrArg FetchEntry.live hv) with same | ⟨gen, -⟩
      · exact .inl (ended (by rw [h5, same, hv]) rfl)
      · refine .inr ((settled f).1.trans ?_)
        rw [h5, gen, hv]
    · obtain ⟨v, hv, hi, -⟩ := fetched hq
      exact unfetched hf hu f v hv (hi.trans hr)
    · rcases swept.vacant l.target (.inl target) with h3 | ⟨g, v, hv, hvt⟩
      · left
        rw [hs.2.1]
        exact h3
      · have := hs.fetching g
        rw [hv] at this
        obtain ⟨q, hq, hu⟩ := Option.map_eq_some_iff.mp this
        exact .inr ⟨g, q, hq, (congrArg Fetch.target hu :).trans hvt⟩
    · have kept : (later.failFetch f l).images.fetches.get g = s.images.fetches.get g := by
        have live' : (later.dropFetch f).fetching g = some q := (congrArg FetchEntry.live (other hg)).trans hq
        by_cases hf : x.failures < 2
        · obtain ⟨v, h3, h4, h5⟩ := below hf
          rw [h5, h4.kept g q (by rw [State.fetching, h3]; exact live'), h3, other hg]
        · exact (swept.kept g q live' (hr.resolve_left hf)).trans (other hg)
      obtain ⟨h3, h4⟩ := settled g
      rw [kept] at h3 h4
      exact ⟨h3, by rw [h4, hq]; rfl⟩

end Sys2Proof.Machine
end

section
/-! PROOFS. The obligation about the fragments that fill an extent (chapters 8 and 9). -/
namespace Sys2Proof.Machine

-- Side by side, the proofs of this text would need more thread stacks than the check's memory limit holds.
set_option Elab.async false

variable {s e t u : State} {n : NodeId} {r : ImageIx} {x : ImageRec}

/-! ## The pool's work beside changes of ports -/

/-- The pool's work and changes of ports. -/
def PortsWork (s t : State) : Prop := ∃ pt, PoolWork { s with ports := pt } t

theorem PoolWork.ports (h : PoolWork s t) : PortsWork s t := ⟨s.ports, h⟩

theorem putPort_ports (s : State) (n : NodeId) (q : MediaPort) : PortsWork s (s.putPort n q) := ⟨_, .refl _⟩

theorem PoolWork.putPorts (h : PoolWork s t) (pt : Tab MediaPort 8) : PoolWork { s with ports := pt } { t with ports := pt } := by
  obtain ⟨st, p, nd, fs, q, rfl, hst⟩ := h
  exact ⟨st, p, nd, fs, q, rfl, hst⟩

theorem PortsWork.trans (h : PortsWork s t) (k : PortsWork t u) : PortsWork s u := by
  obtain ⟨pt, hp⟩ := h
  obtain ⟨pu, hu⟩ := k
  exact ⟨pu, (hp.putPorts pu).trans hu⟩

theorem PortsWork.image_eq (h : PortsWork s t) (q : ImageIx) : t.image q = s.image q := by
  obtain ⟨pt, hp⟩ := h
  exact hp.image_eq q

theorem PortsWork.mediaOnly (h : PortsWork s t) : MediaOnly s t := by
  obtain ⟨pt, hp⟩ := h
  exact hp.mediaOnly

theorem PortsWork.images (h : PortsWork s t) : ImagesSettled s t := by
  obtain ⟨pt, hp⟩ := h
  exact hp.delivers.images

theorem PortsWork.notices_eq (h : PortsWork s t) : t.notices = s.notices := by
  obtain ⟨pt, hp⟩ := h
  exact hp.notices_eq

/-! ## A waiting READ is filled (R130) -/

/-- The port of a node whose waiting READ now delivers. -/
def MediaPort.filling (p : MediaPort) (i : ExtentIx) : MediaPort :=
  match p.active with
  | some (.read a k d _) => { p with active := some (.read a k d (.delivering i)), usb := .accept }
  | _ => p

theorem filled_eq {i : ExtentIx} {y : Extent} {a k d : Nat} {ph : ReadPhase} (ha : (s.port n).active = some (.read a k d ph))
    (hy : s.extent i = some y) : s.filled i n =
      (s.putPort n ((s.port n).filling i)).putPool ((s.pool.putExtent i { y with pins := y.pins + 1 }).touch i) := by
  have pins : (s.putRead n a k d (.delivering i)).pin i = (s.putRead n a k d (.delivering i)).putPool
      ((s.pool.putExtent i { y with pins := y.pins + 1 }).touch i) := by
    have he : (s.putRead n a k d (.delivering i)).pool.extents.get i = some y := hy
    rw [State.pin, he]
    rfl
  rw [State.filled, ha]
  dsimp only
  rw [pins, MediaPort.filling, ha]
  show (((s.putRead n a k d (.delivering i)).putPort n _).putPool _) = _
  rw [show ((s.putRead n a k d (.delivering i)).putPool ((s.pool.putExtent i { y with pins := y.pins + 1 }).touch i)).port n = _ from
    State.port_putPort_same _ _ _, State.putRead, putPort_putPort]
  rfl

/-- The waiting READs of nodes `ns` filled from place `i`, whose extent is pinned once for each. -/
theorem foldl_filled {ns : List NodeId} (hn : ns.Nodup) {i : ExtentIx} {y : Extent} (hy : s.extent i = some y)
    (ha : ∀ n ∈ ns, ∃ a k d ph, (s.port n).active = some (.read a k d ph)) :
    let v := ns.foldl (fun c n => c.filled i n) s
    PortsWork s v ∧ (∀ n, v.port n = if n ∈ ns then (s.port n).filling i else s.port n) ∧
      v.extent i = some { y with pins := y.pins + ns.length } ∧ v.images = s.images ∧
      (s.pool.recency.getLast? = some i → v.pool.recency.getLast? = some i) := by
  induction ns generalizing s y with
  | nil => exact ⟨(PoolWork.refl s).ports, fun _ => rfl, hy, rfl, id⟩
  | cons n ns ih =>
    obtain ⟨fresh, hn⟩ := List.nodup_cons.mp hn
    obtain ⟨a, k, d, ph, hp⟩ := ha n List.mem_cons_self
    have fills := filled_eq hp hy
    have port (m : NodeId) : (s.filled i n).port m = if m = n then (s.port n).filling i else s.port m := by
      rw [fills]
      exact port_put rfl m
    have extent : (s.filled i n).extent i = some { y with pins := y.pins + 1 } := by
      rw [fills]
      exact Tab.get_put_same _ _ _
    have ne {m : NodeId} (hm : m ∈ ns) : m ≠ n := fun e => fresh (e ▸ hm)
    obtain ⟨h1, h2, h3, h4, h5⟩ := ih hn (s := s.filled i n) (y := { y with pins := y.pins + 1 }) extent fun m hm => by
      rw [port, if_neg (ne hm)]
      exact ha m (List.mem_cons_of_mem _ hm)
    refine ⟨?_, fun m => ?_, ?_, h4.trans (by rw [fills]; rfl), fun _ => h5 ?_⟩
    · refine PortsWork.trans ?_ h1
      rw [fills]
      exact (putPort_ports s n _).trans (putPool_work _ _).ports
    · rw [List.foldl_cons, h2, port]
      by_cases hm : m = n
      · subst hm
        rw [if_neg fresh, if_pos rfl, if_pos List.mem_cons_self]
      · simp only [List.mem_cons, hm, false_or, if_false]
    · rw [List.foldl_cons, h3, List.length_cons, Nat.add_assoc, Nat.add_comm 1]
    · rw [fills]
      exact List.getLast?_concat

/-! ## The bytes of a filled extent (R152) -/

theorem take_getD (f : List Byte) (k o : Nat) : ((f.take k) ++ List.replicate (1024 - (f.take k).length) 0).getD o 0 =
    if o < k then f.getD o 0 else 0 := by
  simp only [List.getD_eq_getElem?_getD]
  by_cases h : o < (f.take k).length
  · have hk : o < k := Nat.lt_of_lt_of_le h (by rw [List.length_take]; exact Nat.min_le_left _ _)
    rw [List.getElem?_append_left h, if_pos hk, List.getElem?_take_of_lt hk]
  · have zero : (((f.take k) ++ List.replicate (1024 - (f.take k).length) 0)[o]?).getD 0 = (0 : Byte) := by
      rw [List.getElem?_append_right (Nat.not_lt.mp h), List.getElem?_replicate]
      split <;> rfl
    rw [zero]
    split
    · next hk =>
      have : f.length ≤ o := by
        rw [List.length_take] at h
        omega
      rw [List.getElem?_eq_none this]
      rfl
    · rfl

/-- Beyond the image's length an extent reads as zero (R152). -/
theorem zeroTail_byteOf (y : Extent) (k len : Nat) {j : Nat} (hj : j < 4096) :
    (y.zeroTail k len).byteOf j = if len ≤ 4096 * k + j then 0 else y.byteOf j := by
  have hi : j / 1024 < 4 := by omega
  have frag : (y.zeroTail k len).frags.getD (j / 1024) [] =
      ((y.frags.getD (j / 1024) []).take (len - 4096 * k - 1024 * (j / 1024))) ++
        List.replicate (1024 - ((y.frags.getD (j / 1024) []).take (len - 4096 * k - 1024 * (j / 1024))).length) 0 := by
    rw [Extent.zeroTail, List.getD_eq_getElem?_getD, List.getElem?_map, List.getElem?_range hi]
    rfl
  rw [Extent.byteOf, frag, take_getD, Extent.byteOf]
  by_cases h : len ≤ 4096 * k + j
  · rw [if_pos h, if_neg (by omega)]
  · rw [if_neg h, if_pos (by omega)]

/-! ## What waits for an extent that has not come (R130, R148) -/

/-- Node `n` waits with the first item for the extent `x` of some record, or a fetch brings such an extent. -/
def State.waitsExtent (s : State) (n : NodeId) (x : BitVec 32) : Prop :=
  (∃ r z, s.images.needs.find? (·.sameKey r x) = some z ∧ z.kind = .node ∧ z.waiting.getLsbD n.val = true) ∨
    ∃ f l, s.fetching f = some l ∧ l.extent = x

/-- No VALID extent has key `k`, and a fetch brings one that is FILLING. -/
def Unfilled (k : ExtentKey) (s : State) : Prop :=
  ∀ i y, s.extent i = some y → y.key = k → y.valid = false ∧ ∃ f l, s.fetching f = some l ∧ l.extent = k.extent

/-- Live fetches go on; a FREE entry stays or takes an item. -/
structure Issued (s t : State) : Prop where
  kept : ∀ f l, s.fetching f = some l → t.images.fetches.get f = s.images.fetches.get f
  fresh : ∀ f, s.fetching f = none → t.images.fetches.get f = s.images.fetches.get f ∨
    (t.images.fetches.get f).generation = (s.images.fetches.get f).generation + 1 ∧ (t.fetching f).isSome

theorem Issued.of_same (h : t.images.fetches = s.images.fetches) : Issued s t :=
  ⟨fun f _ _ => by rw [h], fun f _ => .inl (by rw [h])⟩

theorem Issued.trans (h : Issued s t) (k : Issued t u) : Issued s u where
  kept f l hl := (k.kept f l ((congrArg FetchEntry.live (h.kept f l hl)).trans hl)).trans (h.kept f l hl)
  fresh f hf := by
    rcases h.fresh f hf with same | ⟨gen, live⟩
    · exact (k.fresh f ((congrArg FetchEntry.live same).trans hf)).imp (·.trans same) fun ⟨gen, live⟩ => ⟨by rw [gen, same], live⟩
    · obtain ⟨l, hl⟩ := Option.isSome_iff_exists.mp live
      have same := k.kept f l hl
      exact .inr ⟨by rw [same, gen], by rw [State.fetching, same]; exact live⟩

theorem Tried.issued (h : Tried s t) : Issued s t :=
  ⟨h.kept, fun f hf => (h.fresh f hf).imp_right fun ⟨gen, l, hl, _⟩ => ⟨gen, by rw [hl]; rfl⟩⟩

theorem Tried.unfilled (h : Tried s t) {k : ExtentKey} (hu : Unfilled k s) : Unfilled k t := by
  intro i y hy hk
  rcases h.filling i y hy with hs | ⟨hv, f, l, hl, -, hx⟩
  · obtain ⟨hv, f, l, hl, hx⟩ := hu i y hs hk
    exact ⟨hv, f, l, h.fetching_eq hl, hx⟩
  · exact ⟨hv, f, l, hl, hx.trans (congrArg ExtentKey.extent hk)⟩

theorem Tried.waitsExtent (h : Tried s t) {x : BitVec 32} (hw : s.waitsExtent n x) : t.waitsExtent n x := by
  rcases hw with ⟨r, z, hz, hk⟩ | ⟨f, l, hl, hx⟩
  · rcases h.first r x with same | ⟨f, l, hl, -, hx⟩
    · exact .inl ⟨r, z, same.trans hz, hk⟩
    · exact .inr ⟨f, l, hl, hx⟩
  · exact .inr ⟨f, l, h.fetching_eq hl, hx⟩

theorem Settles.waitsExtent (h : Settles s t) {x : BitVec 32} (hw : s.waitsExtent n x) : t.waitsExtent n x := by
  rcases hw with ⟨r, z, hz, hk⟩ | ⟨f, l, hl, hx⟩
  · exact .inl ⟨r, z, by rw [h.2.2.1]; exact hz, hk⟩
  · have := h.fetching f
    rw [hl] at this
    obtain ⟨q, hq, hu⟩ := Option.map_eq_some_iff.mp this
    exact .inr ⟨f, q, hq, (congrArg Fetch.extent hu :).trans hx⟩

/-! ### The need list takes a need (R148) -/

theorem sameKey_iff {y : Need} {q : ImageIx} {v : BitVec 32} : y.sameKey q v = true ↔ y.image = q ∧ y.extent = v := by
  simp [Need.sameKey]

/-- The items of one key, the node's bit set in their waiting sets. -/
def joinNeed (n : NodeId) (r : ImageIx) (x : BitVec 32) (y : Need) : Need :=
  if y.sameKey r x then { y with waiting := withNode y.waiting n } else y

theorem sameKey_joinNeed (n : NodeId) (r : ImageIx) (x : BitVec 32) (y : Need) (q : ImageIx) (v : BitVec 32) :
    (joinNeed n r x y).sameKey q v = y.sameKey q v ∧ (joinNeed n r x y).kind = y.kind := by
  rw [joinNeed]
  split <;> exact ⟨rfl, rfl⟩

theorem joinNeed_waits {n m : NodeId} {r : ImageIx} {x : BitVec 32} {y : Need} (h : y.waiting.getLsbD m.val = true) :
    (joinNeed n r x y).waiting.getLsbD m.val = true := by
  rw [joinNeed]
  split
  · rw [getLsbD_withNode, h, Bool.true_or]
  · exact h

theorem find_joinNeed (ns : List Need) (n : NodeId) (r : ImageIx) (x : BitVec 32) (q : ImageIx) (v : BitVec 32) :
    (ns.map (joinNeed n r x)).find? (·.sameKey q v) = (ns.find? (·.sameKey q v)).map (joinNeed n r x) := by
  rw [List.find?_map]
  congr 2
  funext y
  exact (sameKey_joinNeed n r x y q v).1

section
variable {ns : List Need} {r : ImageIx} {x : BitVec 32}

theorem needFromNode_none (h : ns.find? (·.sameKey r x) = none) :
    needFromNode ns n r x = ns ++ [⟨r, x, .node, withNode 0 n, n⟩] := by
  rw [needFromNode, h]

theorem needFromNode_node {y : Need} (h : ns.find? (·.sameKey r x) = some y) (hk : y.kind = .node) :
    needFromNode ns n r x = ns.map (joinNeed n r x) := by
  rw [needFromNode, h]
  simp only [hk]
  rfl

theorem needFromNode_readAhead {y : Need} (h : ns.find? (·.sameKey r x) = some y) (hk : y.kind = .readAhead) :
    needFromNode ns n r x = ns.filter (fun y => !y.sameKey r x) ++ [{ y with kind := .node, waiting := withNode y.waiting n }] := by
  rw [needFromNode, h]
  simp only [hk]

/-- The node's own item is the first of its key. -/
theorem needFromNode_own (ns : List Need) (n : NodeId) (r : ImageIx) (x : BitVec 32) :
    ∃ z, (needFromNode ns n r x).find? (·.sameKey r x) = some z ∧ z.kind = .node ∧ z.waiting.getLsbD n.val = true := by
  have waits (m : BitVec 8) : (withNode m n).getLsbD n.val = true := by simp [getLsbD_withNode]
  have last {front : List Need} {z : Need} (hf : front.find? (·.sameKey r x) = none) (hz : z.sameKey r x = true) :
      (front ++ [z]).find? (·.sameKey r x) = some z := by
    rw [List.find?_append, hf, Option.none_or, List.find?_singleton, if_pos hz]
  cases hy : ns.find? (·.sameKey r x) with
  | none =>
    rw [needFromNode_none hy]
    exact ⟨_, last hy (sameKey_iff.mpr ⟨rfl, rfl⟩), rfl, waits _⟩
  | some y =>
    have key : y.sameKey r x = true := List.find?_some (p := fun y : Need => y.sameKey r x) hy
    cases hk : y.kind with
    | node =>
      rw [needFromNode_node hy hk, find_joinNeed, hy]
      refine ⟨_, rfl, (sameKey_joinNeed n r x y r x).2.trans hk, ?_⟩
      rw [joinNeed, if_pos key]
      exact waits _
    | readAhead =>
      rw [needFromNode_readAhead hy hk]
      refine ⟨_, last ?_ key, rfl, waits _⟩
      rw [List.find?_filter, List.find?_eq_none]
      rintro z - hz
      obtain ⟨h1, h2⟩ := of_decide_eq_true hz
      rw [h2] at h1
      cases h1

/-- Another node's first item stays the first of its key. -/
theorem needFromNode_others {m : NodeId} {q : ImageIx} {v : BitVec 32} {z : Need} (hz : ns.find? (·.sameKey q v) = some z)
    (hk : z.kind = .node) (hw : z.waiting.getLsbD m.val = true) (n : NodeId) (r : ImageIx) (x : BitVec 32) :
    ∃ z, (needFromNode ns n r x).find? (·.sameKey q v) = some z ∧ z.kind = .node ∧ z.waiting.getLsbD m.val = true := by
  cases hy : ns.find? (·.sameKey r x) with
  | none =>
    rw [needFromNode_none hy, List.find?_append, hz]
    exact ⟨z, rfl, hk, hw⟩
  | some y =>
    cases hyk : y.kind with
    | node =>
      rw [needFromNode_node hy hyk, find_joinNeed, hz]
      exact ⟨_, rfl, (sameKey_joinNeed n r x z q v).2.trans hk, joinNeed_waits hw⟩
    | readAhead =>
      have other : ¬(r = q ∧ x = v) := by
        rintro ⟨rfl, rfl⟩
        rw [hy] at hz
        cases hz
        rw [hyk] at hk
        cases hk
      rw [needFromNode_readAhead hy hyk, List.find?_append, List.find?_filter]
      refine ⟨z, ?_, hk, hw⟩
      have same : (fun a : Need => decide ((!a.sameKey r x) = true ∧ a.sameKey q v = true)) = fun a => a.sameKey q v := by
        funext a
        cases ha : a.sameKey q v with
        | false => exact decide_eq_false (fun h => nomatch h.2)
        | true =>
          obtain ⟨h1, h2⟩ := sameKey_iff.mp ha
          have ne : a.sameKey r x = false := Bool.eq_false_iff.mpr fun h => by
            obtain ⟨h3, h4⟩ := sameKey_iff.mp h
            exact other ⟨h3.symm.trans h1, h4.symm.trans h2⟩
          rw [ne]
          rfl
      rw [same, hz]
      rfl

end

/-- A need handed over: fetches and extents as tries leave them, the node waits, and so do the others. -/
theorem handNeed_issues (s : State) (n : NodeId) (r : ImageIx) (x : BitVec 32) : Issued s (s.handNeed n r x) ∧
    (∀ k, Unfilled k s → Unfilled k (s.handNeed n r x)) ∧ (s.handNeed n r x).waitsExtent n x ∧
    ∀ m v, s.waitsExtent m v → (s.handNeed n r x).waitsExtent m v := by
  let a := s.putNeeds (needFromNode s.images.needs n r x)
  have own : a.waitsExtent n x := by
    obtain ⟨z, hz, hk⟩ := needFromNode_own s.images.needs n r x
    exact .inl ⟨r, z, hz, hk⟩
  have others (m : NodeId) (v : BitVec 32) (hw : s.waitsExtent m v) : a.waitsExtent m v := by
    rcases hw with ⟨q, z, hz, hk, hw⟩ | hf
    · obtain ⟨z, hz, hk⟩ := needFromNode_others hz hk hw n r x
      exact .inl ⟨q, z, hz, hk⟩
    · exact .inr hf
  rw [State.handNeed]
  split
  · exact ⟨.of_same rfl, fun _ => id, own, others⟩
  · have tried := tryNeeds_tried a
    exact ⟨(Issued.of_same (s := s) (t := a) rfl).trans tried.issued, fun _ h => tried.unfilled (s := a) h, tried.waitsExtent own,
      fun m v h => tried.waitsExtent (others m v h)⟩

/-! ### Waiting READs look up again (R129, R152) -/

theorem waitsFor_congr (hp : t.port n = s.port n) (hi : ∀ q, t.image q = s.image q) : t.waitsFor n = s.waitsFor n := by
  have key (m : MediumRef) (a d : Nat) : t.readKey m a d = s.readKey m a d := by rw [State.readKey, hi, State.readKey]
  simp only [State.waitsFor, hp, key]

theorem advanceRead_waits {k : ExtentKey} (hw : s.waitsFor n = some k) (hu : Unfilled k s) :
    PortsWork s (s.advanceRead n) ∧ Issued s (s.advanceRead n) ∧ Unfilled k (s.advanceRead n) ∧
      (∀ m, m ≠ n → (s.advanceRead n).port m = s.port m) ∧ (∀ m v, s.waitsExtent m v → (s.advanceRead n).waitsExtent m v) ∧
      ∀ a c d m, (s.port n).active = some (.read a c d .waiting) → (s.port n).medium.ref? = some m → d < c * m.size.bytes →
        (s.advanceRead n).port n = s.port n ∧ (s.advanceRead n).waitsExtent n k.extent := by
  obtain ⟨a, c, d, m, ha, hm, hk⟩ := waitsFor_some hw
  have other {q : MediaPort} {j : NodeId} (hj : j ≠ n) : (s.putPort n q).port j = s.port j := Tab.get_put_ne _ _ hj
  have same (P : Prop) (h : d < c * m.size.bytes → P) : ∀ a' c' d' m', (s.port n).active = some (.read a' c' d' .waiting) →
      (s.port n).medium.ref? = some m' → d' < c' * m'.size.bytes → P := by
    intro a' c' d' m' ha' hm' hd
    rw [ha] at ha'
    rw [hm] at hm'
    cases ha'
    cases hm'
    exact h hd
  by_cases hd : c * m.size.bytes ≤ d
  · rw [advanceRead_done ha hm hd]
    exact ⟨putPort_ports s n _, .of_same rfl, hu, fun _ => other, fun _ _ => id, same _ fun h => absurd hd (Nat.not_le.mpr h)⟩
  · have hd := Nat.not_le.mp hd
    have waiting : s.putRead n a c d .waiting = s := by
      rw [State.putRead, ← ha]
      exact putPort_self s n
    obtain ⟨y, hy, hky⟩ := Option.map_eq_some_iff.mp hk
    cases hl : s.pool.lookup k with
    | none =>
      have absent := advanceRead_absent ha hm hd hy (hky.symm ▸ hl)
      rw [waiting, show BitVec.ofNat 32 (readExtent m.size a d) = k.extent by rw [← hky]; rfl] at absent
      obtain ⟨h1, h2, h3, h4⟩ := handNeed_issues s n m.image k.extent
      have work := handNeed_works s n m.image k.extent
      rw [absent]
      exact ⟨work.ports, h1, h2 k hu, fun j _ => work.port_eq j, h4, same _ fun _ => ⟨work.port_eq n, h3⟩⟩
    | some iz =>
      obtain ⟨i, z⟩ := iz
      obtain ⟨hz, hzk⟩ := lookup_some hl
      obtain ⟨hv, fetched⟩ := hu i z hz hzk
      rw [advanceRead_filling ha hm hd hy (hky.symm ▸ hl) hv, waiting]
      exact ⟨(PoolWork.refl s).ports, .of_same rfl, hu, fun _ _ => rfl, fun _ _ => id, same _ fun _ => ⟨rfl, .inr fetched⟩⟩

theorem pin_ports (s : State) (i : ExtentIx) : PortsWork s (s.pin i) ∧ Issued s (s.pin i) := by
  rw [State.pin]
  split
  · exact ⟨(putPool_work s _).ports, .of_same rfl⟩
  · exact ⟨(PoolWork.refl s).ports, .of_same rfl⟩

/-- A READ that turns to an extent, whatever it finds. -/
theorem advanceRead_issues (s : State) (n : NodeId) : PortsWork s (s.advanceRead n) ∧ Issued s (s.advanceRead n) := by
  have reads (a c d : Nat) (ph : ReadPhase) : PortsWork s (s.putRead n a c d ph) ∧ Issued s (s.putRead n a c d ph) :=
    ⟨putPort_ports s n _, .of_same rfl⟩
  rw [State.advanceRead]
  split
  · next a c d _ m _ _ =>
    split
    · rw [State.putSense, putPort_putPort]
      exact ⟨putPort_ports s n _, .of_same rfl⟩
    · split
      · exact ⟨(PoolWork.refl s).ports, .of_same rfl⟩
      · next k _ =>
        split
        · next i y _ =>
          split
          · obtain ⟨h1, h2⟩ := reads a c d (.delivering i)
            obtain ⟨h3, h4⟩ := pin_ports (s.putRead n a c d (.delivering i)) i
            exact ⟨h1.trans h3, h2.trans h4⟩
          · exact reads a c d .waiting
        · obtain ⟨h1, h2⟩ := reads a c d .waiting
          exact ⟨h1.trans (handNeed_works _ n m.image k.extent).ports, h2.trans (handNeed_issues _ n m.image k.extent).1⟩
  · exact ⟨(PoolWork.refl s).ports, .of_same rfl⟩

theorem foldl_advanceRead_issues (ns : List NodeId) (s : State) :
    PortsWork s (ns.foldl State.advanceRead s) ∧ Issued s (ns.foldl State.advanceRead s) := by
  induction ns generalizing s with
  | nil => exact ⟨(PoolWork.refl s).ports, .of_same rfl⟩
  | cons n ns ih =>
    obtain ⟨h1, h2⟩ := advanceRead_issues s n
    obtain ⟨k1, k2⟩ := ih (s.advanceRead n)
    exact ⟨h1.trans k1, h2.trans k2⟩

theorem foldl_advanceRead {ns : List NodeId} (hn : ns.Nodup) {k : ExtentKey} (hw : ∀ n ∈ ns, s.waitsFor n = some k) (hu : Unfilled k s) :
    let v := ns.foldl State.advanceRead s
    PortsWork s v ∧ Issued s v ∧ (∀ m, m ∉ ns → v.port m = s.port m) ∧ (∀ m x, s.waitsExtent m x → v.waitsExtent m x) ∧
      ∀ n ∈ ns, ∀ a c d m, (s.port n).active = some (.read a c d .waiting) → (s.port n).medium.ref? = some m → d < c * m.size.bytes →
        v.port n = s.port n ∧ v.waitsExtent n k.extent := by
  induction ns generalizing s with
  | nil => exact ⟨(PoolWork.refl s).ports, .of_same rfl, fun _ _ => rfl, fun _ _ => id, nofun⟩
  | cons n ns ih =>
    obtain ⟨fresh, hn⟩ := List.nodup_cons.mp hn
    obtain ⟨h1, h2, h3, h4, h5, h6⟩ := advanceRead_waits (hw n List.mem_cons_self) hu
    have ne {m : NodeId} (hm : m ∈ ns) : m ≠ n := fun e => fresh (e ▸ hm)
    obtain ⟨k1, k2, k3, k4, k5⟩ := ih (s := s.advanceRead n) hn (fun m hm => by
      rw [waitsFor_congr (h4 m (ne hm)) h1.image_eq]
      exact hw m (List.mem_cons_of_mem _ hm)) h3
    refine ⟨h1.trans k1, h2.trans k2, fun m hm => ?_, fun m x h => k4 m x (h5 m x h), fun j hj a c d m ha hm hd => ?_⟩
    · rw [List.mem_cons, not_or] at hm
      exact (k3 m hm.2).trans (h4 m hm.1)
    · rcases List.mem_cons.mp hj with rfl | hj
      · obtain ⟨p1, p2⟩ := h6 a c d m ha hm hd
        exact ⟨(k3 j fresh).trans p1, k4 j _ p2⟩
      · have port := h4 j (ne hj)
        obtain ⟨p1, p2⟩ := k5 j hj a c d m (by rw [port]; exact ha) (by rw [port]; exact hm) hd
        exact ⟨p1.trans port, p2⟩

/-! ## A fragment is taken (R151) -/

section
variable {f : FetchIx} {l : Fetch} {e y : Extent} {j : Nat} {data : List Byte}

/-- The state with a fragment written and joined to the received set. -/
def State.fragTaken (s : State) (f : FetchIx) (l : Fetch) (got : BitVec 4) (y : Extent) : State :=
  (s.putFetch f { s.images.fetches.get f with live := some { l with received := got } }).putPool (s.pool.putExtent l.target y)

theorem takeFragment_again (h : l.received.getLsbD j = true) : s.takeFragment f l x j data = s := if_pos h

theorem takeFragment_taken (h : l.received.getLsbD j = false) (he : s.pool.extents.get l.target = some e) :
    s.takeFragment f l x j data =
      if (List.range l.needed).all (l.received ||| (1#4 <<< j)).getLsbD then
        (s.fragTaken f l (l.received ||| (1#4 <<< j)) (e.writeFrag j data)).completeFill f l x (e.writeFrag j data)
      else s.fragTaken f l (l.received ||| (1#4 <<< j)) (e.writeFrag j data) := by
  rw [State.takeFragment, if_neg (by rw [h]; nofun), he]
  rfl

theorem all_received {got : BitVec 4} {k : Nat} : (List.range k).all got.getLsbD = true ↔ ∀ q, q < k → got.getLsbD q = true := by
  simp only [List.all_eq_true, List.mem_range]

/-- The state in which a fill has completed, before its target is VALID or freed. -/
def State.fillEnds (s : State) (f : FetchIx) (l : Fetch) (x : ImageRec) (y : Extent) : State :=
  ((s.putImage l.image (some { x with failures := 0 })).putFetch f { s.images.fetches.get f with live := none }).putPool
    (s.pool.putExtent l.target y)

theorem fillEnds_works (s : State) (f : FetchIx) (l : Fetch) (x : ImageRec) (y : Extent) :
    PoolWork (s.putImage l.image (some { x with failures := 0 })) (s.fillEnds f l x y) :=
  (putFetch_work _ f _).trans (putPool_work _ _)

theorem fillEnds_fetch (s : State) (f : FetchIx) (l : Fetch) (x : ImageRec) (y : Extent) :
    (s.fillEnds f l x y).images.fetches.get f = ⟨(s.images.fetches.get f).generation, none⟩ := Tab.get_put_same _ _ _

theorem fragTaken_cleared {got : BitVec 4} (hx : s.image l.image = some x) :
    ((s.fragTaken f l got y).putFetch f { (s.fragTaken f l got y).images.fetches.get f with live := none }).clearFailures l.image =
      s.fillEnds f l x y := by
  have entry : (s.fragTaken f l got y).images.fetches.get f =
      { s.images.fetches.get f with live := some { l with received := got } } := Tab.get_put_same _ _ _
  rw [entry]
  have image : ((s.fragTaken f l got y).putFetch f ⟨(s.images.fetches.get f).generation, none⟩).image l.image = some x := hx
  rw [counted_ok image]
  simp only [State.fragTaken, State.fillEnds, State.putFetch, State.putImage, State.putPool, State.putImages, Tab.put_put]

variable (hx : s.image l.image = some x)
include hx

/-- A completed fill on a target that is not stale. -/
theorem completeFill_valid {got : BitVec 4} (hs : y.stale = false) : (s.fragTaken f l got y).completeFill f l x y =
    let b := (s.fillEnds f l x y).putPool ((s.fillEnds f l x y).pool.complete l.target (y.zeroTail l.extent.toNat x.length))
    (((s.waiters (x.key l.extent)).foldl (fun c n => c.filled l.target n) b).unpin l.target).tryNeeds := by
  rw [State.completeFill, fragTaken_cleared hx]
  dsimp only
  rw [hs, if_neg (by nofun : ¬false = true)]
  rfl

/-- A completed fill on a stale target. -/
theorem completeFill_stale {got : BitVec 4} (hs : y.stale = true) : (s.fragTaken f l got y).completeFill f l x y =
    let b := (s.waiters (x.key l.extent)).foldl State.advanceRead
      ((s.fillEnds f l x y).putPool ((s.fillEnds f l x y).pool.free l.target))
    (b.putPool { b.pool with waiting := false }).tryNeeds := by
  rw [State.completeFill, fragTaken_cleared hx]
  dsimp only
  rw [hs, if_pos rfl]
  rfl

end

theorem unpin_issued (s : State) (i : ExtentIx) : Issued s (s.unpin i) := by
  rw [State.unpin]
  split
  · split
    · exact (Issued.of_same (s := s) (t := s.putPool (s.pool.unpin i)) rfl).trans (report_tried _).issued
    · exact .of_same rfl
  · exact .of_same rfl

/-- A pin dropped where another stays, or where no item waits: the entry is as it was but for its pins. -/
theorem unpin_extent {i : ExtentIx} {y : Extent} (hy : s.extent i = some y) (h : 2 ≤ y.pins ∨ s.images.needs = []) :
    (s.unpin i).extent i = some { y with pins := y.pins - 1 } ∧ (s.unpin i).pool.recency = s.pool.recency ∧
      (s.unpin i).images.needs = s.images.needs := by
  have pool : s.pool.unpin i = s.pool.putExtent i { y with pins := y.pins - 1 } := by
    have he : s.pool.extents.get i = some y := hy
    rw [Pool.unpin, he]
  have lowers : (s.putPool (s.pool.unpin i)).extent i = some { y with pins := y.pins - 1 } ∧
      (s.putPool (s.pool.unpin i)).pool.recency = s.pool.recency ∧ (s.putPool (s.pool.unpin i)).images.needs = s.images.needs := by
    rw [pool]
    exact ⟨Tab.get_put_same _ _ _, rfl, rfl⟩
  have he : s.pool.extents.get i = some y := hy
  rw [State.unpin, he]
  dsimp only
  split
  · next hc =>
    have low : y.pins ≤ 1 := of_decide_eq_true (Bool.and_eq_true_iff.mp hc).2
    have none : s.images.needs = [] := h.resolve_left (by omega)
    have quiet (p : Pool) : ((s.putPool (s.pool.unpin i)).putPool p).tryNeeds = (s.putPool (s.pool.unpin i)).putPool p :=
      tryNeeds_none none
    rw [State.report]
    split
    · rw [quiet]
      exact lowers
    · exact lowers
  · exact lowers

/-- The extent of a completed fill, pinned for the READs that deliver from it (R152, R168). -/
def Extent.filled (y : Extent) (l : Fetch) (x : ImageRec) (readers : Nat) : Extent :=
  { y.zeroTail l.extent.toNat x.length with valid := true, pins := y.pins + readers - 1 }

section
variable {f : FetchIx} {l : Fetch} {y : Extent} {got : BitVec 4}

theorem waiting_active {n : NodeId} {k : ExtentKey} (hn : n ∈ s.waiters k) :
    ∃ a c d, (s.port n).active = some (.read a c d .waiting) := by
  obtain ⟨a, c, d, -, ha, -⟩ := waitsFor_some (waits_iff.mp hn)
  exact ⟨a, c, d, ha⟩

variable (hx : s.image l.image = some x)
include hx

/-- A fill completed on a target that is not stale makes it VALID, and the waiting READs deliver from it. -/
theorem completeFill_fills (hs : y.stale = false) :
    let v := (s.fragTaken f l got y).completeFill f l x y
    let waiting := s.waiters (x.key l.extent)
    PortsWork (s.putImage l.image (some { x with failures := 0 })) v ∧ Issued (s.fillEnds f l x y) v ∧
      (∀ n, v.port n = if n ∈ waiting then (s.port n).filling l.target else s.port n) ∧
      (waiting ≠ [] ∧ 1 ≤ y.pins ∨ s.images.needs = [] → v.extent l.target = some (y.filled l x waiting.length) ∧
        (s.images.needs = [] → v.pool.recency.getLast? = some l.target)) := by
  intro v waiting
  let a := s.fillEnds f l x y
  let b := a.putPool (a.pool.complete l.target (y.zeroTail l.extent.toNat x.length))
  let c := waiting.foldl (fun c n => c.filled l.target n) b
  have whole : v = (c.unpin l.target).tryNeeds := completeFill_valid hx hs
  have target : b.extent l.target = some { y.zeroTail l.extent.toNat x.length with valid := true } := Tab.get_put_same _ _ _
  obtain ⟨works, ports, extent, images, recent⟩ := foldl_filled (waiters_nodup s _) target fun n hn => by
    obtain ⟨p, q, d, ha⟩ := waiting_active hn
    exact ⟨p, q, d, _, ha⟩
  have last : c.pool.recency.getLast? = some l.target := recent List.getLast?_concat
  have tail : PoolWork c v := by
    rw [whole]
    exact (unpin_work _ _).trans (tryNeeds_work _)
  refine ⟨((fillEnds_works s f l x y).ports.trans (putPool_work a _).ports).trans (works.trans tail.ports), ?_, fun n => ?_, fun h => ?_⟩
  · rw [whole]
    have alike : c.images = a.images := images
    have same : Issued a c := .of_same (congrArg ImageUnit.fetches alike)
    exact same.trans ((unpin_issued c _).trans (tryNeeds_tried _).issued)
  · exact (tail.port_eq n).trans (ports n)
  · have alike : c.images = a.images := images
    have needs : c.images.needs = s.images.needs := (congrArg ImageUnit.needs alike :)
    have pinned : waiting ≠ [] ∧ 1 ≤ y.pins → 2 ≤ y.pins + waiting.length := fun ⟨hw, hp⟩ => by
      have := List.length_pos_iff.mpr hw
      omega
    obtain ⟨h1, h2, h3⟩ := unpin_extent extent (h.imp pinned needs.trans)
    have own : (c.unpin l.target).extent l.target = some (y.filled l x waiting.length) := h1
    by_cases hn : s.images.needs = []
    · rw [whole, tryNeeds_none (h3.trans (needs.trans hn))]
      exact ⟨own, fun _ => by rw [h2]; exact last⟩
    · refine ⟨?_, fun h => absurd h hn⟩
      have many := pinned (h.resolve_right hn)
      rw [whole]
      refine (tryNeeds_tried _).pinned _ _ own ?_
      have : (y.filled l x waiting.length).pins ≠ 0 := by
        show y.pins + waiting.length - 1 ≠ 0
        omega
      rw [Extent.evictable, beq_eq_false_iff_ne.mpr this, Bool.and_false]

/-- A fill completed on a stale target frees it, and the waiting READs look up again. -/
theorem completeFill_waits (hs : y.stale = true) :
    let v := (s.fragTaken f l got y).completeFill f l x y
    PortsWork (s.putImage l.image (some { x with failures := 0 })) v ∧ Issued (s.fillEnds f l x y) v ∧
      ((∀ i z, s.pool.extents.get i = some z → z.key = x.key l.extent → i = l.target) →
        ∀ n ∈ s.waiters (x.key l.extent), ∀ a c d m, (s.port n).active = some (.read a c d .waiting) →
          (s.port n).medium.ref? = some m → d < c * m.size.bytes → v.port n = s.port n ∧ v.waitsExtent n l.extent) := by
  intro v
  let a := s.fillEnds f l x y
  let b := a.putPool (a.pool.free l.target)
  let c := (s.waiters (x.key l.extent)).foldl State.advanceRead b
  have whole : v = (c.putPool { c.pool with waiting := false }).tryNeeds := completeFill_stale hx hs
  have tail : PoolWork c v := by
    rw [whole]
    exact (putPool_work _ _).trans (tryNeeds_work _)
  have tried : Tried c v := by
    rw [whole]
    exact (Tried.of_same (s := c) (t := c.putPool { c.pool with waiting := false }) rfl rfl).trans (tryNeeds_tried _)
  obtain ⟨works, issued⟩ := foldl_advanceRead_issues (s.waiters (x.key l.extent)) b
  have frees : Issued a b := .of_same rfl
  refine ⟨((fillEnds_works s f l x y).ports.trans (putPool_work a _).ports).trans (works.trans tail.ports),
    frees.trans (issued.trans tried.issued), fun unique => ?_⟩
  have image (q : ImageIx) : (b.image q).map (fun z => (z.server, z.image)) = (s.image q).map (fun z => (z.server, z.image)) := by
    rw [show b.image q = _ from image_putImage s l.image q _]
    split
    · next hq => rw [hq, hx]; rfl
    · rfl
  have key (m : MediumRef) (p d : Nat) : b.readKey m p d = s.readKey m p d := by
    have := congrArg (Option.map fun z => (⟨z.1, z.2, BitVec.ofNat 32 (readExtent m.size p d)⟩ : ExtentKey)) (image m.image)
    rw [Option.map_map, Option.map_map] at this
    exact this
  have waits : ∀ n ∈ s.waiters (x.key l.extent), b.waitsFor n = some (x.key l.extent) := fun n hn => by
    rw [← waits_iff.mp hn]
    simp only [State.waitsFor, key]
    rfl
  have unfilled : Unfilled (x.key l.extent) b := fun i z hz hk => by
    have free : b.extent i = if i = l.target then none else a.pool.extents.get i := extent_free _ _ _
    rw [free] at hz
    split at hz
    · cases hz
    · next hi => exact absurd (unique i z ((Tab.get_put_ne _ _ hi).symm.trans hz) hk) hi
  obtain ⟨-, -, -, -, waiting⟩ := foldl_advanceRead (waiters_nodup s _) waits unfilled
  intro n hn p q d m ha hm hd
  obtain ⟨h1, h2⟩ := waiting n hn p q d m ha hm hd
  exact ⟨(tail.port_eq n).trans h1, tried.waitsExtent h2⟩

end

/-! ## The command -/

section
variable {f : FetchIx} {l : Fetch} {y : Extent} {v : State}

/-- What a completed fill leaves to the end of the step. -/
theorem fill_settled (h : PortsWork (s.promise.putImage l.image (some { x with failures := 0 })) v) :
    MediaOnly s v.release.finish ∧ ImagesSettled (s.putImage l.image (some { x with failures := 0 })) v.release.finish ∧
      NoticesSettled s v.release.finish := by
  have hd : Delivers v.release v.release.finish := (finish_settles _).delivers
  have media : MediaOnly s.promise v := (putImage_mediaOnly _ _ _).trans h.mediaOnly
  have released := media.release
  have images : ImagesSettled (s.putImage l.image (some { x with failures := 0 })) v.release := h.images
  have notices : v.release.notices = s.notices := h.notices_eq
  exact ⟨released.trans hd.mediaOnly, images.trans hd.images, hd.notices_trans (.of_eq notices) released.2.2.2.1 released.1⟩

/-- The fetch that has completed its fill is gone at the step's end, or its entry brings another. -/
theorem fill_entry (h : Issued (s.promise.fillEnds f l x y) v) :
    (v.release.finish.images.fetches.get f).live = none ∨
      (v.release.finish.images.fetches.get f).generation = (s.images.fetches.get f).generation + 1 := by
  have hs : Settles v.release v.release.finish := finish_settles _
  have entry : (s.promise.fillEnds f l x y).images.fetches.get f = ⟨(s.images.fetches.get f).generation, none⟩ := fillEnds_fetch _ f l x y
  rcases h.fresh f (congrArg FetchEntry.live entry) with same | ⟨gen, -⟩
  · have free : (v.images.fetches.get f).live = none := by rw [same, entry]
    exact .inl (Option.map_eq_none_iff.mp ((hs.fetching f).trans (congrArg (Option.map Fetch.unsent) free)))
  · exact .inr ((hs.2.2.2 f).1.trans (gen.trans (by rw [entry])))

end

/-- Settles O56. -/
theorem fragmentsFillTheirExtent : Obligations.FragmentsFillTheirExtent := by
  intro s h bytes body i f l x e j c entry frag count data got written complete waiting cleared ha hlen hfrag hcount hf hg hl hx hsrv hn he
  have serves : s.promise.serves i = true := serves_iff.mpr ⟨l.image, x, hx, hsrv⟩
  have wellFormed : malformed .extentData body = false := Bool.eq_false_iff.mpr fun hm => by
    have := malformed_extent.mp hm
    omega
  have index : indexOfByte (body.getD 0 0xFF) = some f := by
    have hb : body ≠ [] := fun hb => by
      rw [hb] at hlen
      exact absurd hlen (by simp)
    rw [indexOfByte_eq, first_byte hb, hf]
  have reply : s.promise.takeReply i .extentData body = s.promise.takeFragment f l x frag data :=
    (takeReply_extent wellFormed serves).trans (replyExtent_taken (s := s.promise) index hl hg.symm hx hsrv hn)
  have size : data.length = count := by
    rw [List.length_take, List.length_drop]
    omega
  have bytes : e.writeFrag frag data = written := by rw [Extent.writeFrag, size]
  have taken (hr : l.received.getLsbD frag = false) : s.promise.takeFragment f l x frag data =
      if (List.range l.needed).all got.getLsbD then (s.promise.fragTaken f l got written).completeFill f l x written
      else s.promise.fragTaken f l got written := by
    rw [← bytes]
    exact takeFragment_taken (s := s.promise) hr he
  refine ⟨fun hr => ha.replies_eq rfl (reply.trans (takeFragment_again hr)), fun hr hc => ?_, fun hr hc => ?_⟩
  · refine ha.replies_eq rfl (reply.trans ?_)
    rw [taken hr, if_neg (fun h => hc (all_received.mp h))]
    rfl
  · have whole : s.promise.takeReply i .extentData body = (s.promise.fragTaken f l got written).completeFill f l x written := by
      rw [reply, taken hr, if_pos (all_received.mpr hc)]
    refine ⟨_, ha.exec_reply rfl, ?_⟩
    rw [whole]
    have hs := finish_settles ((s.promise.fragTaken f l got written).completeFill f l x written).release
    by_cases stale : e.stale = true
    · obtain ⟨works, issued, waits⟩ := completeFill_waits (s := s.promise) (f := f) (l := l) (y := written) (got := got) hx stale
      obtain ⟨media, images, notices⟩ := fill_settled works
      refine ⟨media, images, notices, fill_entry issued, fun h => absurd stale (by rw [h]; nofun),
        fun _ _ unique n hn a k d m hact hm hd => ?_⟩
      obtain ⟨port, extent⟩ := waits unique n hn a k d m hact hm hd
      refine ⟨(hs.delivers.port_eq n).trans port, ?_⟩
      rcases hs.waitsExtent extent with ⟨r, z, hz, -, hw⟩ | found
      · exact .inl ⟨z, List.mem_of_find?_eq_some hz, (sameKey_iff.mp (List.find?_some (p := (Need.sameKey · r l.extent)) hz)).2, hw⟩
      · exact .inr found
    · have fresh : e.stale = false := Bool.eq_false_iff.mpr stale
      obtain ⟨works, issued, ports, extent⟩ := completeFill_fills (s := s.promise) (f := f) (l := l) (y := written) (got := got) hx fresh
      obtain ⟨media, images, notices⟩ := fill_settled works
      refine ⟨media, images, notices, fill_entry issued, fun _ => ⟨fun n => ?_, fun hw => ?_⟩, fun h => absurd h stale⟩
      · have port : _ = if n ∈ waiting then (s.port n).filling l.target else s.port n := (hs.delivers.port_eq n).trans (ports n)
        refine port.trans ?_
        by_cases hw : n ∈ waiting
        · obtain ⟨a, k, d, hact⟩ := waiting_active hw
          rw [if_pos hw, MediaPort.filling]
          simp only [hact, if_pos hw]
        · rw [if_neg hw]
          split
          · exact (if_neg hw).symm
          · rfl
      · obtain ⟨own, recent⟩ := extent hw
        have pool := hs.2.1
        refine ⟨written.filled l x waiting.length, by rw [pool]; exact own, rfl, rfl, rfl, rfl,
          fun hn => by rw [pool]; exact recent hn, fun hj => zeroTail_byteOf written _ _ hj⟩

end Sys2Proof.Machine
end

section
/-! PROOFS. The obligation about RESTART (chapter 11). -/
namespace Sys2Proof.Machine

-- Side by side, the proofs of this text would need more thread stacks than the check's memory limit holds.
set_option Elab.async false

variable {s t : State} {n : NodeId}

/-! ## Entries passed to history in a row (R52, R67) -/

/-- A chain made ready for an entry has a newest cell, and holds the newest of the entries it held. -/
theorem makeRoom_entries (s : State) (n : NodeId) (h : (s.streams.get n).chain ≠ [] ∨ (s.grant n).isSome) : ∃ front c,
    (s.makeRoom n).chain = front ++ [c] ∧ (front ++ [c]).flatMap HistCell.entries <:+ (s.streams.get n).history := by
  cases hr : (s.streams.get n).newestHasRoom with
  | true =>
    obtain ⟨front, c, hc⟩ := Stream.newestHasRoom_chain hr
    exact ⟨front, c, (congrArg Stream.chain (makeRoom_room hr)).trans hc, by rw [← hc]; exact List.suffix_refl _⟩
  | false =>
    cases hg : s.grant n with
    | some c =>
      refine ⟨_, _, congrArg Stream.chain (makeRoom_granted hr hg), ?_⟩
      rw [List.flatMap_append]
      simp [Stream.history]
    | none =>
      obtain ⟨x, rest, hx⟩ := List.exists_cons_of_ne_nil (h.resolve_right (by rw [hg]; nofun))
      refine ⟨rest, _, (congrArg Stream.chain (makeRoom_refused hr hg)).trans (Stream.recycle_chain hx).1, ?_⟩
      rw [Stream.history, hx, List.flatMap_append]
      exact ⟨x.entries, by simp⟩

theorem pass_suffix (s : State) (n : NodeId) (o : Offset) (e : Entry) :
    ((s.pass n o e).streams.get n).history <:+ (s.streams.get n).history ++ [e] := by
  by_cases h : (s.streams.get n).chain ≠ [] ∨ (s.grant n).isSome
  · obtain ⟨front, c, hc, hs⟩ := makeRoom_entries s n h
    rw [(pass_history s n o e hc).1]
    obtain ⟨lost, hl⟩ := hs
    exact ⟨lost, by rw [← hl, List.append_assoc]⟩
  · obtain ⟨hc, hg⟩ := not_or.mp h
    have empty : (s.streams.get n).chain = [] := not_not.mp hc
    have still : s.makeRoom n = s.streams.get n := by
      rw [makeRoom_refused (by rw [Stream.newestHasRoom, empty]; rfl) (by simpa using hg), Stream.recycle, empty]
    have none : ((s.pass n o e).streams.get n).history = [] := by
      rw [pass_stream, still, Stream.append]
      simp only [empty, List.getLast?_nil]
      rfl
    rw [none]
    exact List.nil_suffix

theorem pass_newest (h : CellLaw s) (hm : 1 ≤ s.histMin n) (o : Offset) (e : Entry) :
    ((s.pass n o e).streams.get n).history.getLast? = some e := by
  have room : (s.streams.get n).chain ≠ [] ∨ (s.grant n).isSome := by
    by_cases hc : (s.streams.get n).chain = []
    · refine .inr ((grant_isSome h).mpr (.inl ?_))
      rw [State.heldCells, hc]
      exact hm
    · exact .inl hc
  obtain ⟨front, c, hc, -⟩ := makeRoom_entries s n room
  rw [(pass_history s n o e hc).1, List.getLast?_concat]

theorem passAll_suffix (s : State) (n : NodeId) (o : Offset) (es : List Entry) :
    ((s.passAll n o es).streams.get n).history <:+ (s.streams.get n).history ++ es := by
  induction es generalizing s o with
  | nil => rw [List.append_nil]; exact List.suffix_refl _
  | cons e es ih =>
    obtain ⟨lost, hl⟩ := pass_suffix s n o e
    refine (ih (s.pass n o e) (o + 1)).trans ⟨lost, ?_⟩
    rw [← List.append_assoc, hl, List.append_assoc]
    rfl

theorem passAll_newest {es : List Entry} (h : CellLaw s) (hm : 1 ≤ s.histMin n) (o : Offset) (he : es ≠ []) :
    ((s.passAll n o es).streams.get n).history.getLast? = es.getLast? := by
  induction es generalizing s o with
  | nil => exact absurd rfl he
  | cons e es ih =>
    rw [State.passAll]
    cases es with
    | nil => exact pass_newest h hm o e
    | cons x es =>
      have least : (s.pass n o e).histMin n = s.histMin n := congrArg StreamSettings.histMin (pass_console s n o e).2.2.2.1
      rw [ih ((pass_keeps s n o e).laws.cell h) (least.symm ▸ hm) _ (by nofun), List.getLast?_cons_cons]

/-! ## The streams' shares of a restart (R67) -/

/-- What a restart leaves of a stream beside its history (R67). -/
def Stream.restarted (u : Stream) : Stream :=
  { u with ring := [], overrun := false, flush := none, batchDue := false, atts := [], replay := none }

/-- Stream `v` is what a restart in state `s` leaves of node `n`'s. -/
def StreamRestarted (s : State) (n : NodeId) (v : Stream) : Prop :=
  v = { (s.streams.get n).restarted with chain := v.chain, oldest := v.oldest } ∧
    v.history <:+ (s.streams.get n).history ++ (s.streams.get n).ring ∧
    (CellLaw s → 1 ≤ (s.streams.get n).settings.histMin → (s.streams.get n).ring ≠ [] →
      v.history.getLast? = (s.streams.get n).ring.getLast?)

theorem StreamRestarted.congr {v : Stream} (h : StreamRestarted t n v) (he : t.streams.get n = s.streams.get n)
    (hc : CellLaw s → CellLaw t) : StreamRestarted s n v := by
  obtain ⟨h1, h2, h3⟩ := h
  rw [he] at h1 h2 h3
  exact ⟨h1, h2, fun h => h3 (hc h)⟩

theorem restartStream_eq (s : State) (n : NodeId) : ∃ v, s.restartStream n = s.putStream n v ∧ StreamRestarted s n v := by
  obtain ⟨c, a, r, h⟩ := State.drainRing_eq s n
  have stream : (s.drainRing n).streams.get n = (s.streams.get n).drained.withHistory c a r := by
    rw [h]
    exact Tab.get_put_same _ _ _
  have drained : (s.putStream n (s.streams.get n).drained).streams.get n = (s.streams.get n).drained := Tab.get_put_same _ _ _
  refine ⟨{ (s.streams.get n).restarted with chain := c, oldest := a }, ?_, rfl, ?_, fun hc hm hr => ?_⟩
  · rw [State.restartStream]
    simp only [stream]
    rw [h, State.putStream_putStream]
    rfl
  · have := passAll_suffix (s.putStream n (s.streams.get n).drained) n (s.streams.get n).ringStart (s.streams.get n).ring
    rw [drained] at this
    have same : ((s.drainRing n).streams.get n).history <:+ (s.streams.get n).history ++ (s.streams.get n).ring := this
    rw [stream] at same
    exact same
  · have law : CellLaw (s.putStream n (s.streams.get n).drained) := cellLaw_putStream s (.refl _) rfl hc
    have := passAll_newest law (by rw [State.histMin, drained]; exact hm) (s.streams.get n).ringStart hr
    have same : ((s.drainRing n).streams.get n).history.getLast? = (s.streams.get n).ring.getLast? := this
    rw [stream] at same
    exact same

theorem restartStream_cells (n : NodeId) (h : CellLaw s) : CellLaw (s.restartStream n) :=
  cellLaw_putStream _ (.refl _) rfl ((drainRing_keeps s n).laws.cell h)

theorem foldl_restartStream {ns : List NodeId} (hn : ns.Nodup) (s : State) : ∃ st,
    ns.foldl State.restartStream s = { s with streams := st } ∧ (∀ n ∈ ns, StreamRestarted s n (st.get n)) ∧
      ∀ n, n ∉ ns → st.get n = s.streams.get n := by
  induction ns generalizing s with
  | nil => exact ⟨s.streams, rfl, nofun, fun _ _ => rfl⟩
  | cons m ns ih =>
    obtain ⟨hm, hns⟩ := List.nodup_cons.mp hn
    obtain ⟨v, hv, restarted⟩ := restartStream_eq s m
    obtain ⟨st, h1, h2, h3⟩ := ih hns (s.restartStream m)
    have own : (s.restartStream m).streams.get m = v := by
      rw [hv]
      exact Tab.get_put_same _ _ _
    have other (n : NodeId) (h : n ≠ m) : (s.restartStream m).streams.get n = s.streams.get n := by
      rw [hv]
      exact Tab.get_put_ne _ _ h
    refine ⟨st, ?_, fun n hi => ?_, fun n ho => ?_⟩
    · rw [List.foldl_cons, h1, hv]
      rfl
    · rcases List.mem_cons.mp hi with rfl | hi
      · rw [h3 n hm, own]
        exact restarted
      · exact (h2 n hi).congr (other n fun h => hm (h ▸ hi)) (restartStream_cells m)
    · obtain ⟨ho, hs⟩ := not_or.mp (mt List.mem_cons.mpr ho)
      exact (h3 n hs).trans (other n ho)

/-! ## The loader's share (R197) -/

/-- The configuration memory once a write under way has ended. -/
def State.pageLeft (s : State) : List Host.Cell :=
  match s.loader.activity with
  | .saving list step _ => memWriteAll s.config step.address (pageBytes list step s.blanks)
  | _ => s.config

theorem abandonLoader_kept (s : State) : ∃ c b, s.abandonLoader =
    { s with config := c, blanks := b, loader := { s.loader with activity := .idle } } := by
  rw [State.abandonLoader]
  cases s.loader.activity <;> exact ⟨_, _, rfl⟩

theorem abandonLoader_config (s : State) : s.abandonLoader.config = s.pageLeft := by
  rw [State.abandonLoader, State.pageLeft]
  cases s.loader.activity <;> rfl

theorem restart_streams (s : State) : ∃ st, s.restart = ({ s.abandonLoader with streams := st } : State).restartBlocks ∧
    ∀ n, StreamRestarted s n (st.get n) := by
  obtain ⟨st, h1, h2, -⟩ := foldl_restartStream (ns := allNodes) (by decide) s.abandonLoader
  obtain ⟨c, b, h⟩ := abandonLoader_kept s
  refine ⟨st, by rw [restart_eq, h1], fun n => (h2 n (mem_allNodes n)).congr (by rw [h]) fun hc => ?_⟩
  rw [h]
  exact hc

/-! ## The answer of a RESTART is the one frame left (R197) -/

/-- After a restart no producer has what a free descriptor could take. -/
theorem restartBlocks_quiet (h : ∀ n, (s.streams.get n).atts = [] ∧ (s.streams.get n).replay = none) (u : Uplink) :
    (s.restartBlocks.putUp u).readyProducers false = [] := by
  refine List.eq_nil_iff_forall_not_mem.mpr fun p hp => ?_
  obtain ⟨ready, needs⟩ := (mem_readyProducers _).mp hp
  cases p with
  | batch n =>
    have : (!(s.streams.get n).atts.isEmpty && _ && _ && _) = true := ready
    rw [(h n).1] at this
    simp at this
  | replay n =>
    have : ((s.streams.get n).replay.isSome && _) = true := ready
    rw [(h n).2] at this
    simp at this
  | imageOpen r =>
    have image : (s.restartBlocks.putUp u).image r = none := image_restartBlocks s r
    simp only [State.ready, State.openReady, image] at ready
    cases ready
  | needs => exact absurd (needs rfl) nofun
  | refetch f =>
    have fetch : ((s.restartBlocks.putUp u).images.fetches.get f).live = none := fetch_restartBlocks s f
    simp only [State.ready, State.refetchReady, fetch] at ready
    cases ready
  | rewrite n =>
    have write : ((s.restartBlocks.putUp u).images.writes.get n).live = none := write_restartBlocks s n
    simp only [State.ready, State.rewriteReady, write] at ready
    cases ready
  | notice =>
    have : (s.restartBlocks.putUp u).noticeReady = true := ready
    rw [State.noticeReady] at this
    split at this
    · next id hw =>
      have set : (s.restartBlocks.putUp u).pendingSet id = ⟨[], none⟩ := pendingSet_restartBlocks s id
      have := winner_eligible _ id hw
      rw [set] at this
      cases this
    · cases this

theorem answer_alone {r : State} {u : Uplink} (h : r.up = u.restart) (hd : Head) (hm : u.macEnabled = true)
    (quiet : ∀ v, (r.putUp v).readyProducers false = []) : (r.promise.answer hd 0x10 .ok []).finish =
      r.putUp { u with queue := [], port := some (answerFrame hd 0x10 .ok []), rotation := .media, promised := 0 } := by
  have answered : r.promise.answer hd 0x10 .ok [] = r.putUp
      { u with queue := [answerFrame hd 0x10 .ok []], port := none, rotation := .media, promised := 0 } := by
    rw [State.answer, State.enqueue, State.release, State.promise, h]
    rfl
  have taken := takeNext_of_arbitrate (f := answerFrame hd 0x10 .ok [])
    (u := { u with queue := [answerFrame hd 0x10 .ok []], port := none, rotation := .media, promised := 0 }) rfl hm rfl
  rw [answered, State.finish, settle_idle (quiet _)]
  refine (congrArg r.putUp taken).trans ?_
  simp [Rotation.after, answerFrame]

theorem restart_answered (s : State) (h : Head) (hm : s.up.macEnabled = true) :
    (s.restart.promise.answer h 0x10 .ok []).finish = s.restart.putUp
      { s.up with queue := [], port := some (answerFrame h 0x10 .ok []), rotation := .media, promised := 0 } := by
  obtain ⟨st, hr, streams⟩ := restart_streams s
  obtain ⟨c, b, loader⟩ := abandonLoader_kept s
  have quiet (u : Uplink) : (s.restart.putUp u).readyProducers false = [] := by
    rw [hr]
    refine restartBlocks_quiet (fun n => ?_) u
    have := (streams n).1
    exact ⟨(congrArg Stream.atts this).trans rfl, (congrArg Stream.replay this).trans rfl⟩
  exact answer_alone (by rw [hr, loader]; rfl) h hm quiet

/-- Settles O60. -/
theorem restartResetsEveryBlock : Obligations.RestartResetsEveryBlock := by
  intro s h bytes body i c ha
  have decided : s.promise.owner i .restart none h.node body = s.promise.takeRestart body := rfl
  refine ⟨fun hb => ha.answers_eq ?_, fun hb => ?_⟩
  · rw [decided, State.takeRestart, if_pos hb]
    rfl
  · have taken : s.promise.owner i .restart none h.node body = ⟨s.promise.restart.promise, .ok, []⟩ := by
      rw [decided, State.takeRestart, if_neg (not_not.mpr hb)]
    refine ⟨_, ha.exec_decided taken, ?_⟩
    rw [restart_answered s.promise h ha.enabled]
    obtain ⟨st, hr, streams⟩ := restart_streams s.promise
    obtain ⟨a, b, loader⟩ := abandonLoader_kept s.promise
    have config : a = s.promise.pageLeft := by rw [← abandonLoader_config, loader]
    rw [hr, loader, config]
    refine ⟨rfl, rfl, rfl, rfl, rfl, rfl, rfl, rfl, rfl, rfl, rfl, rfl, ?_, fun n => ?_⟩
    · show (match s.loader.activity with
        | .saving list step _ => s.pageLeft = _
        | _ => s.pageLeft = _)
      rw [State.pageLeft]
      cases s.loader.activity <;> rfl
    · obtain ⟨stream, suffix, newest⟩ := streams n
      exact ⟨line_restartBlocks _ n, stream, suffix, newest, pw_restartBlocks _ n, wt_restartBlocks _ n, port_restartBlocks _ n⟩

end Sys2Proof.Machine
end

section
/-! PROOFS. The obligation about the handover of a node (chapters 1, 3, 7 and 8). -/
namespace Sys2Proof.Machine

-- Side by side, the proofs of this text would need more thread stacks than the check's memory limit holds.
set_option Elab.async false

variable {s t u : State} {n : NodeId}

/-! ## A stream with nothing in it stands (R52, R68, R173) -/

/-- A stream with no entry in its ring or history, no replay and no batch due. -/
def Stream.blank (x : Stream) : Prop := x.ring = [] ∧ x.chain = [] ∧ x.replay = none ∧ x.batchDue = false

/-- A blank stream of node `n` stands. -/
def BlankKept (n : NodeId) (s t : State) : Prop := (s.streams.get n).blank → t.streams.get n = s.streams.get n

theorem BlankKept.of_eq (h : t.streams.get n = s.streams.get n) : BlankKept n s t := fun _ => h

theorem BlankKept.refl (n : NodeId) (s : State) : BlankKept n s s := .of_eq rfl

theorem BlankKept.trans (h : BlankKept n s t) (k : BlankKept n t u) : BlankKept n s u := fun e =>
  (k ((h e).symm ▸ e)).trans (h e)

theorem formBatch_blank (s : State) (n m : NodeId) : BlankKept n s (s.formBatch m) := by
  intro ⟨ring, _, _, due⟩
  by_cases h : n = m
  · subst h
    rw [State.formBatch]
    simp only [ring, due, List.take_nil, List.drop_nil, State.passAll]
    rw [State.putStream_streams, Tab.get_put_same, ← ring, Bool.false_and, ← due]
  · obtain ⟨fs, b, c, a, r, e⟩ := s.formBatch_eq m
    rw [e]
    exact Tab.get_put_ne _ _ h

theorem replayFrame_blank (s : State) (n m : NodeId) : BlankKept n s (s.replayFrame m) := by
  intro ⟨_, _, replay, _⟩
  by_cases h : n = m
  · subst h
    simp only [State.replayFrame, replay]
  · rw [State.replayFrame]
    dsimp only
    split
    · rfl
    · split
      · exact Tab.get_put_ne _ _ h
      · exact Tab.get_put_ne _ _ h

theorem finish_blank (s : State) (n : NodeId) : BlankKept n s s.finish :=
  finish_preserves (R := BlankKept n) (.refl n) .trans (fun _ _ => .of_eq rfl) (fun a b p hp => by
    cases p with
    | batch m => exact formBatch_blank a n m
    | replay m => exact replayFrame_blank a n m
    | needs => exact absurd rfl hp
    | imageOpen _ | refetch _ | rewrite _ | notice => exact .of_eq (congrArg (Tab.get · n) (serve_streams a b hp nofun nofun)))
    (fun _ => .of_eq rfl) s

/-! ## What leaves the streams but for histories that an allocation reclaims (R173) -/

/-- A relation that holds where the streams stand or an allocation reclaims a cell. -/
structure Reclaiming (R : State → State → Prop) : Prop where
  same : ∀ {a b : State}, b.streams = a.streams → R a b
  trans : ∀ {a b c : State}, R a b → R b c → R a c
  reclaim : ∀ (a : State) (m : NodeId), a.aboveMin m ≠ 0 → R a (a.reclaim m)

section
variable {R : State → State → Prop} (hR : Reclaiming R)
include hR

theorem Reclaiming.refl (s : State) : R s s := hR.same rfl

theorem Reclaiming.obtain (s : State) (k : Nat) : R s (State.obtain k s) := by
  induction k generalizing s with
  | zero => exact hR.refl s
  | succ k ih =>
    rw [State.obtain]
    split
    · exact hR.refl s
    · split
      · next i _ => exact hR.trans (b := s.putPool (s.pool.evict i)) (hR.same rfl) (ih _)
      · split
        · next m hm => exact hR.trans (hR.reclaim s m (richest_some s hm)) (ih _)
        · exact hR.refl s

theorem Reclaiming.allocate (s : State) (k : ExtentKey) : R s (s.allocate k).1 := by
  have h := hR.obtain s 1200
  rw [State.allocate]
  generalize State.obtain 1200 s = a at h ⊢
  split
  · exact hR.same rfl
  · split
    · exact hR.trans h (hR.same rfl)
    · exact hR.same rfl

theorem Reclaiming.tryOne (s : State) : R s s.tryOne.1 := by
  rw [State.tryOne]
  split
  · exact hR.refl s
  · next x _ =>
    split
    · next r f _ _ =>
      have h := hR.allocate s (r.key x.extent)
      split
      · split
        · next hq => rw [hq] at h; exact hR.trans h (hR.same rfl)
        · next hq => rw [hq] at h; exact h
      · exact hR.refl s
    · exact hR.refl s

theorem Reclaiming.tryNeeds (s : State) : R s s.tryNeeds := by
  have loop (k : Nat) (a : State) : R a (State.tryLoop k a) := by
    induction k generalizing a with
    | zero => exact hR.refl a
    | succ k ih =>
      rw [State.tryLoop]
      split
      · exact hR.trans (hR.tryOne a) (ih _)
      · exact hR.tryOne a
  exact loop 64 s

theorem Reclaiming.report (s : State) : R s s.report := by
  rw [State.report]
  split
  · exact hR.trans (b := s.putPool { s.pool with waiting := false }) (hR.same rfl) (hR.tryNeeds _)
  · exact hR.refl s

theorem Reclaiming.unpin (s : State) (i : ExtentIx) : R s (s.unpin i) := by
  rw [State.unpin]
  split
  · split
    · exact hR.trans (b := s.putPool (s.pool.unpin i)) (hR.same rfl) (hR.report _)
    · exact hR.same rfl
  · exact hR.refl s

theorem Reclaiming.endNotReady (s : State) (m : NodeId) : R s (s.endNotReady m) := by
  have drops : R s (s.dropActive m) := by
    rw [State.dropActive]
    split
    · exact hR.refl s
    · exact hR.trans (b := s.clearActive m) (hR.same rfl) (hR.unpin _ _)
    · exact hR.same rfl
    · exact hR.same rfl
  rw [State.endNotReady]
  split
  · rw [State.endRequest, status_eq]
    exact hR.trans drops (hR.same rfl)
  · exact hR.refl s

theorem Reclaiming.abandonWrite (s : State) (m : NodeId) : R s (s.abandonWrite m) := by
  rw [State.abandonWrite]
  split <;> exact hR.same rfl

omit hR in
theorem removing_streams (s : State) (r : ImageIx) (x : ImageRec) : (s.removing r x).streams = s.streams := by
  have drop (a : State) (f : FetchIx) : (a.dropFetch f).streams = a.streams := by
    rw [State.dropFetch]
    split <;> rfl
  have drops (fs : List FetchIx) (a : State) : (fs.foldl State.dropFetch a).streams = a.streams := by
    induction fs generalizing a with
    | nil => rfl
    | cons f fs ih => exact (ih _).trans (drop a f)
  have closes : (s.closeRecord x).streams = s.streams := by
    rw [State.closeRecord]
    split
    · rfl
    · split <;> rfl
  exact (drops _ _).trans closes

theorem Reclaiming.removeRecord (s : State) (r : ImageIx) : R s (s.removeRecord r) := by
  cases h : s.image r with
  | none => rw [State.removeRecord, h]; exact hR.refl s
  | some x =>
    have removing : R s (s.removing r x) := hR.same (removing_streams s r x)
    rw [removeRecord_eq h]
    split
    · exact removing
    · exact hR.trans (b := (s.removing r x).putPool { (s.removing r x).pool with waiting := false }) (hR.trans removing (hR.same rfl))
        (hR.tryNeeds _)

theorem Reclaiming.emptyMedium (s : State) (m : NodeId) (lock changed : Bool) : R s (s.emptyMedium m lock changed) := by
  have leaves (a : State) (r : ImageIx) : R a (a.leaveRecord m r) := by
    rw [State.leaveRecord]
    split
    · exact hR.refl a
    · next x _ =>
      dsimp only
      split
      · exact hR.trans (b := a.putImage r (some { x with users := withoutNode x.users m })) (hR.same rfl) (hR.removeRecord _ r)
      · exact hR.same rfl
  rw [State.emptyMedium]
  dsimp only
  split
  · exact hR.trans (b := s.putPort m ((s.port m).emptied lock changed)) (hR.same rfl) (leaves _ _)
  · exact hR.same rfl

theorem Reclaiming.handoverPort (s : State) (m : NodeId) : R s (s.handoverPort m) := by
  have ends := hR.trans (hR.endNotReady s m) (hR.abandonWrite _ m)
  rw [State.handoverPort]
  split
  · exact hR.trans ends (hR.same rfl)
  · exact hR.trans ends (hR.emptyMedium _ m _ _)

end

/-- A blank stream has no cell to reclaim. -/
theorem blankKept_reclaiming (n : NodeId) : Reclaiming (BlankKept n) where
  same h := .of_eq (congrArg (Tab.get · n) h)
  trans := .trans
  reclaim a m hm := fun ⟨_, chain, _, _⟩ => Tab.get_put_ne _ _ fun h => hm (by
    have held : a.heldCells n = 0 := by rw [State.heldCells, chain]; rfl
    rw [State.aboveMin, ← h, held, Nat.zero_sub])

/-! ## The Media Port's share of a handover (R138, R140) -/

/-- A port after a handover; `outstanding` tells whether a write of its node was outstanding. -/
def MediaPort.handed (p : MediaPort) (outstanding : Bool) : MediaPort :=
  let q : MediaPort := { p.endedNotReady outstanding with staging := if outstanding then [] else (p.endedNotReady outstanding).staging }
  match p.medium.ref? with
  | none => { q with changed := false, lock := false }
  | some _ => q.emptied false false

theorem Medium.ref?_none {m : Medium} (h : m.ref? = none) : m = .empty := by
  cases m with
  | empty => rfl
  | loading _ | present _ _ | ejecting _ _ _ => cases h

theorem handed_fields (p : MediaPort) (o : Bool) : (p.handed o).medium = .empty ∧ (p.handed o).active = none ∧
    (p.handed o).attached = p.attached ∧ (p.handed o).readAhead = p.readAhead ∧ (p.handed o).changed = false ∧
    (p.handed o).lock = false ∧ (p.handed o).sense = if p.active.isSome then ⟨.notReady, none⟩ else p.sense := by
  have ended : (p.endedNotReady o).active = none ∧ (p.endedNotReady o).attached = p.attached ∧
      (p.endedNotReady o).readAhead = p.readAhead ∧
      (p.endedNotReady o).sense = if p.active.isSome then ⟨.notReady, none⟩ else p.sense := by
    rw [MediaPort.endedNotReady]
    split
    · exact ⟨rfl, rfl, rfl, rfl⟩
    · next h => exact ⟨Option.not_isSome_iff_eq_none.mp h, rfl, rfl, rfl⟩
  obtain ⟨h1, h2, h3, h4⟩ := ended
  rw [MediaPort.handed]
  split
  · next hr => exact ⟨(endedNotReady_medium p o).trans (Medium.ref?_none hr), h1, h2, h3, rfl, rfl, h4⟩
  · exact ⟨rfl, h1, h2, h3, rfl, rfl, h4⟩

/-- A medium emptied after the pool's work of a port's change: the other ports, and what no medium touches. -/
theorem PoolWork.emptyMedium_rest {q : MediaPort} (h : PoolWork (s.putPort n q) t) (lock changed : Bool) :
    MediaOnly s (t.emptyMedium n lock changed) ∧ (t.emptyMedium n lock changed).ports = s.ports.put n (q.emptied lock changed) := by
  have own : t.port n = q := (h.port_eq n).trans (State.port_putPort_same _ _ _)
  have works := emptyMedium_works t n lock changed
  obtain ⟨ports, -, -, only⟩ := leaving_still (t.putPort n ((t.port n).emptied lock changed)) n (t.port n).medium.ref?
  have before : MediaOnly s t := h.mediaOnly
  refine ⟨before.trans (only.trans works.mediaOnly), ?_⟩
  rw [works.ports_eq, ports, own, State.putPort, h.ports_eq]
  exact Tab.put_put _ _ _ _

/-- The port of node `n` and what belongs to its medium have passed to a new tenant, from `s` to `t` (R138, R140). -/
structure PortHanded (n : NodeId) (s t : State) : Prop where
  media : MediaOnly s t
  ports : t.ports = s.ports.put n ((s.port n).handed (s.outstanding n))
  writes : t.images.writes = s.images.writes.put n { s.images.writes.get n with live := none }
  notices : t.notices = s.notices
  released : Released n s t

theorem handoverPort_handed (s : State) (n : NodeId) : PortHanded n s (s.handoverPort n) := by
  have works := abandonWrite_works (endNotReady_works s n)
  rw [State.handoverPort]
  cases hm : (s.port n).medium.ref? with
  | none =>
    dsimp only
    have port := (works.port_eq n).trans (State.port_putPort_same _ _ _)
    refine ⟨works.mediaOnly, ?_, works.writes_eq, works.notices_eq, ?_⟩
    · rw [State.putPort, port, works.ports_eq, MediaPort.handed, hm]
      exact Tab.put_put _ _ _ _
    · rw [Released, hm]
      trivial
  | some m =>
    dsimp only
    obtain ⟨only, ports⟩ := works.emptyMedium_rest false false
    obtain ⟨-, released, notices, writes⟩ := works.emptyMedium (endedNotReady_medium _ _) false false
    refine ⟨only, ?_, writes, notices, released.of_same rfl (fun _ => rfl) (fun _ => rfl) rfl⟩
    rw [ports, MediaPort.handed, hm]
    rfl

/-! ## A handover (R17) -/

/-- The blocks that the medium does not touch, after a handover of node `n` to tenant `ten` (R16, R17, R68, R83, R119). -/
def State.handed (s : State) (n : NodeId) (ten : BitVec 4) : State :=
  ((({ s with su := s.su.handover n ten } : State).putStream n ((s.streams.get n).handover fun i => (s.station i).isOperator)).putMatcher
    (s.matcher.clear n true)).putWatch n (s.wt n).handover

/-- Node `n` has passed to tenant `ten`, from `s` to `t`. -/
structure HandedOver (n : NodeId) (ten : BitVec 4) (s t : State) : Prop extends PortHanded n (s.handed n ten) t where
  stream : t.streams.get n = (s.streams.get n).handover fun i => (s.station i).isOperator

theorem MediaOnly.putMatcher (h : MediaOnly s t) (m : Matcher) : MediaOnly (s.putMatcher m) (t.putMatcher m) := by
  obtain ⟨h1, h2, h3, h4, h5, h6, -, h⟩ := h
  exact ⟨h1, h2, h3, h4, h5, h6, rfl, h⟩

theorem MediaOnly.putWatch (h : MediaOnly s t) (w : Watch) : MediaOnly (s.putWatch n w) (t.putWatch n w) := by
  obtain ⟨h1, h2, h3, h4, h5, h6, h7, h8, h9, h⟩ := h
  exact ⟨h1, h2, h3, h4, h5, h6, h7, h8, congrArg (Tab.put · n w) h9, h⟩

theorem handover_hands (s : State) (n : NodeId) (ten : BitVec 4) : ∃ d, HandedOver n ten s d ∧
    s.handover n ten = (d.clearSet n).raise (some n) .tenantChanged := by
  let a := (s.putSu (s.su.handover n ten)).putStream n ((s.streams.get n).handover fun i => (s.station i).isOperator)
  let c := a.report.putMatcher (s.matcher.clear n true)
  have works : PoolWork a a.report := report_work a
  have matcher : a.report.matcher = s.matcher := works.mediaOnly.2.2.2.2.2.2.1
  have watches : c.watches = s.watches := works.mediaOnly.2.2.2.2.2.2.2.2.1
  have handed := handoverPort_handed c n
  have same : (c.handoverPort n).wt n = s.wt n := congrArg (Tab.get · n) (handed.media.2.2.2.2.2.2.2.2.1.trans watches)
  refine ⟨(c.handoverPort n).putWatch n (s.wt n).handover, ⟨⟨?_, ?_, ?_, ?_, ?_⟩, ?_⟩, ?_⟩
  · exact ((works.mediaOnly.putMatcher _).trans handed.media).putWatch _
  · have port : c.port n = s.port n := works.port_eq n
    have out : c.outstanding n = s.outstanding n := works.outstanding_eq n
    have ports : c.ports = s.ports := works.ports_eq
    exact (port ▸ out ▸ ports ▸ handed.ports :)
  · have writes : c.images.writes = s.images.writes := works.writes_eq
    exact (writes ▸ handed.writes :)
  · exact handed.notices.trans works.notices_eq
  · have released : Released n c ((c.handoverPort n).putWatch n (s.wt n).handover) := handed.released
    exact released.of_same (congrArg (fun p => p.medium.ref?) (works.port_eq n)) works.image_eq works.closeFrame_eq works.unsentClose_eq
  · have begins : a.streams.get n = (s.streams.get n).handover fun i => (s.station i).isOperator := Tab.get_put_same _ _ _
    have kept : BlankKept n a (c.handoverPort n) := ((blankKept_reclaiming n).report a).trans
      (.trans (t := c) (.of_eq rfl) ((blankKept_reclaiming n).handoverPort c n))
    refine (kept ?_).trans begins
    rw [begins]
    exact ⟨rfl, rfl, rfl, rfl⟩
  · have whole : s.handover n ten = ((((a.report.putMatcher (a.report.matcher.clear n true)).handoverPort n).putWatch n
        (((a.report.putMatcher (a.report.matcher.clear n true)).handoverPort n).wt n).handover).clearSet n).raise (some n)
        .tenantChanged := rfl
    rw [matcher] at whole
    rw [← same]
    exact whole

theorem tenantChanged_alone (h : t.notices = s.notices) (n : NodeId) : ((t.clearSet n).raise (some n) .tenantChanged).notices =
    (s.putSet (some n) ⟨[⟨.tenantChanged, 1⟩], (s.pendingSet (some n)).gap⟩).notices := by
  have cleared : (s.clearSet n).pendingSet (some n) = ⟨[], (s.pendingSet (some n)).gap⟩ := Tab.get_put_same _ _ _
  have same : (t.clearSet n).notices = (s.clearSet n).notices := by
    simp only [State.clearSet, State.putSet, State.pendingSet, h]
  rw [raise_notices_congr same, State.raise, cleared]
  show ({ s.notices with sets := (s.notices.sets.put n _).put n _ } : Notices) = _
  rw [Tab.put_put]
  rfl

/-- What a handover leaves, once it is answered and the step has ended. -/
structure TenantMoved (n : NodeId) (ten : BitVec 4) (hd : Head) (b : List Byte) (s u : State) : Prop where
  su : u.su = s.su.handover n ten
  uplink : UplinkSettled (s.withAnswer hd 0x02 .ok b) u
  stream : u.streams.get n = (s.streams.get n).handover fun i => (s.station i).isOperator
  streams : ∀ m, m ≠ n → StreamSettled (s.streams.get m) (u.streams.get m)
  ports : u.ports = s.ports.put n ((s.port n).handed (s.outstanding n))
  released : Released n s u
  write : (u.images.writes.get n).live = none
  writes : ∀ m, m ≠ n → WriteSettled m s u
  notices : NoticesSettled ((s.putSu u.su).putSet (some n) ⟨[⟨.tenantChanged, 1⟩], (s.pendingSet (some n)).gap⟩) u
  matcher : u.matcher = s.matcher.clear n true
  watches : u.watches = s.watches.put n (s.wt n).handover
  rest : u.lines = s.lines ∧ u.power = s.power ∧ u.loader = s.loader ∧ u.config = s.config

theorem HandedOver.ends {ten : BitVec 4} (h : HandedOver n ten s.promise t) {hd : Head} {b : List Byte} {v : State}
    (hv : ((t.clearSet n).raise (some n) .tenantChanged).answer hd 0x02 .ok b = v) (hs : Settles v u) (blank : BlankKept n v u) :
    TenantMoved n ten hd b s u := by
  have still : u.still = t.still := hs.delivers.still_eq.trans (hv ▸ rfl)
  obtain ⟨now, -, -, su, lines, -, matcher, power, watches, loader, config, -, -, streams, uplink, -⟩ := h.media
  have released : Released n s t := h.released.of_same rfl (fun _ => rfl) (fun _ => rfl) rfl
  have answered : Released n s v := hv ▸ released.putUp (framesKept_append t [answerFrame hd 0x02 .ok b])
  have writes : v.images.writes = s.images.writes.put n { s.images.writes.get n with live := none } := hv ▸ h.writes
  have ports : v.ports = t.ports := hv ▸ rfl
  have stream : v.streams = t.streams := hv ▸ rfl
  have written (m : NodeId) := hs.delivers.writesSettled m
  have own := (written n).2
  rw [writes, Tab.get_put_same] at own
  refine {
    su := (congrArg State.su still :).trans su
    uplink := .trans (hv ▸ UplinkSettled.answer (e := s) uplink hd 0x02 .ok b) hs.delivers.uplink
    stream := ?_
    streams := fun m hm => .trans (y := v.streams.get m) ?_ (hs.delivers.streams m)
    ports := hs.delivers.ports_eq.trans (ports.trans h.ports)
    released := answered.delivers hs.delivers
    write := Option.map_eq_none_iff.mp own
    writes := fun m hm => ?_
    notices := ?_
    matcher := (congrArg State.matcher still :).trans matcher
    watches := (congrArg State.watches still :).trans watches
    rest := ⟨(congrArg State.lines still :).trans lines, (congrArg State.power still :).trans power,
      (congrArg State.loader still :).trans loader, (congrArg State.config still :).trans config⟩ }
  · have begins : v.streams.get n = (s.streams.get n).handover fun i => (s.station i).isOperator := stream ▸ h.stream
    refine (blank ?_).trans begins
    rw [begins]
    exact ⟨rfl, rfl, rfl, rfl⟩
  · have other := streams m
    rw [stream]
    rw [show (s.promise.handed n ten).streams.get m = s.streams.get m from Tab.get_put_ne _ _ hm] at other
    exact other
  · have other := written m
    rw [WriteSettled, writes, Tab.get_put_ne _ _ hm] at other
    exact other
  · have moved : u.su = t.su := (congrArg State.su still :)
    refine hs.delivers.notices_trans (.of_eq ?_) ?_ ?_
    · rw [moved, ← hv]
      exact tenantChanged_alone (s := s.putSu t.su) h.notices n
    · rw [moved, ← hv]
      rfl
    · rw [← hv]
      exact now

/-- Settles O22. -/
theorem tenantWriteHandsTheNodeOver : Obligations.TenantWriteHandsTheNodeOver := by
  intro s h bytes i n b x c tenant ha hs hb
  have decided : s.promise.owner i .tableWrite (some n) h.node (0x02 :: b) = s.promise.writeTenant false (nodeByte n) b :=
    ha.decided_node (c := .nodeTenant)
  refine ⟨fun hl => ha.refused (decided.trans (writeTenant_refused (s := s.promise) hs hb (.inl hl) false)), fun hl hx => ?_⟩
  have value : byteAt b 1 = x.toNat := byteAt_of_getElem? hx
  refine ⟨fun h15 => ha.refused (decided.trans (writeTenant_refused (s := s.promise) hs hb (.inr (value.symm ▸ h15)) false)),
    fun h15 ht => ha.refused (decided.trans (writeTenant_present (s := s.promise) hs hb hl (value.symm ▸ h15) (value.symm ▸ ht) false)),
    fun h15 ht => ?_⟩
  obtain ⟨d, handed, hands⟩ := handover_hands s.promise n tenant
  have taken : s.promise.owner i .tableWrite (some n) h.node (0x02 :: b) =
      ⟨s.promise.handover n tenant, .ok, (s.promise.handover n tenant).tenantBody n⟩ := by
    have := writeTenant_taken (s := s.promise) hs hb hl (value.symm ▸ h15) (value.symm ▸ ht) false
    rw [value] at this
    exact decided.trans this
  have body : (s.promise.handover n tenant).tenantBody n = encodeNodeTenant n tenant (s.su.handovers.get n + 1) := by
    have su : (s.promise.handover n tenant).su = s.su.handover n tenant := by
      rw [hands]
      exact handed.media.2.2.2.1
    rw [State.tenantBody, su, Steering.handover, Tab.get_put_same, Tab.get_put_same]
  rw [body] at taken
  have ended := ha.exec_decided taken
  obtain ⟨u, hu⟩ : ∃ u, ((s.promise.handover n tenant).answer h 0x02 .ok (encodeNodeTenant n tenant (s.su.handovers.get n + 1))).finish = u :=
    ⟨_, rfl⟩
  have moved : TenantMoved n tenant h _ s u := handed.ends (by rw [← hands]) (hu ▸ finish_settles _) (hu ▸ finish_blank _ n)
  rw [hu] at ended
  refine ⟨u, ended, ?_⟩
  obtain ⟨su, uplink, stream, streams, ports, released, write, writes, notices, matcher, watches, lines, power, loader, config⟩ := moved
  have port (m : NodeId) : u.port m = if m = n then (s.port n).handed (s.outstanding n) else s.port m := port_put ports m
  have own : u.port n = (s.port n).handed (s.outstanding n) := (port n).trans (if_pos rfl)
  obtain ⟨p1, p2, p3, p4, p5, p6, p7⟩ := handed_fields (s.port n) (s.outstanding n)
  have wt : u.wt n = (s.wt n).handover := by rw [State.wt, watches]; exact Tab.get_put_same _ _ _
  refine ⟨su, uplink, ?_⟩
  rw [stream, own, wt]
  refine ⟨rfl, rfl, rfl, rfl, rfl, rfl, rfl, rfl, rfl, rfl, ?_, fun p => ?_, ?_, p1, p2, write, released, p3, p4, p5, p6, p7, rfl, rfl,
    ?_, rfl, rfl, notices, lines, power, loader, config, fun m hm => ⟨streams m hm, ?_, ?_, ?_, ?_, writes m hm⟩⟩
  · show (if ((s.streams.get n).atts.filter fun a => (s.station a.station).isOperator).isEmpty = true then _ else _) = _
    simp only [List.isEmpty_iff]
    rfl
  · rw [matcher, Matcher.clear, Tab.get_put_same, Tab.get_fill]
  · rw [matcher, Matcher.clear, Tab.get_put_same]
  · split
    · next hw => exact ⟨by simp [Watch.handover, hw], by simp [Watch.handover, hw]⟩
    · next hw =>
      cases hx : (s.wt n).state with
      | watching => exact absurd hx hw
      | idle | held => simp [Watch.handover, hx]
  · rw [port, if_neg hm]
  · rw [State.wt, watches]
    exact Tab.get_put_ne _ _ hm
  · rw [matcher, Matcher.clear, Tab.get_put_ne _ _ hm]
  · rw [matcher, Matcher.clear, Tab.get_put_ne _ _ hm]

end Sys2Proof.Machine
end

section
/-! PROOFS. What the replacement of a station's entry does to attachments and media (chapters 1, 3, 7 and 8). -/
namespace Sys2Proof.Machine

-- Side by side, the proofs of this text would need more thread stacks than the check's memory limit holds.
set_option Elab.async false

variable {s e t u : State} {n : NodeId} {j : StationIx}

/-! ## Attachments re-examined (R13) -/

/-- A stream after the re-examination of station `j`'s attachment, which `removed` ends and which may type if `types` (R13). -/
def Stream.reviewed (x : Stream) (j : StationIx) (removed types : Bool) : Stream :=
  match x.att j with
  | none => x
  | some a =>
    if removed then x.without j
    else if a.mode = .typing ∧ types = false then x.putAtt { a with mode := .watch, escape := none }
    else x

theorem reviewAttachment_settles (s : State) (j : StationIx) (gone : Bool) (n : NodeId) :
    Settles (s.putStream n ((s.streams.get n).reviewed j (gone || !s.holds j n .watch) (s.holds j n .typing)))
      (State.reviewAttachment j gone s n) := by
  rw [State.reviewAttachment, Stream.reviewed]
  cases ha : (s.streams.get n).att j with
  | none =>
    dsimp only
    rw [State.putStream_self]
    exact .refl s
  | some a =>
    dsimp only
    split
    · exact detach_settles ha
    · split
      · exact .refl _
      · rw [State.putStream_self]
        exact .refl s

theorem reviewAttachment_others (s : State) (j : StationIx) (gone : Bool) {n m : NodeId} (h : m ≠ n) :
    (State.reviewAttachment j gone s n).streams.get m = s.streams.get m := by
  obtain ⟨fs, u, hu, -⟩ := reviewAttachment_eq s j gone n
  rw [hu]
  exact Tab.get_put_ne _ _ h

theorem reviewAttachment_holds (s : State) (j : StationIx) (gone : Bool) (n m : NodeId) (x : Right) :
    (State.reviewAttachment j gone s n).holds j m x = s.holds j m x := by
  obtain ⟨fs, u, hu, -⟩ := reviewAttachment_eq s j gone n
  rw [hu]
  rfl

/-- The attachments of the nodes `ns` re-examined in turn. -/
theorem foldl_reviewAttachment {gone : Bool} {ns : List NodeId} (hn : ns.Nodup) {R : NodeId → Stream} (h : Settles e t)
    (hR : ∀ n ∈ ns, R n = (t.streams.get n).reviewed j (gone || !t.holds j n .watch) (t.holds j n .typing)) :
    Settles (ns.foldl (fun a n => a.putStream n (R n)) e) (ns.foldl (State.reviewAttachment j gone) t) := by
  induction ns generalizing e t with
  | nil => exact h
  | cons n ns ih =>
    obtain ⟨fresh, hn⟩ := List.nodup_cons.mp hn
    refine ih hn ((h.putStream n (.refl (R n))).trans ?_) fun m hm => ?_
    · rw [hR n List.mem_cons_self]
      exact reviewAttachment_settles t j gone n
    · have other : m ≠ n := fun h => fresh (h ▸ hm)
      rw [reviewAttachment_others t j gone other, reviewAttachment_holds, reviewAttachment_holds]
      exact hR m (List.mem_cons_of_mem _ hm)

/-- A node whose attachment of station `j` was removed runs no replay for it (R61). -/
theorem foldl_reviewAttachment_replay {gone : Bool} {ns : List NodeId} (hn : ns.Nodup) (s : State) (hm : n ∈ ns)
    (ha : ((s.streams.get n).att j).isSome) (hx : (gone || !s.holds j n .watch) = true) {r : Replay}
    (hr : (s.streams.get n).replay = some r) (hq : r.requester = j) :
    ((ns.foldl (State.reviewAttachment j gone) s).streams.get n).replay = none := by
  induction ns generalizing s with
  | nil => cases hm
  | cons k ns ih =>
    obtain ⟨fresh, hn⟩ := List.nodup_cons.mp hn
    rw [List.foldl_cons]
    rcases List.mem_cons.mp hm with rfl | hm
    · have later (ns : List NodeId) (a : State) (h : n ∉ ns) :
          (ns.foldl (State.reviewAttachment j gone) a).streams.get n = a.streams.get n := by
        induction ns generalizing a with
        | nil => rfl
        | cons k ns ih =>
          obtain ⟨hk, hns⟩ := not_or.mp (mt List.mem_cons.mpr h)
          exact (ih _ hns).trans (reviewAttachment_others a j gone hk)
      rw [later ns _ fresh]
      obtain ⟨a, ha⟩ := Option.isSome_iff_exists.mp ha
      have removes : State.reviewAttachment j gone s n = s.detach n j := by
        rw [State.reviewAttachment, ha]
        exact if_pos hx
      rw [removes]
      exact detach_unreplayed ha hr hq
    · have other := reviewAttachment_others s j gone (n := k) (m := n) fun h => fresh (h ▸ hm)
      refine ih hn _ hm ?_ ?_ ?_
      · rw [other]; exact ha
      · rw [reviewAttachment_holds]; exact hx
      · rw [other]; exact hr

/-- The re-examination of attachments changes the streams and queues frames. -/
theorem reviewed_kept (s : State) (j : StationIx) (st : Station) : ∃ fs x, s.reviewed j st =
    (({ s with su := { s.su with stations := s.su.stations.put j st }, streams := x } : State).enqueueAll fs) := by
  have fold (gone : Bool) (ns : List NodeId) (a : State) : ∃ fs x, ns.foldl (State.reviewAttachment j gone) a =
      ({ a with streams := x } : State).enqueueAll fs := by
    induction ns generalizing a with
    | nil => exact ⟨[], a.streams, by simp [State.enqueueAll]⟩
    | cons n ns ih =>
      obtain ⟨fs, u, hu, -⟩ := reviewAttachment_eq a j gone n
      obtain ⟨gs, x, hx⟩ := ih (State.reviewAttachment j gone a n)
      refine ⟨fs ++ gs, x, ?_⟩
      rw [List.foldl_cons, hx, hu]
      simp [State.enqueueAll, State.putStream]
  exact fold _ _ _

/-! ## The attachments left (R13, R54) -/

theorem reviewed_atts {x : Stream} (hn : (x.atts.map Attachment.station).Nodup) (removed types : Bool) :
    (x.reviewed j removed types).atts = x.atts.filterMap (fun a =>
      if a.station ≠ j then some a
      else if removed then none
      else if a.mode = .typing ∧ types = false then some { a with mode := .watch, escape := none }
      else some a) := by
  rw [Stream.reviewed]
  cases ha : x.att j with
  | none =>
    dsimp only
    refine List.filterMap_some.symm.trans (List.filterMap_congr fun a hm => ?_)
    rw [if_pos (att_eq_none ha a hm)]
  | some a =>
    obtain ⟨mem, station⟩ := mem_of_att ha
    have only {b : Attachment} (hb : b ∈ x.atts) (h : b.station = j) : b = a :=
      List.inj_on_of_nodup_map hn hb mem (h.trans station.symm)
    dsimp only
    split
    · show x.atts.filter _ = _
      rw [← List.filterMap_eq_filter]
      refine List.filterMap_congr fun b _ => ?_
      by_cases hb : b.station = j <;> simp [Option.guard, hb]
    · split
      · next hl =>
        show x.atts.map _ = _
        rw [← List.filterMap_eq_map]
        refine List.filterMap_congr fun b hb => ?_
        by_cases h : b.station = j
        · obtain rfl := only hb h
          simp [h, hl]
        · simp [h, station]
      · next hl =>
        refine List.filterMap_some.symm.trans (List.filterMap_congr fun b hb => ?_)
        by_cases h : b.station = j
        · obtain rfl := only hb h
          rw [if_neg (not_not.mpr h), if_neg hl]
        · rw [if_pos h]

/-! ## A medium forced EMPTY, whatever the records (R138) -/

/-- A record now was a record before, of the same server. -/
def ServersKept (s t : State) : Prop := ∀ q z, t.image q = some z → ∃ x, s.image q = some x ∧ z.server = x.server

theorem ServersKept.of_eq (h : ∀ q, t.image q = s.image q) : ServersKept s t := fun q z hz => ⟨z, (h q).symm.trans hz, rfl⟩

theorem ServersKept.trans (h : ServersKept s t) (k : ServersKept t u) : ServersKept s u := fun q z hz => by
  obtain ⟨y, hy, h1⟩ := k q z hz
  obtain ⟨x, hx, h2⟩ := h q y hy
  exact ⟨x, hx, h1.trans h2⟩

theorem leaving_servers (s : State) (n : NodeId) (m : Option MediumRef) : ServersKept s (s.leaving n m) := by
  rw [State.leaving]
  split
  · next r x hx =>
    intro q z hz
    by_cases hq : q = r
    · subst hq
      obtain ⟨m, -, hm⟩ := Option.bind_eq_some_iff.mp hx
      obtain ⟨y, hy, he⟩ := Option.map_eq_some_iff.mp hm
      obtain ⟨rfl, rfl⟩ := Prod.mk.inj he
      rw [released_image] at hz
      split at hz
      · cases hz
      · cases hz
        exact ⟨y, hy, rfl⟩
    · rw [released_image_ne hq] at hz
      exact ⟨z, hz, rfl⟩
  · exact .of_eq fun _ => rfl

/-- What the loss of a server does to the port and the write of node `n`, and what it leaves. -/
structure ForcedOut (n : NodeId) (s t : State) : Prop where
  media : MediaOnly s t
  ports : t.ports = s.ports.put n ((s.port n).forced (s.outstanding n))
  writes : t.images.writes = s.images.writes.put n { s.images.writes.get n with live := none }
  servers : ServersKept s t

theorem forceEjectLost_event {m : MediumRef} (hm : (s.port n).medium.ref? = some m) : ∃ ev, s.forceEjectLost n =
    (((s.endNotReady n).abandonWrite n).emptyMedium n false true).raise (some n) ev := by
  simp only [State.forceEjectLost, hm]
  exact ⟨_, rfl⟩

theorem forceEjectLost_out {m : MediumRef} (hm : (s.port n).medium.ref? = some m) : ForcedOut n s (s.forceEjectLost n) := by
  have works := abandonWrite_works (endNotReady_works s n)
  obtain ⟨only, ports⟩ := works.emptyMedium_rest false true
  obtain ⟨-, -, -, writes⟩ := works.emptyMedium (endedNotReady_medium _ _) false true
  have empties := emptyMedium_works ((s.endNotReady n).abandonWrite n) n false true
  have before : ServersKept s ((s.endNotReady n).abandonWrite n) := .of_eq works.image_eq
  rw [forced_eq] at ports
  obtain ⟨ev, loses⟩ := forceEjectLost_event hm
  rw [loses]
  clear loses works
  generalize (s.endNotReady n).abandonWrite n = a at only ports writes before empties
  have leaves := leaving_servers (a.putPort n ((a.port n).emptied false true)) n (a.port n).medium.ref?
  have servers : ServersKept s (a.emptyMedium n false true) := (before.trans leaves).trans (.of_eq empties.image_eq)
  generalize a.emptyMedium n false true = b at only ports writes servers
  exact ⟨only.trans (raise_mediaOnly b _ _), ports, writes, servers⟩

/-! ## The media tested (R14) -/

/-- Node `n` has a medium of server `j`, which it may serve no more (R14). -/
def State.unserved (s : State) (j : StationIx) (gone : Bool) (n : NodeId) : Bool := s.servedBy j n && (gone || !s.mayServe j n)

theorem reviewMedium_served {gone : Bool} (h : s.unserved j gone n = false) : State.reviewMedium j gone s n = s :=
  if_neg (by rw [State.unserved] at h; rw [h]; nofun)

theorem reviewMedium_unserved {gone : Bool} (h : s.unserved j gone n = true) : State.reviewMedium j gone s n = s.forceEjectLost n :=
  if_pos h

theorem servedBy_iff : s.servedBy j n = true ↔
    ∃ m x, (s.port n).medium.ref? = some m ∧ s.image m.image = some x ∧ x.server = j := by
  rw [State.servedBy]
  cases hm : (s.port n).medium.ref? with
  | none => simp
  | some m =>
    cases hx : s.image m.image with
    | none => simp [hx]
    | some x => simp [hx]

/-- What the test of the media leaves of node `n`, whatever the records. -/
structure MediaTested (j : StationIx) (gone : Bool) (s t : State) : Prop where
  media : MediaOnly s t
  servers : ServersKept s t
  spared : ∀ n, s.unserved j gone n = false → t.port n = s.port n ∧ t.images.writes.get n = s.images.writes.get n

theorem MediaTested.unserved {gone : Bool} (h : MediaTested j gone s t) (hn : s.unserved j gone n = false) :
    t.unserved j gone n = false := by
  refine Bool.eq_false_iff.mpr fun ht => ?_
  obtain ⟨served, lost⟩ := Bool.and_eq_true_iff.mp ht
  obtain ⟨m, z, hm, hz, hj⟩ := servedBy_iff.mp served
  obtain ⟨x, hx, same⟩ := h.servers _ z hz
  have before : s.servedBy j n = true := servedBy_iff.mpr ⟨m, x, by rw [← (h.spared n hn).1]; exact hm, hx, same.symm.trans hj⟩
  have serve : t.mayServe j n = s.mayServe j n := by rw [State.mayServe, State.mayServe, State.station, State.station, h.media.2.2.2.1]
  rw [State.unserved, before, ← serve, lost] at hn
  cases hn

theorem foldl_reviewMedium_tested (s : State) (j : StationIx) (gone : Bool) (ns : List NodeId) :
    MediaTested j gone s (ns.foldl (State.reviewMedium j gone) s) := by
  have fold (ns : List NodeId) {a : State} (h : MediaTested j gone s a) : MediaTested j gone s (ns.foldl (State.reviewMedium j gone) a) := by
    induction ns generalizing a with
    | nil => exact h
    | cons n ns ih =>
      refine ih ?_
      cases hn : a.unserved j gone n with
      | false => rwa [reviewMedium_served hn]
      | true =>
        obtain ⟨m, x, hm, -, -⟩ := servedBy_iff.mp (Bool.and_eq_true_iff.mp hn).1
        obtain ⟨media, ports, writes, servers⟩ := forceEjectLost_out hm
        rw [reviewMedium_unserved hn]
        refine ⟨h.media.trans media, h.servers.trans servers, fun k hk => ?_⟩
        have other : k ≠ n := by
          rintro rfl
          rw [h.unserved hk] at hn
          cases hn
        obtain ⟨port, write⟩ := h.spared k hk
        exact ⟨((port_put ports k).trans (if_neg other)).trans port, by rw [writes, Tab.get_put_ne _ _ other, write]⟩
  exact fold ns ⟨.refl s, .of_eq fun _ => rfl, fun _ _ => ⟨rfl, rfl⟩⟩

/-! ## Needs, fetches and records are only given up (R145) -/

/-- A count that saturates at 65,535 has not fallen. -/
def Risen (a b : Nat) : Prop := b = a ∨ (a < b ∧ b ≤ 65535) ∨ b = 65535

theorem Risen.trans {a b c : Nat} (h : Risen a b) (k : Risen b c) : Risen a c := by
  unfold Risen at *
  omega

/-- Needs and records are only given up, and with a record its needs; the fetches of a record that stays go on; the count of closes
not sent does not fall. -/
structure Trimmed (s t : State) : Prop where
  fewer : ∀ y ∈ t.images.needs, ∃ z ∈ s.images.needs, z.image = y.image
  records : ∀ q, s.image q = none → t.image q = none
  gone : ∀ q, s.image q ≠ none → t.image q = none → ∀ y ∈ t.images.needs, y.image ≠ q
  kept : ∀ f l, s.fetching f = some l → t.image l.image ≠ none → t.images.fetches.get f = s.images.fetches.get f
  unsent : Risen s.images.unsentClose t.images.unsentClose

theorem Trimmed.of_records (hq : ∀ q, t.image q = none ↔ s.image q = none) (hn : ∀ y ∈ t.images.needs, ∃ z ∈ s.images.needs, z.image = y.image)
    (hf : ∀ f l, s.fetching f = some l → t.images.fetches.get f = s.images.fetches.get f)
    (hu : t.images.unsentClose = s.images.unsentClose) : Trimmed s t where
  fewer := hn
  records q h := (hq q).mpr h
  gone q h h' := absurd ((hq q).mp h') h
  kept f l hl _ := hf f l hl
  unsent := .inl hu

theorem Trimmed.of_images (h : t.images = s.images) : Trimmed s t :=
  .of_records (fun q => by rw [State.image, h]; exact Iff.rfl) (fun y hy => ⟨y, h ▸ hy, rfl⟩) (fun f _ _ => by rw [h]) (by rw [h])

theorem Trimmed.refl (s : State) : Trimmed s s := .of_images rfl

theorem Trimmed.trans (h : Trimmed s t) (k : Trimmed t u) : Trimmed s u where
  fewer y hy := by
    obtain ⟨z, hz, h1⟩ := k.fewer y hy
    obtain ⟨w, hw, h2⟩ := h.fewer z hz
    exact ⟨w, hw, h2.trans h1⟩
  records q hq := k.records q (h.records q hq)
  gone q hs hu y hy := by
    by_cases ht : t.image q = none
    · obtain ⟨z, hz, hi⟩ := k.fewer y hy
      exact hi ▸ h.gone q hs ht z hz
    · exact k.gone q ht hu y hy
  kept f l hl hu := by
    have same := h.kept f l hl (mt (k.records _) hu)
    exact (k.kept f l ((congrArg FetchEntry.live same).trans hl) hu).trans same
  unsent := h.unsent.trans k.unsent

theorem Tried.trimmed (h : Tried s t) (hu : t.images.unsentClose = s.images.unsentClose) : Trimmed s t :=
  .of_records (fun q => by rw [h.record]) (fun y hy => ⟨y, h.fewer y hy, rfl⟩) h.kept hu

theorem tryNeeds_trimmed (s : State) : Trimmed s s.tryNeeds := (tryNeeds_tried s).trimmed (tryNeeds_work s).unsentClose_eq

theorem report_trimmed (s : State) : Trimmed s s.report := (report_tried s).trimmed (report_work s).unsentClose_eq

theorem unpin_trimmed (s : State) (i : ExtentIx) : Trimmed s (s.unpin i) := by
  rw [State.unpin]
  split
  · split
    · exact .trans (t := s.putPool (s.pool.unpin i)) (.of_images rfl) (report_trimmed _)
    · exact .of_images rfl
  · exact .refl s

theorem mem_needsWithout {ns : List Need} {y : Need} (h : y ∈ needsWithout ns n) : ∃ z ∈ ns, z.image = y.image := by
  rw [needsWithout] at h
  split at h
  · exact ⟨y, h, rfl⟩
  · next x hx =>
    split at h
    · rcases List.mem_append.mp h with h | h
      · exact ⟨y, (List.mem_filter.mp h).1, rfl⟩
      · exact ⟨x, List.mem_of_find?_eq_some hx, by rw [List.mem_singleton.mp h]⟩
    · obtain ⟨z, hz, rfl⟩ := List.mem_map.mp h
      exact ⟨z, hz, by split <;> rfl⟩

theorem leaveNeeds_trimmed (s : State) (n : NodeId) : Trimmed s (s.leaveNeeds n) :=
  .of_records (fun _ => Iff.rfl) (fun _ hy => mem_needsWithout hy) (fun _ _ _ => rfl) rfl

theorem endNotReady_trimmed (s : State) (n : NodeId) : Trimmed s (s.endNotReady n) := by
  have drops : Trimmed s (s.dropActive n) := by
    rw [State.dropActive]
    split
    · exact .refl s
    · exact .trans (t := s.clearActive n) (.of_images rfl) (unpin_trimmed _ _)
    · exact .trans (t := s.clearActive n) (.of_images rfl) (leaveNeeds_trimmed _ n)
    · exact .of_images rfl
  rw [State.endNotReady]
  split
  · rw [State.endRequest, status_eq]
    exact drops.trans (.of_images rfl)
  · exact .refl s

theorem abandonWrite_trimmed (s : State) (n : NodeId) : Trimmed s (s.abandonWrite n) := by
  rw [State.abandonWrite]
  split
  · exact .of_records (fun _ => Iff.rfl) (fun y hy => ⟨y, hy, rfl⟩) (fun _ _ _ => rfl) rfl
  · exact .refl s

theorem removing_trimmed {r : ImageIx} {x : ImageRec} (s : State) : Trimmed s (s.removing r x) := by
  obtain ⟨fetches, needs, -⟩ := closeRecord_fetches s x
  obtain ⟨-, -, -, records⟩ := closeRecord_still s x
  have dropped (fs : List FetchIx) (a : State) : (fs.foldl State.dropFetch a).images.needs = a.images.needs := by
    induction fs generalizing a with
    | nil => rfl
    | cons f fs ih =>
      refine (ih _).trans ?_
      rw [State.dropFetch]
      split <;> rfl
  have drops := foldl_dropFetch_work (s.closeRecord x) (s.fetchesOf r)
  have image (q : ImageIx) : (s.removing r x).image q = if q = r then none else s.image q := by
    refine (image_putImage _ r q none).trans ?_
    split
    · rfl
    · exact (drops.image_eq q).trans (congrArg (Tab.get · q) records)
  have fewer (y : Need) (hy : y ∈ (s.removing r x).images.needs) : y ∈ s.images.needs ∧ y.image ≠ r := by
    obtain ⟨hm, hr⟩ := List.mem_filter.mp (show y ∈ List.filter _ _ from hy)
    rw [dropped, needs] at hm
    exact ⟨hm, of_decide_eq_true hr⟩
  refine ⟨fun y hy => ⟨y, (fewer y hy).1, rfl⟩, fun q hq => ?_, fun q hq hn y hy => ?_, fun f l hl hi => ?_, ?_⟩
  · rw [image, hq, ite_self]
  · rw [image] at hn
    split at hn
    · next h => exact h ▸ (fewer y hy).2
    · exact absurd hn hq
  · refine (removing_swept s r x).kept f l hl fun h => hi ?_
    rw [image, if_pos h]
  · have unsent : (s.removing r x).images.unsentClose = (s.closeRecord x).images.unsentClose := drops.unsentClose_eq
    rw [unsent, State.closeRecord]
    split
    · exact .inl rfl
    · split
      · exact .inl rfl
      · show Risen _ (min (_ + 1) 65535)
        unfold Risen
        omega

theorem removeRecord_trimmed (s : State) (r : ImageIx) : Trimmed s (s.removeRecord r) := by
  cases h : s.image r with
  | none => rw [State.removeRecord, h]; exact .refl s
  | some x =>
    have removing : Trimmed s (s.removing r x) := removing_trimmed s
    rw [removeRecord_eq h]
    split
    · exact removing
    · exact .trans (t := (s.removing r x).putPool { (s.removing r x).pool with waiting := false }) (removing.trans (.of_images rfl))
        (tryNeeds_trimmed _)

theorem emptyMedium_trimmed (s : State) (n : NodeId) (lock changed : Bool) : Trimmed s (s.emptyMedium n lock changed) := by
  have leaves (a : State) (r : ImageIx) : Trimmed a (a.leaveRecord n r) := by
    rw [State.leaveRecord]
    split
    · exact .refl a
    · next x hx =>
      have masks : Trimmed a (a.putImage r (some { x with users := withoutNode x.users n })) := by
        refine .of_records (fun q => ?_) (fun y hy => ⟨y, hy, rfl⟩) (fun _ _ _ => rfl) rfl
        rw [image_putImage]
        split
        · next h => simp [h, hx]
        · exact Iff.rfl
      dsimp only
      split
      · exact masks.trans (removeRecord_trimmed _ r)
      · exact masks
  rw [State.emptyMedium]
  dsimp only
  split
  · exact .trans (t := s.putPort n ((s.port n).emptied lock changed)) (.of_images rfl) (leaves _ _)
  · exact .of_images rfl

theorem forceEjectLost_trimmed {m : MediumRef} (hm : (s.port n).medium.ref? = some m) : Trimmed s (s.forceEjectLost n) := by
  obtain ⟨ev, loses⟩ := forceEjectLost_event hm
  rw [loses]
  exact ((endNotReady_trimmed s n).trans (abandonWrite_trimmed _ n)).trans
    ((emptyMedium_trimmed _ n false true).trans (.of_images (State.raise_images _ _ _)))

/-! ## The records the media leave (R14, R145) -/

/-- The records after media were forced EMPTY in turn: a record is held by the nodes whose media refer to it, and one that all have
left is gone. -/
structure RecordsLeft (s t : State) : Prop where
  media : MediaOnly s t
  trimmed : Trimmed s t
  held : ∀ r x z, s.image r = some x → t.image r = some z →
    z = { x with users := z.users } ∧ (x.users ≠ 0 → z.users ≠ 0) ∧ ∀ k : NodeId, z.users.getLsbD k.val = true ↔ RefersTo t k r
  gone : ∀ r x, s.image r = some x → t.image r = none → x.users ≠ 0 ∧ (∀ k, ¬RefersTo t k r) ∧
    (x.isOpening = false → s.closeFrame x ∈ t.up.frames ∨ s.images.unsentClose < t.images.unsentClose ∨ t.images.unsentClose = 65535)
  unsent : (∀ r x, s.image r = some x → x.isOpening = false → t.image r ≠ none) → t.images.unsentClose = s.images.unsentClose

theorem RecordsLeft.refl (law : ImageLaw s) : RecordsLeft s s where
  media := .refl s
  trimmed := .refl s
  held r x z hx hz := by
    cases hx.symm.trans hz
    exact ⟨rfl, id, law.users hx⟩
  gone r x hx hn := by rw [hx] at hn; cases hn
  unsent _ := rfl

/-- The media that refer to a record after the medium of node `n` has left. -/
theorem MediumLeft.refers {r : ImageIx} {x : ImageRec} {p : MediaPort} {w : WriteEntry} {ev : Event} (h : MediumLeft n r x p w ev s t)
    (hp : p.medium = .empty) (k : NodeId) (q : ImageIx) : RefersTo t k q ↔ RefersTo s k q ∧ k ≠ n := by
  have port := port_put h.ports k
  by_cases hk : k = n
  · rw [if_pos hk] at port
    refine iff_of_false (fun ⟨m, hm, _⟩ => ?_) fun hx => hx.2 hk
    rw [port, hp] at hm
    cases hm
  · rw [if_neg hk] at port
    rw [RefersTo.congr (congrArg MediaPort.medium port)]
    exact ⟨fun hx => ⟨hx, hk⟩, And.left⟩

theorem RecordsLeft.leaves (h : RecordsLeft s t) (law : ImageLaw s) {m : MediumRef} {z : ImageRec} {p : MediaPort} {w : WriteEntry}
    {ev : Event} (hm : (t.port n).medium.ref? = some m) (hs : t.port n = s.port n) (hz : t.image m.image = some z)
    (hl : MediumLeft n m.image z p w ev t u) (hp : p.medium = .empty) (trimmed : Trimmed t u) : RecordsLeft s u := by
  have only (q : ImageIx) (hq : RefersTo t n q) : q = m.image := by
    obtain ⟨m', hm', hi⟩ := hq
    cases hm.symm.trans hm'
    exact hi.symm
  have su : t.su = s.su := h.media.2.2.2.1
  obtain ⟨x, hx⟩ : ∃ x, s.image m.image = some x := Option.ne_none_iff_exists'.mp fun hn => by
    rw [h.trimmed.records _ hn] at hz
    cases hz
  obtain ⟨same, -, users⟩ := h.held _ x z hx hz
  have opening : z.isOpening = x.isOpening := by rw [same]; rfl
  have frame : t.closeFrame z = s.closeFrame x := by
    rw [closeFrame_congr su, same]
    rfl
  refine ⟨h.media.trans hl.media, h.trimmed.trans trimmed, fun r y v hy hv => ?_, fun r y hy hn => ?_, fun all => ?_⟩
  · by_cases hr : r = m.image
    · subst hr
      cases hx.symm.trans hy
      rw [hl.record] at hv
      split at hv
      · cases hv
      · next hw =>
        cases hv
        refine ⟨by rw [same], fun _ => hw, fun k => ?_⟩
        rw [hl.refers hp, getLsbD_withoutNode, Bool.and_eq_true, users, decide_eq_true_iff]
    · rw [hl.others r hr] at hv
      obtain ⟨h1, h2, h3⟩ := h.held r y v hy hv
      refine ⟨h1, h2, fun k => (h3 k).trans ?_⟩
      rw [hl.refers hp]
      exact ⟨fun hk => ⟨hk, fun e => hr (only r (e ▸ hk))⟩, And.left⟩
  · by_cases ht : t.image r = none
    · obtain ⟨h1, h2, h3⟩ := h.gone r y hy ht
      refine ⟨h1, fun k hk => h2 k ((hl.refers hp k r).mp hk).1, fun ho => ?_⟩
      have risen := trimmed.unsent
      rcases h3 ho with h3 | h3
      · exact .inl (hl.media.frames h3)
      · unfold Risen at risen
        omega
    · have hr : r = m.image := by
        by_contra hr
        rw [hl.others r hr] at hn
        exact ht hn
      subst hr
      cases hx.symm.trans hy
      have last : withoutNode z.users n = 0 := by
        rw [hl.record] at hn
        split at hn
        · assumption
        · cases hn
      refine ⟨fun h0 => ?_, fun k hk => ?_, fun ho => ?_⟩
      · have bit : x.users.getLsbD n.val = true := (law.users hx n).mpr ⟨m, hs ▸ hm, rfl⟩
        rw [h0] at bit
        simp at bit
      · rw [hl.refers hp, ← users, ← decide_eq_true_iff (p := k ≠ n), ← Bool.and_eq_true, ← getLsbD_withoutNode, last] at hk
        simp at hk
      · have closed := hl.closed last
        have risen := h.trimmed.unsent
        rw [Closed, if_neg (by rw [opening, ho]; nofun), frame] at closed
        refine closed.imp_right fun hc => ?_
        unfold Risen at risen
        omega
  · have stands := h.unsent fun r y hy ho hn => all r y hy ho (trimmed.records r hn)
    refine Eq.trans ?_ stands
    by_cases last : withoutNode z.users n = 0
    · have closed := hl.closed last
      have open_ : x.isOpening = true := by
        by_contra ho
        refine all m.image x hx (Bool.eq_false_iff.mpr ho) ?_
        rw [hl.record, if_pos last]
      rwa [Closed, if_pos (opening.trans open_)] at closed
    · exact hl.stands last

/-- The image of the medium of node `n`, as SERVER_LOST names it. -/
def State.mediumImage (s : State) (n : NodeId) : BitVec 32 :=
  ((((s.port n).medium.ref?).bind (fun m => s.image m.image)).map ImageRec.image).getD 0

theorem RecordsLeft.unserved_eq {gone : Bool} (h : RecordsLeft s t) (hp : t.port n = s.port n) :
    t.unserved j gone n = s.unserved j gone n := by
  have served : t.servedBy j n = s.servedBy j n := by
    rw [Bool.eq_iff_iff, servedBy_iff, servedBy_iff, hp]
    refine exists_congr fun m => ?_
    constructor
    · rintro ⟨z, hm, hz, hj⟩
      obtain ⟨x, hx⟩ : ∃ x, s.image m.image = some x := Option.ne_none_iff_exists'.mp fun hn => by
        rw [h.trimmed.records _ hn] at hz
        cases hz
      have same := (h.held _ x z hx hz).1
      exact ⟨x, hm, hx, by rw [same] at hj; exact hj⟩
    · rintro ⟨x, hm, hx, hj⟩
      cases hz : t.image m.image with
      | none => exact absurd ⟨m, hp ▸ hm, rfl⟩ ((h.gone _ x hx hz).2.1 n)
      | some z =>
        have same := (h.held _ x z hx hz).1
        exact ⟨z, hm, rfl, by rw [same]; exact hj⟩
  rw [State.unserved, State.unserved, served, State.mayServe, State.mayServe, State.station, State.station, h.media.2.2.2.1]

/-- The media of all nodes tested in turn (R14). -/
theorem foldl_reviewMedium {gone : Bool} {ns : List NodeId} (hn : ns.Nodup) (law : ImageLaw s) :
    NodesTurned ns (fun n => if s.unserved j gone n then (s.port n).forced (s.outstanding n) else s.port n)
      (fun n => if s.unserved j gone n then { s.images.writes.get n with live := none } else s.images.writes.get n)
      (fun n => if s.unserved j gone n then some (.serverLost j (s.mediumImage n)) else none) s
      (ns.foldl (State.reviewMedium j gone) s) ∧ RecordsLeft s (ns.foldl (State.reviewMedium j gone) s) := by
  refine foldl_turns (Inv := RecordsLeft s) hn (fun a n _ hp hw inv => ?_) (.refl law)
  have unserved := inv.unserved_eq (j := j) (gone := gone) hp
  cases hu : s.unserved j gone n with
  | false =>
    rw [reviewMedium_served (unserved.trans hu)]
    simp only [Bool.false_eq_true, if_false]
    refine ⟨⟨?_, ?_, rfl⟩, inv⟩
    · rw [← hp]
      exact (Tab.put_get _ _).symm
    · rw [← hw]
      exact (Tab.put_get _ _).symm
  | true =>
    rw [reviewMedium_unserved (unserved.trans hu)]
    simp only [if_true]
    obtain ⟨m, z, hm, hz, hj⟩ := servedBy_iff.mp (Bool.and_eq_true_iff.mp (unserved.trans hu)).1
    have left := forceEjectLost_left hm hz
    have out : a.outstanding n = s.outstanding n := by rw [State.outstanding, State.outstanding, hw]
    have image : z.image = s.mediumImage n := by
      obtain ⟨x, hx⟩ : ∃ x, s.image m.image = some x := Option.ne_none_iff_exists'.mp fun hn => by
        rw [inv.trimmed.records _ hn] at hz
        cases hz
      rw [State.mediumImage, ← hp, hm, Option.bind_some, hx, (inv.held _ x z hx hz).1]
      rfl
    rw [hj, image, hp, hw, out] at left
    exact ⟨left.turn, inv.leaves law hm hp hz left rfl (forceEjectLost_trimmed hm)⟩

/-! ## Stale marks for a server (R14, R170) -/

/-- An extent of server `j` stood before, or is FILLING and stale. -/
structure ServerMarked (j : StationIx) (s t : State) : Prop where
  record : ∀ q, t.image q = s.image q
  trimmed : Trimmed s t
  stood : ∀ i e, t.extent i = some e → e.key.server = j → s.extent i = some e ∨ (e.valid = false ∧ e.stale = true)

theorem ServerMarked.refl (j : StationIx) (s : State) : ServerMarked j s s := ⟨fun _ => rfl, .refl s, fun _ _ h _ => .inl h⟩

theorem ServerMarked.trans (h : ServerMarked j s t) (k : ServerMarked j t u) : ServerMarked j s u where
  record q := (k.record q).trans (h.record q)
  trimmed := h.trimmed.trans k.trimmed
  stood i e he hj := (k.stood i e he hj).elim (h.stood i e · hj) .inr

/-- No record is of server `j`. -/
def State.unserving (s : State) (j : StationIx) : Prop := ∀ q x, s.image q = some x → x.server ≠ j

theorem freeExtent_marked (h : s.unserving j) (i : ExtentIx) : ServerMarked j s (s.freeExtent i) ∧
    ∀ e, (s.freeExtent i).extent i = some e → e.key.server ≠ j := by
  have tried := report_tried (s.putPool (s.pool.free i))
  have extent (k : ExtentIx) : (s.putPool (s.pool.free i)).extent k = if k = i then none else s.extent k := extent_free _ _ _
  have placed (k : ExtentIx) (e : Extent) (he : (s.freeExtent i).extent k = some e) (hj : e.key.server = j) :
      (s.putPool (s.pool.free i)).extent k = some e := (tried.placed k e he).resolve_right fun ⟨q, x, hx, hs⟩ => h q x hx (hs.symm.trans hj)
  refine ⟨⟨tried.record, .trans (t := s.putPool (s.pool.free i)) (.of_images rfl) (report_trimmed _), fun k e he hj => ?_⟩, fun e he hj => ?_⟩
  · have := placed k e he hj
    rw [extent] at this
    split at this
    · cases this
    · exact .inl this
  · have := placed i e he hj
    rw [extent, if_pos rfl] at this
    cases this

theorem markStaleIf_marked (h : s.unserving j) (i : ExtentIx) : ServerMarked j s (s.markStaleIf (fun k => k.server == j) i) ∧
    ∀ e, (s.markStaleIf (fun k => k.server == j) i).extent i = some e → e.key.server = j → e.valid = false ∧ e.stale = true := by
  cases hx : s.pool.extents.get i with
  | none =>
    have same : s.markStaleIf (fun k => k.server == j) i = s := by rw [State.markStaleIf, hx]
    rw [same]
    exact ⟨.refl j s, fun e he => by rw [State.extent, hx] at he; cases he⟩
  | some x =>
    by_cases hp : x.key.server = j
    · cases hv : x.valid with
      | true =>
        have frees : s.markStaleIf (fun k => k.server == j) i = s.freeExtent i := by
          simp only [State.markStaleIf, State.markStale, hx, hp, hv, beq_self_eq_true, if_true]
        rw [frees]
        obtain ⟨h1, h2⟩ := freeExtent_marked h i
        exact ⟨h1, fun e he hj => absurd hj (h2 e he)⟩
      | false =>
        have flags : s.markStaleIf (fun k => k.server == j) i = s.putPool (s.pool.putExtent i { x with stale := true }) := by
          simp only [State.markStaleIf, State.markStale, hx, hp, hv, beq_self_eq_true, if_true, Bool.false_eq_true, if_false]
        have extent (k : ExtentIx) : (s.putPool (s.pool.putExtent i { x with stale := true })).extent k =
            if k = i then some { x with stale := true } else s.extent k := Tab.get_put _ _ _ _
        rw [flags]
        refine ⟨⟨fun _ => rfl, .of_images rfl, fun k e he _ => ?_⟩, fun e he _ => ?_⟩
        · rw [extent] at he
          split at he
          · cases he
            exact .inr ⟨hv, rfl⟩
          · exact .inl he
        · rw [extent, if_pos rfl] at he
          cases he
          exact ⟨hv, rfl⟩
    · have same : s.markStaleIf (fun k => k.server == j) i = s := by
        simp only [State.markStaleIf, hx, beq_eq_false_iff_ne.mpr hp, Bool.false_eq_true, if_false]
      rw [same]
      refine ⟨.refl j s, fun e he hj => ?_⟩
      rw [State.extent, hx] at he
      cases he
      exact absurd hj hp

theorem markStaleIf_trimmed (p : ExtentKey → Bool) (s : State) (i : ExtentIx) : Trimmed s (s.markStaleIf p i) := by
  rw [State.markStaleIf]
  split
  · split
    · rw [State.markStale]
      split
      · split
        · exact .trans (t := s.putPool (s.pool.free i)) (.of_images rfl) (report_trimmed _)
        · exact .of_images rfl
      · exact .refl s
    · exact .refl s
  · exact .refl s

theorem staleWhere_trimmed (p : ExtentKey → Bool) (s : State) : Trimmed s (s.staleWhere p) :=
  foldl_keeps (R := Trimmed) .refl .trans _ (fun a i _ => markStaleIf_trimmed p a i) s

/-- After the marks for a server without records, what is left of its extents is FILLING and stale. -/
theorem staleWhere_marks (h : s.unserving j) {i : ExtentIx} {e : Extent} (he : (s.staleWhere (fun k => k.server == j)).extent i = some e)
    (hj : e.key.server = j) : e.valid = false ∧ e.stale = true := by
  have fold (is : List ExtentIx) (a : State) (ha : a.unserving j) :
      ServerMarked j a (is.foldl (State.markStaleIf fun k => k.server == j) a) ∧ ∀ i ∈ is, ∀ e,
        (is.foldl (State.markStaleIf fun k => k.server == j) a).extent i = some e → e.key.server = j → e.valid = false ∧ e.stale = true := by
    induction is generalizing a with
    | nil => exact ⟨.refl j a, nofun⟩
    | cons i is ih =>
      obtain ⟨h1, h2⟩ := markStaleIf_marked ha i
      obtain ⟨h3, h4⟩ := ih _ fun q x hx => ha q x ((h1.record q).symm.trans hx)
      refine ⟨h1.trans h3, fun k hk e he hj => ?_⟩
      rcases List.mem_cons.mp hk with rfl | hk
      · exact (h3.stood k e he hj).elim (h2 e · hj) id
      · exact h4 k hk e he hj
  obtain ⟨h1, h2⟩ := fold ((s.pool.used.filter (fun x => x.2.key.server == j)).map Prod.fst) s h
  refine (h1.stood i e he hj).elim (fun hs => h2 i ?_ e he hj) id
  exact List.mem_map.mpr ⟨(i, e), List.mem_filter.mpr ⟨mem_used.mpr hs, beq_iff_eq.mpr hj⟩, rfl⟩

end Sys2Proof.Machine
end

section
/-! PROOFS. The obligation about the STATION write (chapters 1, 3, 7, 8 and 9). -/
namespace Sys2Proof.Machine

-- Side by side, the proofs of this text would need more thread stacks than the check's memory limit holds.
set_option Elab.async false

variable {s e t u : State} {n : NodeId} {j : StationIx}

/-! ## The order of the checks (R11) -/

theorem operators_one (h : (s.station j).isOperator = true) : s.operators = 1 ↔ ∀ k, k ≠ j → (s.station k).isOperator = false := by
  have nodup : ((indices 32).filter fun i => (s.station i).isOperator).Nodup := List.Nodup.filter _ (List.nodup_finRange 32)
  have mem (k : StationIx) : k ∈ (indices 32).filter (fun i => (s.station i).isOperator) ↔ (s.station k).isOperator = true := by
    rw [List.mem_filter]
    exact and_iff_right (mem_indices k)
  rw [State.operators, List.length_eq_one_iff]
  constructor
  · rintro ⟨i, hi⟩ k hk
    refine Bool.eq_false_iff.mpr fun ho => hk ?_
    have hk := (mem k).mpr ho
    have hj := (mem j).mpr h
    rw [hi, List.mem_singleton] at hk hj
    rw [hk, hj]
  · intro others
    refine ⟨j, List.perm_singleton.mp ((List.perm_ext_iff_of_nodup nodup (List.nodup_singleton j)).mpr fun k => ?_)⟩
    rw [mem, List.mem_singleton]
    constructor
    · intro hk
      by_contra hj
      rw [others k hj] at hk
      cases hk
    · rintro rfl
      exact h

theorem lastOperator_iff (hc : s.su.commissioning = .commissioned) {st : Station} : s.lastOperator j st = true ↔
    (s.station j).isOperator = true ∧ st.isOperator = false ∧ ∀ k, k ≠ j → (s.station k).isOperator = false := by
  simp only [State.lastOperator, hc, beq_self_eq_true, Bool.true_and, Bool.and_eq_true, Bool.not_eq_true', beq_iff_eq, and_assoc]
  exact and_congr_right fun hj => and_congr_right fun _ => operators_one hj

/-! ## The blocks after a replacement (R12 to R14) -/

/-- Whether the entry of station `j` no longer names its station. -/
def State.renamed (s : State) (j : StationIx) (st : Station) : Bool := decide ((s.station j).addr? ≠ st.addr?)

/-- The state once the media have been tested, before the stale marks. -/
def State.tested (s : State) (j : StationIx) (st : Station) : State :=
  allNodes.foldl (State.reviewMedium j (s.renamed j st)) (s.reviewed j st)

theorem replaceStation_eq (s : State) (j : StationIx) (st : Station) : s.replaceStation j st =
    if s.renamed j st then (s.tested j st).staleWhere (fun k => k.server == j) else s.tested j st := by
  rw [State.replaceStation]
  dsimp only
  by_cases h : (s.station j).addr? ≠ st.addr?
  · rw [if_pos h, if_pos (show s.renamed j st = true from decide_eq_true h)]
    rfl
  · rw [if_neg h, if_neg (show ¬s.renamed j st = true by rw [State.renamed, decide_eq_true_iff]; exact h)]
    rfl

/-- The stale marks are the pool's work. -/
theorem replaceStation_work (s : State) (j : StationIx) (st : Station) : PoolWork (s.tested j st) (s.replaceStation j st) := by
  rw [replaceStation_eq]
  split
  · exact staleWhere_work _ _
  · exact .refl _

theorem replaceStation_trimmed (s : State) (j : StationIx) (st : Station) : Trimmed (s.tested j st) (s.replaceStation j st) := by
  rw [replaceStation_eq]
  split
  · exact staleWhere_trimmed _ _
  · exact .refl _

/-! ## No replay begins (R58) -/

theorem unreplayed_reclaiming (n : NodeId) : Reclaiming (Unreplayed n) where
  same := .of_eq
  trans := .trans
  reclaim a m _ := by
    have drops : Unreplayed n a (a.putStream m (a.streams.get m).dropOldest) := .putStream fun h => by
      rw [Stream.dropOldest, adjustReplay_none (x := { a.streams.get m with
        chain := (a.streams.get m).chain.drop 1, oldest := (a.streams.get m).oldest + 256 }) h]
      exact h
    exact drops

section
variable {R : State → State → Prop} (hR : Reclaiming R)
include hR

theorem Reclaiming.reviewMedium (s : State) (j : StationIx) (gone : Bool) (n : NodeId) : R s (State.reviewMedium j gone s n) := by
  cases hu : s.unserved j gone n with
  | false =>
    rw [reviewMedium_served hu]
    exact hR.refl s
  | true =>
    obtain ⟨m, x, hm, -, -⟩ := servedBy_iff.mp (Bool.and_eq_true_iff.mp hu).1
    obtain ⟨ev, loses⟩ := forceEjectLost_event hm
    rw [reviewMedium_unserved hu, loses]
    exact hR.trans (hR.trans (hR.trans (hR.endNotReady s n) (hR.abandonWrite _ n)) (hR.emptyMedium _ n false true))
      (hR.same (State.raise_streams _ _ _))

theorem Reclaiming.staleWhere (s : State) (p : ExtentKey → Bool) : R s (s.staleWhere p) := by
  refine foldl_keeps (R := R) hR.refl hR.trans _ (fun a i _ => ?_) s
  rw [State.markStaleIf]
  split
  · split
    · rw [State.markStale]
      split
      · split
        · exact hR.trans (b := a.putPool (a.pool.free i)) (hR.same rfl) (hR.report _)
        · exact hR.same rfl
      · exact hR.refl a
    · exact hR.refl a
  · exact hR.refl a

theorem Reclaiming.replaceStation (s : State) (j : StationIx) (st : Station) : R (s.reviewed j st) (s.replaceStation j st) := by
  have tests : R (s.reviewed j st) (s.tested j st) :=
    foldl_keeps (R := R) hR.refl hR.trans _ (fun a n _ => hR.reviewMedium a j _ n) _
  rw [replaceStation_eq]
  split
  · exact hR.trans tests (hR.staleWhere _ _)
  · exact tests

end

/-! ## The masks of the records (R145) -/

/-- A record's mask without the nodes that `out` takes from it. -/
def maskWithout (m : BitVec 8) (out : NodeId → Bool) : BitVec 8 :=
  (allNodes.filter out).foldl (fun u n => u &&& ~~~(1#8 <<< n.val)) m

theorem getLsbD_maskWithout (m : BitVec 8) (out : NodeId → Bool) (k : NodeId) :
    (maskWithout m out).getLsbD k.val = (m.getLsbD k.val && !out k) := by
  have fold (ns : List NodeId) (m : BitVec 8) : (ns.foldl (fun u n => u &&& ~~~(1#8 <<< n.val)) m).getLsbD k.val =
      (m.getLsbD k.val && decide (k ∉ ns)) := by
    induction ns generalizing m with
    | nil => simp
    | cons n ns ih =>
      rw [List.foldl_cons, ih, show m &&& ~~~(1#8 <<< n.val) = withoutNode m n from rfl, getLsbD_withoutNode, Bool.and_assoc,
        ← Bool.decide_and]
      simp only [List.mem_cons, not_or]
  rw [maskWithout, fold]
  simp

/-! ## The streams after a replacement (R13) -/

/-- Node `n`'s stream after the entry of station `j` is replaced. -/
def State.streamReviewed (s : State) (j : StationIx) (st : Station) (n : NodeId) : Stream :=
  (s.streams.get n).reviewed j (s.renamed j st || !st.holds (s.su.tenants.get n) n .watch) (st.holds (s.su.tenants.get n) n .typing)

/-- The state with the entry of station `j` replaced, before any consequence. -/
def State.entered (s : State) (j : StationIx) (st : Station) : State := s.putSu { s.su with stations := s.su.stations.put j st }

theorem entered_holds (s : State) (j : StationIx) (st : Station) (n : NodeId) (x : Right) :
    (s.entered j st).holds j n x = st.holds (s.su.tenants.get n) n x := by
  rw [State.holds, State.entered, station_putStation, if_pos rfl]
  rfl

theorem reviewed_settles (s : State) (j : StationIx) (st : Station) :
    Settles (allNodes.foldl (fun a n => a.putStream n (s.streamReviewed j st n)) (s.entered j st)) (s.reviewed j st) :=
  foldl_reviewAttachment (t := s.entered j st) (by decide) (.refl _) fun n _ => by
    rw [entered_holds, entered_holds]
    rfl

theorem foldl_putStream (R : NodeId → Stream) (ns : List NodeId) (e : State) (n : NodeId) :
    (ns.foldl (fun a n => a.putStream n (R n)) e).streams.get n = if n ∈ ns then R n else e.streams.get n := by
  induction ns generalizing e with
  | nil => rfl
  | cons m ns ih =>
    rw [List.foldl_cons, ih, State.putStream_streams, Tab.get_put]
    by_cases hn : n ∈ ns
    · rw [if_pos hn, if_pos (List.mem_cons_of_mem _ hn)]
    · by_cases hm : n = m
      · subst hm
        rw [if_neg hn, if_pos rfl, if_pos List.mem_cons_self]
      · rw [if_neg hn, if_neg hm, if_neg (by simp [hn, hm])]

theorem foldl_putStream_promise (R : NodeId → Stream) (ns : List NodeId) (e : State) :
    ns.foldl (fun a n => a.putStream n (R n)) e.promise = (ns.foldl (fun a n => a.putStream n (R n)) e).promise := by
  induction ns generalizing e with
  | nil => rfl
  | cons n ns ih => exact ih (e.putStream n (R n))

theorem reviewed_stream (s : State) (j : StationIx) (st : Station) (n : NodeId) :
    StreamSettled (s.streamReviewed j st n) ((s.reviewed j st).streams.get n) := by
  have := (reviewed_settles s j st).delivers.streams n
  rwa [foldl_putStream, if_pos (mem_allNodes n)] at this

theorem reviewed_unreplayed {st : Station} (ha : ((s.streams.get n).att j).isSome)
    (hx : (s.renamed j st || !st.holds (s.su.tenants.get n) n .watch) = true) {r : Replay}
    (hr : (s.streams.get n).replay = some r) (hq : r.requester = j) : ((s.reviewed j st).streams.get n).replay = none :=
  foldl_reviewAttachment_replay (by decide) (s.entered j st) (mem_allNodes n) ha (by rw [entered_holds]; exact hx) hr hq

/-! ## The media after a replacement (R14) -/

/-- Node `n` loses its server when the entry of station `j` is replaced. -/
def State.loses (s : State) (j : StationIx) (st : Station) (n : NodeId) : Bool :=
  s.servedBy j n && (s.renamed j st || !st.mayServe (s.su.tenants.get n))

/-- What the re-examination of attachments leaves of the rest. -/
structure Reviewed (j : StationIx) (st : Station) (s b : State) : Prop where
  su : b.su = { s.su with stations := s.su.stations.put j st }
  now : b.now = s.now
  ports : b.ports = s.ports
  images : b.images = s.images
  notices : b.notices = s.notices

theorem reviewed_rest (s : State) (j : StationIx) (st : Station) : Reviewed j st s (s.reviewed j st) := by
  obtain ⟨fs, x, h⟩ := reviewed_kept s j st
  rw [h]
  exact ⟨rfl, rfl, rfl, rfl, rfl⟩

section
variable {st : Station} {b : State}

theorem Reviewed.unserved (h : Reviewed j st s b) (n : NodeId) : b.unserved j (s.renamed j st) n = s.loses j st n := by
  have served : b.servedBy j n = s.servedBy j n := by
    simp only [State.servedBy, State.port, State.image, h.ports, h.images]
  have serve : b.mayServe j n = st.mayServe (s.su.tenants.get n) := by
    rw [State.mayServe, State.station, h.su, Tab.get_put_same]
  rw [State.unserved, served, serve, State.loses]

theorem Reviewed.law (h : Reviewed j st s b) (law : ImageLaw s) : ImageLaw b := by
  unfold ImageLaw State.port State.image at law ⊢
  rwa [h.ports, h.images]

end

theorem tested_media (s : State) (j : StationIx) (st : Station) : MediaTested j (s.renamed j st) (s.reviewed j st) (s.tested j st) :=
  foldl_reviewMedium_tested _ _ _ _

theorem tested_turned {st : Station} (law : ImageLaw s) :
    NodesTurned allNodes (fun n => if s.loses j st n then (s.port n).forced (s.outstanding n) else s.port n)
      (fun n => if s.loses j st n then { s.images.writes.get n with live := none } else s.images.writes.get n)
      (fun n => if s.loses j st n then some (.serverLost j (s.mediumImage n)) else none) (s.reviewed j st) (s.tested j st) ∧
      RecordsLeft (s.reviewed j st) (s.tested j st) := by
  have rest := reviewed_rest s j st
  have turned := foldl_reviewMedium (j := j) (gone := s.renamed j st) (ns := allNodes) (by decide) (rest.law law)
  have port (n : NodeId) : (s.reviewed j st).port n = s.port n := congrArg (Tab.get · n) rest.ports
  have image (n : NodeId) : (s.reviewed j st).mediumImage n = s.mediumImage n := by
    simp only [State.mediumImage, State.port, State.image, rest.ports, rest.images]
  have out (n : NodeId) : (s.reviewed j st).outstanding n = s.outstanding n := by
    rw [State.outstanding, State.outstanding, rest.images]
  simp only [rest.unserved, port, image, out, rest.images] at turned
  exact turned

theorem tested_refers {st : Station} (law : ImageLaw s) (k : NodeId) (r : ImageIx) :
    RefersTo (s.tested j st) k r ↔ RefersTo s k r ∧ s.loses j st k = false := by
  have port := (tested_turned (j := j) (st := st) law).1.ports k
  rw [if_pos (mem_allNodes k)] at port
  cases hl : s.loses j st k with
  | true =>
    rw [hl, if_pos rfl] at port
    refine iff_of_false (fun ⟨m, hm, _⟩ => ?_) fun h => nomatch h.2
    rw [port] at hm
    cases hm
  | false =>
    rw [hl, if_neg (by nofun)] at port
    rw [RefersTo.congr (congrArg MediaPort.medium port)]
    exact (and_iff_left rfl).symm

/-- The record the media of a replaced station leave (R145). -/
theorem tested_record {st : Station} (law : ImageLaw s) {r : ImageIx} {x : ImageRec} (hx : s.image r = some x) :
    (s.tested j st).image r = if x.users ≠ 0 ∧ maskWithout x.users (s.loses j st) = 0 then none
      else some { x with users := maskWithout x.users (s.loses j st) } := by
  have left := (tested_turned (j := j) (st := st) law).2
  have hb : (s.reviewed j st).image r = some x := by
    rw [State.image, (reviewed_rest s j st).images]
    exact hx
  have bit (k : NodeId) : (maskWithout x.users (s.loses j st)).getLsbD k.val = true ↔ RefersTo (s.tested j st) k r := by
    rw [getLsbD_maskWithout, tested_refers law, ← law.users hx, Bool.and_eq_true, Bool.not_eq_true']
  cases hz : (s.tested j st).image r with
  | none =>
    obtain ⟨used, empty, -⟩ := left.gone r x hb hz
    refine (if_pos ⟨used, users_eq_zero_iff.mpr fun k => Bool.eq_false_iff.mpr fun hk => empty k ((bit k).mp hk)⟩).symm
  | some z =>
    obtain ⟨same, used, users⟩ := left.held r x z hb hz
    have mask : z.users = maskWithout x.users (s.loses j st) := by
      refine BitVec.eq_of_getLsbD_eq fun i hi => ?_
      rw [Bool.eq_iff_iff]
      exact (users ⟨i, hi⟩).trans (bit ⟨i, hi⟩).symm
    rw [if_neg fun h => used h.1 (mask.trans h.2), ← mask, ← same]

/-! ## The end of the step -/

theorem writeStation_eq (hs : s.saving = false) (b : List Byte) : s.writeStation b =
    (decodeStation s.up.addr b).elim (s.refuse .badRequest) fun (j, st) =>
      if s.addressTaken j st then s.refuse .inUse
      else if s.lastOperator j st then s.refuse .wrongState
      else ⟨s.replaceStation j st, .ok, encodeStation j st⟩ := by
  rw [State.writeStation, if_neg (not_saving hs)]
  cases decodeStation s.up.addr b <;> rfl

theorem replaceStation_media (s : State) (j : StationIx) (st : Station) : MediaOnly (s.reviewed j st) (s.replaceStation j st) :=
  (tested_media s j st).media.trans (replaceStation_work s j st).mediaOnly

theorem replaceStation_su (s : State) (j : StationIx) (st : Station) : (s.replaceStation j st).su = (s.entered j st).su :=
  (replaceStation_blocks s j st).rest_eq.1

theorem foldl_reviewMedium_quiet {gone : Bool} (h : ∀ n, s.unserved j gone n = false) (ns : List NodeId) :
    ns.foldl (State.reviewMedium j gone) s = s := by
  induction ns with
  | nil => rfl
  | cons n ns ih => rw [List.foldl_cons, reviewMedium_served (h n), ih]

theorem replaceStation_quiet {st : Station} (hg : s.renamed j st = false) (hu : ∀ n, s.loses j st n = false) :
    s.replaceStation j st = s.reviewed j st := by
  rw [replaceStation_eq, if_neg (by rw [hg]; nofun)]
  exact foldl_reviewMedium_quiet (fun n => ((reviewed_rest s j st).unserved n).trans (hu n)) allNodes

/-- All media of a station that is gone leave their records (R14). -/
theorem tested_unserving {st : Station} (hg : s.renamed j st = true) (law : ImageLaw s)
    (hr : ∀ r x, s.image r = some x → x.server = j → x.users ≠ 0) : (s.tested j st).unserving j := by
  intro r z hz hj
  cases hx : s.image r with
  | none =>
    have before : (s.reviewed j st).image r = none := by
      rw [State.image, (reviewed_rest s j st).images]
      exact hx
    rw [(tested_turned (j := j) (st := st) law).2.trimmed.records r before] at hz
    cases hz
  | some x =>
    rw [tested_record law hx] at hz
    split at hz
    · cases hz
    · next hend =>
      cases hz
      refine hend ⟨hr r x hx hj, users_eq_zero_iff.mpr fun k => ?_⟩
      rw [getLsbD_maskWithout]
      cases hb : x.users.getLsbD k.val with
      | false => rfl
      | true =>
        obtain ⟨m, hm, hi⟩ := (law.users hx k).mp hb
        have served : s.servedBy j k = true := servedBy_iff.mpr ⟨m, x, hm, hi.symm ▸ hx, hj⟩
        rw [State.loses, served, hg]
        rfl

theorem replaceStation_marks {st : Station} (hg : s.renamed j st = true) (law : ImageLaw s)
    (hr : ∀ r x, s.image r = some x → x.server = j → x.users ≠ 0) {q : ExtentIx} {y : Extent}
    (hy : (s.replaceStation j st).extent q = some y) (hj : y.key.server = j) : y.valid = false ∧ y.stale = true := by
  rw [replaceStation_eq, if_pos hg] at hy
  exact staleWhere_marks (tested_unserving hg law hr) hy hj

section
variable {st : Station} {hd : Head} {body : List Byte} (hs : Settles ((s.promise.replaceStation j st).answer hd 0x02 .ok body) t)
include hs

/-- What a replaced entry leaves of the blocks whatever the records. -/
theorem replaced_blocks :
    t.su = { s.su with stations := s.su.stations.put j st } ∧ UplinkSettled (s.withAnswer hd 0x02 .ok body) t ∧
      t.lines = s.lines ∧ t.matcher = s.matcher ∧ t.power = s.power ∧ t.watches = s.watches ∧ t.lease = s.lease ∧
      t.loader = s.loader ∧ t.config = s.config ∧ t.now = s.now ∧ t.porn = s.porn ∧ t.straps = s.straps ∧
      t.blanks = s.blanks ∧ t.pending = s.pending ∧ t.images.late = s.images.late ∧ t.images.foreign = s.images.foreign ∧
      t.images.malformed = s.images.malformed ∧ t.images.timeout = s.images.timeout := by
  obtain ⟨su, lines, matcher, power, watches, lease, loader, config, now, porn, straps, blanks, pending⟩ :=
    (replaceStation_blocks s.promise j st).rest_eq
  obtain ⟨-, -, -, -, -, -, -, -, -, -, -, -, -, -, -, late, foreign, malformed, timeout⟩ := replaceStation_media s.promise j st
  have images := (reviewed_rest s.promise j st).images
  rw [images] at late foreign malformed timeout
  have uplink := (replaceStation_uplink s.promise j st).settled.answer (e := s) hd 0x02 .ok body
  obtain ⟨-, -, late', foreign', malformed', -, timeout'⟩ := hs.delivers.images
  obtain ⟨v, hv⟩ : ∃ v, s.promise.replaceStation j st = v := ⟨_, rfl⟩
  rw [hv] at hs su lines matcher power watches lease loader config now porn straps blanks pending
  rw [hv] at late foreign malformed timeout uplink late' foreign' malformed' timeout'
  have still : t.still = v.still := hs.delivers.still_eq
  exact ⟨(congrArg State.su still :).trans su, uplink.trans hs.delivers.uplink, (congrArg State.lines still :).trans lines,
    (congrArg State.matcher still :).trans matcher, (congrArg State.power still :).trans power,
    (congrArg State.watches still :).trans watches, (congrArg State.lease still :).trans lease,
    (congrArg State.loader still :).trans loader, (congrArg State.config still :).trans config,
    (congrArg State.now still :).trans now, (congrArg State.porn still :).trans porn, (congrArg State.straps still :).trans straps,
    (congrArg State.blanks still :).trans blanks, (congrArg State.pending still :).trans pending,
    late'.trans late, foreign'.trans foreign, malformed'.trans malformed, timeout'.trans timeout⟩

/-- The events of the lost servers (R138). -/
theorem replaced_notices (law : ImageLaw s) : NoticesSettled
    (allNodes.foldl (fun a n => if s.loses j st n then a.raise (some n) (.serverLost j (s.mediumImage n)) else a) (s.entered j st)) t := by
  obtain ⟨E, hE⟩ : ∃ E : NodeId → Option Event,
      (fun n => if s.promise.loses j st n then some (.serverLost j (s.promise.mediumImage n)) else none) = E := ⟨_, rfl⟩
  have form : (fun (a : State) (n : NodeId) => if s.loses j st n then a.raise (some n) (.serverLost j (s.mediumImage n)) else a) =
      fun a n => a.noted n (E n) := by
    funext a n
    rw [← hE]
    show _ = State.noted a n (if s.loses j st n then some (.serverLost j (s.mediumImage n)) else none)
    split <;> rfl
  have turned := (tested_turned (s := s.promise) (j := j) (st := st) law).1.notices
  have each (n : NodeId) : (if s.promise.loses j st n then some (Event.serverLost j (s.promise.mediumImage n)) else none) = E n :=
    congrFun hE n
  simp only [each] at turned
  have same : (s.promise.reviewed j st).notices = (s.entered j st).notices := (reviewed_rest s.promise j st).notices
  have notices := (replaceStation_work s.promise j st).notices_eq
  rw [turned, foldl_noted_congr same allNodes E] at notices
  obtain ⟨su, now⟩ := foldl_noted_still allNodes E (s.entered j st)
  have su' : (s.promise.replaceStation j st).su = (s.entered j st).su := replaceStation_su s.promise j st
  have now' : (s.promise.replaceStation j st).now = (s.entered j st).now := (replaceStation_blocks s.promise j st).now_eq
  rw [form]
  obtain ⟨v, hv⟩ : ∃ v, s.promise.replaceStation j st = v := ⟨_, rfl⟩
  obtain ⟨w, hw⟩ : ∃ w, allNodes.foldl (fun a n => a.noted n (E n)) (s.entered j st) = w := ⟨_, rfl⟩
  rw [hv] at hs notices su' now'
  rw [hw] at notices su now ⊢
  have settled : NoticesSettled w (v.answer hd 0x02 .ok body) := .of_eq notices
  exact hs.delivers.notices_trans settled (su'.trans su.symm) (now'.trans now.symm)

/-- Where no station is renamed and no server lost, only attachments have changed. -/
theorem replaced_quiet (hg : s.renamed j st = false) (hu : ∀ n, s.loses j st n = false) :
    Settles ((allNodes.foldl (fun a n => a.putStream n (s.streamReviewed j st n)) (s.entered j st)).withAnswer hd 0x02 .ok body) t := by
  rw [replaceStation_quiet (s := s.promise) hg hu] at hs
  have settled := reviewed_settles s.promise j st
  rw [show s.promise.entered j st = (s.entered j st).promise from rfl, foldl_putStream_promise] at settled
  exact (settled.answer hd 0x02 .ok body).trans hs

theorem replaced_record (r : ImageIx) : (t.image r).map ImageRec.unsent = ((s.promise.tested j st).image r).map ImageRec.unsent := by
  have := hs.delivers.images.1 r
  rw [← (replaceStation_work s.promise j st).image_eq r]
  exact this

theorem replaced_unsentClose : t.images.unsentClose = (s.promise.tested j st).images.unsentClose :=
  hs.delivers.images.2.2.2.2.2.1.trans (replaceStation_work s.promise j st).unsentClose_eq

theorem replaced_frames {f : TxFrame} (hf : f ∈ (s.promise.tested j st).up.frames) : f ∈ t.up.frames := by
  have := (replaceStation_work s.promise j st).mediaOnly.frames hf
  refine hs.delivers.kept.mem _ ?_
  rw [State.answer, frames_enqueue]
  exact List.mem_append_left _ this

theorem replaced_needs : t.images.needs = (s.promise.replaceStation j st).images.needs := hs.2.2.1

variable (law : ImageLaw s)
include law

theorem replaced_none {r : ImageIx} (hr : s.image r = none) : t.image r = none := by
  have before : (s.promise.reviewed j st).image r = none := by
    rw [State.image, (reviewed_rest s.promise j st).images]
    exact hr
  have gone := (tested_turned (s := s.promise) (j := j) (st := st) law).2.trimmed.records r before
  have record := replaced_record hs r
  rw [gone] at record
  exact Option.map_eq_none_iff.mp record

theorem replaced_stays {r : ImageIx} {x : ImageRec} (hx : s.image r = some x)
    (h : ¬(x.users ≠ 0 ∧ maskWithout x.users (s.loses j st) = 0)) :
    (t.image r).map ImageRec.unsent = some ({ x with users := maskWithout x.users (s.loses j st) } : ImageRec).unsent := by
  rw [replaced_record hs r, tested_record (s := s.promise) law hx]
  exact congrArg (Option.map ImageRec.unsent) (if_neg h)

theorem replaced_ends {r : ImageIx} {x : ImageRec} (hx : s.image r = some x)
    (h : x.users ≠ 0 ∧ maskWithout x.users (s.loses j st) = 0) : t.image r = none ∧ (∀ z ∈ t.images.needs, z.image ≠ r) ∧
      (x.isOpening = false → (s.entered j st).closeFrame x ∈ t.up.frames ∨ s.images.unsentClose < t.images.unsentClose ∨
        t.images.unsentClose = 65535) := by
  have rest := reviewed_rest s.promise j st
  have before : (s.promise.reviewed j st).image r = some x := by
    rw [State.image, rest.images]
    exact hx
  have left := (tested_turned (s := s.promise) (j := j) (st := st) law).2
  have gone : (s.promise.tested j st).image r = none := (tested_record (s := s.promise) law hx).trans (if_pos h)
  have record := replaced_record hs r
  rw [gone] at record
  have whole := left.trimmed.trans (replaceStation_trimmed s.promise j st)
  refine ⟨Option.map_eq_none_iff.mp record, fun z hz => ?_, fun ho => ?_⟩
  · rw [replaced_needs hs] at hz
    exact whole.gone r (by rw [before]; nofun) ((replaceStation_work s.promise j st).image_eq r |>.trans gone) z hz
  · have closed := (left.gone r x before gone).2.2 ho
    rw [rest.images] at closed
    rw [replaced_unsentClose hs]
    refine closed.imp_left fun hf => replaced_frames hs ?_
    rwa [closeFrame_congr (a := s.entered j st) rest.su] at hf

theorem replaced_unsent (h : ∀ r x, s.image r = some x → x.isOpening = false →
    ¬(x.users ≠ 0 ∧ maskWithout x.users (s.loses j st) = 0)) : t.images.unsentClose = s.images.unsentClose := by
  have rest := reviewed_rest s.promise j st
  have left := (tested_turned (s := s.promise) (j := j) (st := st) law).2
  rw [replaced_unsentClose hs, left.unsent, rest.images]
  · rfl
  · intro r x hx ho hn
    have hx' : s.image r = some x := by
      rw [State.image, rest.images] at hx
      exact hx
    have stays := (tested_record (s := s.promise) (j := j) (st := st) law hx').trans (if_neg (h r x hx' ho))
    rw [stays] at hn
    cases hn

/-- The fetches after a replacement (R145, R147). -/
theorem replaced_fetches (fetches : FetchLaw s) : (∀ f l, (t.images.fetches.get f).live = some l → (t.image l.image).isSome) ∧
    ∀ f l, (s.images.fetches.get f).live = some l →
      (∀ x, s.image l.image = some x → ¬(x.users ≠ 0 ∧ maskWithout x.users (s.loses j st) = 0)) →
      (t.images.fetches.get f).generation = (s.images.fetches.get f).generation ∧
        (t.images.fetches.get f).live.map Fetch.unsent = some l.unsent := by
  have rest := reviewed_rest s.promise j st
  have begins : FetchLaw (s.promise.reviewed j st) := by
    unfold FetchLaw State.port State.image at fetches ⊢
    rwa [rest.images, rest.ports]
  obtain ⟨records, -⟩ := (replaceStation_keeps s.promise j st).fetch begins
  refine ⟨fun f l hl => ?_, fun f l hl hx => ?_⟩
  · have settled := (hs.2.2.2 f).2
    rw [hl] at settled
    obtain ⟨q, hq, hu⟩ := Option.map_eq_some_iff.mp settled.symm
    have image : q.image = l.image := (congrArg Fetch.image hu :)
    have some_ := records f q hq
    have record := hs.delivers.images.1 l.image
    rw [image] at some_
    rw [← Option.isSome_map (f := ImageRec.unsent), record, Option.isSome_map]
    exact some_
  · obtain ⟨x, hrec⟩ := Option.isSome_iff_exists.mp (fetches.1 f l hl)
    have stays := replaced_stays hs law hrec (hx x hrec)
    rw [replaced_record hs] at stays
    have held : (s.promise.replaceStation j st).image l.image ≠ none := fun hn => by
      rw [← (replaceStation_work s.promise j st).image_eq, hn] at stays
      cases stays
    have whole := (tested_turned (s := s.promise) (j := j) (st := st) law).2.trimmed.trans (replaceStation_trimmed s.promise j st)
    have live : (s.promise.reviewed j st).fetching f = some l := by
      rw [State.fetching, rest.images]
      exact hl
    have kept := whole.kept f l live held
    rw [rest.images] at kept
    obtain ⟨generation, settled⟩ := hs.2.2.2 f
    rw [show ((s.promise.replaceStation j st).answer hd 0x02 .ok body).images.fetches.get f = s.images.fetches.get f from kept] at generation settled
    exact ⟨generation, settled.trans (congrArg (Option.map Fetch.unsent) hl)⟩

/-- No VALID extent of a station that is gone is left (R14). -/
theorem replaced_extents (hg : s.renamed j st = true) (hr : ∀ r x, s.image r = some x → x.server = j → x.users ≠ 0) {q : ExtentIx}
    {y : Extent} (hy : t.pool.extents.get q = some y) (hj : y.key.server = j) : y.valid = false ∧ y.stale = true := by
  have pool : t.pool = (s.promise.replaceStation j st).pool := hs.2.1
  rw [pool] at hy
  exact replaceStation_marks (s := s.promise) hg law hr hy hj

omit law
theorem replaced_stream (n : NodeId) : StreamSettled (s.streamReviewed j st n) (t.streams.get n) := by
  obtain ⟨-, -, -, -, -, -, -, -, -, -, -, -, -, streams, -⟩ := replaceStation_media s.promise j st
  exact ((reviewed_stream s.promise j st n).trans (streams n)).trans (hs.delivers.streams n)

theorem replaced_spared (hu : s.loses j st n = false) : t.port n = s.port n ∧ WriteSettled n s t := by
  have rest := reviewed_rest s.promise j st
  have work := replaceStation_work s.promise j st
  obtain ⟨port, write⟩ := (tested_media s.promise j st).spared n ((rest.unserved n).trans hu)
  have port_ : (s.promise.reviewed j st).port n = s.port n := congrArg (Tab.get · n) rest.ports
  refine ⟨(hs.delivers.port_eq n).trans ((work.port_eq n).trans (port.trans port_)), ?_⟩
  have same : (s.promise.replaceStation j st).images.writes.get n = s.images.writes.get n := by
    rw [work.writes_eq, write, rest.images]
    rfl
  have settled := hs.delivers.writesSettled n
  rw [WriteSettled] at settled ⊢
  rw [show ((s.promise.replaceStation j st).answer hd 0x02 .ok body).images.writes.get n = s.images.writes.get n from same] at settled
  exact settled

theorem replaced_forced (law : ImageLaw s) (hu : s.loses j st n = true) : t.port n = (s.port n).forced (s.outstanding n) ∧
    t.images.writes.get n = ⟨(s.images.writes.get n).generation, none⟩ := by
  have work := replaceStation_work s.promise j st
  have turned := (tested_turned (s := s.promise) (j := j) (st := st) law).1
  have lost : s.promise.loses j st n = true := hu
  have port := turned.ports n
  have write := turned.writes n
  rw [if_pos (mem_allNodes n), lost, if_pos rfl] at port write
  refine ⟨(hs.delivers.port_eq n).trans ((work.port_eq n).trans port), ?_⟩
  have same : (s.promise.replaceStation j st).images.writes.get n = ⟨(s.images.writes.get n).generation, none⟩ := by
    rw [work.writes_eq, write]
    rfl
  obtain ⟨generation, live⟩ := hs.delivers.writesSettled n
  rw [show ((s.promise.replaceStation j st).answer hd 0x02 .ok body).images.writes.get n = _ from same] at generation live
  exact (WriteEntry.mk.injEq _ _ _ _).mpr ⟨generation, Option.map_eq_none_iff.mp live⟩

end

theorem replaced_unreplayed {st : Station} {hd : Head} {body : List Byte}
    (ht : ((s.promise.replaceStation j st).answer hd 0x02 .ok body).finish = t) (hj : ((s.streams.get n).att j).isSome)
    (hx : (s.renamed j st || !st.holds (s.su.tenants.get n) n .watch) = true) {r : Replay}
    (hr : (s.streams.get n).replay = some r) (hq : r.requester = j) : (t.streams.get n).replay = none := by
  have reviewed := reviewed_unreplayed (s := s.promise) (st := st) hj hx hr hq
  have replaced := (unreplayed_reclaiming n).replaceStation s.promise j st reviewed
  have answered : Unreplayed n (s.promise.replaceStation j st) ((s.promise.replaceStation j st).answer hd 0x02 .ok body) := .of_eq rfl
  rw [← ht]
  exact finish_unreplayed _ n (answered replaced)

theorem foldl_raise_su (out : NodeId → Bool) (ev : NodeId → Event) (ns : List NodeId) (e : State) :
    (ns.foldl (fun a n => if out n then a.raise (some n) (ev n) else a) e).su = e.su := by
  induction ns generalizing e with
  | nil => rfl
  | cons n ns ih =>
    rw [List.foldl_cons, ih]
    split <;> rfl

theorem foldl_raise_none {out : NodeId → Bool} (h : ∀ n, out n = false) (ev : NodeId → Event) (ns : List NodeId) (e : State) :
    ns.foldl (fun a n => if out n then a.raise (some n) (ev n) else a) e = e := by
  induction ns with
  | nil => rfl
  | cons n ns ih => rw [List.foldl_cons, h n, if_neg (by nofun), ih]

/-- Settles O21. -/
theorem stationWriteReplacesTheEntry : Obligations.StationWriteReplacesTheEntry := by
  intro s h bytes b i j st c ha hs atts
  have decided : s.promise.owner i .tableWrite none h.node (0x01 :: b) = s.promise.writeStation b :=
    ha.decided (c := .station)
  refine ⟨fun hd => ha.refused ?_, fun hd => ?_⟩
  · rw [decided, writeStation_eq (s := s.promise) hs, show decodeStation s.promise.up.addr b = none from hd]
    rfl
  · intro taken last gone unserved image e removed lowered reviewed left ends
    have write : s.promise.owner i .tableWrite none h.node (0x01 :: b) =
        if s.promise.addressTaken j st then s.promise.refuse .inUse
        else if s.promise.lastOperator j st then s.promise.refuse .wrongState
        else ⟨s.promise.replaceStation j st, .ok, encodeStation j st⟩ := by
      rw [decided, writeStation_eq (s := s.promise) hs, show decodeStation s.promise.up.addr b = some (j, st) from hd]
      rfl
    have inUse : s.promise.addressTaken j st = true ↔ taken := addressTaken_iff
    have sole : s.promise.lastOperator j st = true ↔ last := lastOperator_iff (s := s.promise) ha.commissioned
    refine ⟨fun ht => ha.refused ?_, fun ht hl => ha.refused ?_, fun ht hl => ?_⟩
    · rw [write, if_pos (inUse.mpr ht)]
    · rw [write, if_neg (mt inUse.mp ht), if_pos (sole.mpr hl)]
    · rw [if_neg (mt inUse.mp ht), if_neg (mt sole.mp hl)] at write
      obtain ⟨t, ht⟩ : ∃ t, ((s.promise.replaceStation j st).answer h 0x02 .ok (encodeStation j st)).finish = t := ⟨_, rfl⟩
      have hs : Settles ((s.promise.replaceStation j st).answer h 0x02 .ok (encodeStation j st)) t := ht ▸ finish_settles _
      have ended := ha.exec_decided write
      rw [ht] at ended
      obtain ⟨su, uplink, lines, matcher, power, watches, lease, loader, config, now, porn, straps, blanks, pending, late, foreign,
        malformed, timeout⟩ := replaced_blocks hs
      refine ⟨t, ended, su, uplink, lines, matcher, power, watches, lease, loader, config, now, porn, straps, blanks, pending, late,
        foreign, malformed, timeout, fun law => ?_, fun hg hu => ?_,
        fun law => ⟨fun r hr => ?_, fun r x hx => ?_, fun hc => ?_, fun fetches => ⟨fun f l hl => ?_, fun f l hl hx => ?_⟩⟩,
        fun hg law hr q y hy hj => ?_, fun n => ⟨?_, ?_, fun hj hx r hr hq => ?_, fun hu law => ?_, fun hu => ?_⟩⟩
      · exact replaced_notices hs law
      · have quiet := replaced_quiet hs hg hu
        have none_ : e = s.entered j st := foldl_raise_none hu _ _ _
        rw [none_]
        exact quiet
      · exact replaced_none hs law hr
      · by_cases hend : ends x
        · rw [if_pos hend]
          obtain ⟨h1, h2, h3⟩ := replaced_ends hs law hx hend
          refine ⟨h1, h2, fun ho => (h3 ho).imp_left fun hf => ?_⟩
          have su : e.su = (s.entered j st).su := foldl_raise_su unserved _ _ _
          rwa [closeFrame_congr su]
        · rw [if_neg hend]
          exact replaced_stays hs law hx hend
      · exact replaced_unsent hs law hc
      · exact (replaced_fetches hs law fetches).1 f l hl
      · exact (replaced_fetches hs law fetches).2 f l hl hx
      · exact replaced_extents hs law hg hr hy hj
      · obtain ⟨-, -, -, -, same, -⟩ := replaced_stream hs n
        exact same.trans (reviewed_atts (atts.1 n).2.1 _ _)
      · exact replaced_stream hs n
      · exact replaced_unreplayed ht hj hx hr hq
      · exact replaced_forced hs law hu
      · exact replaced_spared hs hu

end Sys2Proof.Machine
end
